-- ==== Sys2Proof/Word.lean ====
section
/-! DEFINITION. The byte, the wrapping count, and `Tab`, the fixed table of `n` like things (screens, lanes,
outputs, ports) with its reads and writes. -/

namespace Sys2Proof

/-- A byte of a frame, a side word or a sense report. -/
abbrev Byte := BitVec 8

/-- A wrapping count: an 8-bit counter that goes from 255 back to 0 (00, "Counts, settings and identifiers"). -/
abbrev Count := BitVec 8

/-- A table of exactly `n` entries, held as a list so that it is plain data. -/
structure Tab (α : Type) (n : Nat) where
  items : List α
  len : items.length = n
deriving DecidableEq, Repr

namespace Tab

variable {α β : Type} {n : Nat}

def get (t : Tab α n) (i : Fin n) : α := t.items[i.val]'(by have := t.len; omega)

def set (t : Tab α n) (i : Fin n) (x : α) : Tab α n := ⟨t.items.set i.val x, by simp [t.len]⟩

def modify (t : Tab α n) (i : Fin n) (f : α → α) : Tab α n := t.set i (f (t.get i))

def fill (n : Nat) (x : α) : Tab α n := ⟨List.replicate n x, by simp⟩

def ofFn (f : Fin n → α) : Tab α n := ⟨(List.finRange n).map f, by simp⟩

def map (f : α → β) (t : Tab α n) : Tab β n := ⟨t.items.map f, by simp [t.len]⟩

/-- Every entry rewritten by a function of its index and its value. -/
def update (t : Tab α n) (f : Fin n → α → α) : Tab α n := ofFn fun i => f i (t.get i)

@[simp] theorem get_set (t : Tab α n) (i j : Fin n) (x : α) :
    (t.set i x).get j = if i = j then x else t.get j := by
  simp [get, set, List.getElem_set, Fin.ext_iff]

@[simp] theorem get_modify (t : Tab α n) (i j : Fin n) (f : α → α) :
    (t.modify i f).get j = if i = j then f (t.get i) else t.get j := by
  simp [modify]

@[simp] theorem get_ofFn (f : Fin n → α) (i : Fin n) : (ofFn f).get i = f i := by
  simp [get, ofFn]

@[simp] theorem get_map (f : α → β) (t : Tab α n) (i : Fin n) : (t.map f).get i = f (t.get i) := by
  simp [get, map]

@[simp] theorem get_update (t : Tab α n) (f : Fin n → α → α) (i : Fin n) :
    (t.update f).get i = f i (t.get i) := by
  simp [update]

@[simp] theorem get_fill (x : α) (i : Fin n) : (fill n x).get i = x := by
  simp [get, fill]

/-- Two tables that read alike at every index are equal. -/
theorem ext_get {t u : Tab α n} (h : ∀ i, t.get i = u.get i) : t = u := by
  obtain ⟨a, ha⟩ := t
  obtain ⟨b, hb⟩ := u
  have : a = b := by
    apply List.ext_getElem (by omega)
    intro i h1 h2
    simpa [get] using h ⟨i, by omega⟩
  subst this
  rfl

end Tab

end Sys2Proof
end

