-- ==== Sys2Proof/Config.lean ====
section
/-! DEFINITION. The sizes the spec fixes for the part, and the free values for the numbers it leaves unstated. -/

namespace Sys2Proof.Config

/-- Samples of one block (00, "Time"). -/
def blockSamples : Nat := 48

/-- House blocks of one interval (02 R42). -/
def intervalBlocks : Nat := 1024

/-- The last show time, 24 hours of picture frames (00, "Time"). -/
def maxShowTime : Nat := 2073599

/-- The last value of the start-stamp counter (01 R11). -/
def maxStamp : Nat := 4294967295

/-- The fade attenuation at which a fade completes (01 R19). -/
def fadeEnd : Nat := 80

/-- Blocks an elastic store holds at most (02 R36). -/
def storeBlocks : Nat := 4

/-- The largest effective delay (04 R86, R87). -/
def maxDelay : Nat := 9599

/-- Samples of one delay-store page, and pages of the store (04 R85). -/
def pageSamples : Nat := 128
def pageCount : Nat := 4096

/-- House blocks from power-on reset to the completion of the self-test (04 R88). -/
def selftestBlocks : Nat := 2048

/-- Outputs one screen owns at most (03 R48). -/
def screenOutputs : Nat := 32

/-- Requests a receive queue holds, and notices a notice queue holds, at most (11 R182, R186). -/
def receiveLimit : Nat := 4
def noticeLimit : Nat := 32

/-- FREE VALUE (log 15): the length byte of a frame whose body is longer than the 247 bytes that 11 R180
allows. The spec gives POWER QUERY's answer such a body and states no length for it. -/
opaque oversizeLength : Nat → Byte

/-- FREE VALUE (log 36): the source sample of an output that carries program or paging, in a sample period beyond the
48th between two house blocks, of which the elastic stores hold no frame. It is read at the model's counter of such draws,
the output, and the period counted from 0. -/
opaque lateSource : Nat → Fin 192 → Nat → BitVec 24

end Sys2Proof.Config
end

