-- ==== Sys2Proof/Syntax.lean ====
section
/-! DEFINITION. The commands: one constructor of `Instr` for each row of spec/opcode_table.json, with its operands.
Identifiers and settings of a request are kept as carried, so that RANGE refusals and CLAMPED answers are part of
the meaning. -/

namespace Sys2Proof

/-- The sending side of a request frame: the port it came in by, the station and tag it carries, and whether its
body holds exactly the bytes its fields need (11 R180, R183 check 3). Where `fits` is false no field is read. -/
structure Header where
  port : Fin 4
  station : Fin 16
  tag : Byte
  fits : Bool
deriving DecidableEq, Repr

/-- Levels of the three site lines, active or not (00, "Site lines"). -/
structure SiteLines where
  evac : Bool
  supply1 : Bool
  supply2 : Bool
deriving DecidableEq, Repr

/-- What a house block takes from outside: the supply lines as read at it (08 R140), whether the delay-store
self-test found a fault in the two pages it tested (04 R88, a property of the device: log 8), whether source
selection is taken before the tone flags change at this house block (10 R173 allows either order), the sample periods of
the block that this house block begins, 48 to 96 (02 R41, log 25), and those from the reset to the first house block after
it, which a later one does not read. -/
structure BlockInputs where
  supply1 : Bool
  supply2 : Bool
  fault0 : Bool
  fault1 : Bool
  selectFirst : Bool
  periods : Nat
  sinceReset : Nat
deriving DecidableEq, Repr

/-- One block of a lane: 48 frames of 16 samples, and the two auxiliary bits of each frame in order of arrival
(02 R27). -/
structure LaneBlock where
  frames : List (List Int)
  aux : List (Bool × Bool)
deriving DecidableEq, Repr

/-- The block event at which an automatic start is attempted: the screen, the block of its lane, the sample periods since
the latest house block (02 R39), and whether the Screen Controller takes the accepted word after its other readers
(log 7). -/
structure StartEvent where
  screen : Fin 12
  block : LaneBlock
  sinceHouse : Nat
  screensLast : Bool
deriving DecidableEq, Repr

/-- A byte as it travels on a port's line, ten bits in order of time: bit 0 the start bit, bits 1 to 8 the data bits,
the least significant first, and bit 9 the stop bit, with no parity (11 R179). A start bit is 0 and a good stop bit 1
(PRESUMED, log 39). -/
structure LineByte where
  bits : BitVec 10
deriving DecidableEq, Repr

/-- The fields a SCREEN SET may carry, in the order of the table of 01 R1. -/
structure ScreenSel where
  priority : Option Nat
  fullDraw : Option Nat
  reducedDraw : Option Nat
  shedAtt : Option Nat
  fadeRate : Option Nat
  lipSync : Option Nat
  permit : Option Nat
  laneLevel : Option Nat
  defaultLayout : Option Nat
deriving DecidableEq, Repr

/-- The settings an ALARM SET may carry, in the order of the table of 06 R106. -/
structure AlarmSel where
  peakLimit : Option Nat
  loudLimit : Option Nat
  silenceFloor : Option Nat
  silenceRun : Option Nat
  clipLimit : Option Nat
  raiseHold : Option Nat
  clearHold : Option Nat
  autoTrim : Option Nat
  trimMax : Option Nat
deriving DecidableEq, Repr

/-- The thresholds a SENSE SET may carry, in the order of the table of 07 R129. -/
structure SenseSel where
  shortMax : Option Nat
  lowDrift : Option Nat
  highDrift : Option Nat
  openMin : Option Nat
deriving DecidableEq, Repr

/-- The fields a BUDGET SET may carry, in the order of the table of 08 R141. -/
structure BudgetSel where
  mains : Option Nat
  generator : Option Nat
  battery : Option Nat
  batteryLow : Option Nat
  reserve : Option Nat
deriving DecidableEq, Repr

/-- The source of one role in a layout record (03 R53): slots 1 to 16, steps -24 to 0. -/
inductive Source where
  | none
  | one (slot : Nat) (step : Int)
  | two (slotI : Nat) (stepI : Int) (slotJ : Nat) (stepJ : Int)
deriving DecidableEq, Repr

/-- One source of a LAYOUT SET: the role code and the source, both as carried (03 R54). -/
structure RoleSource where
  role : Nat
  source : Source
deriving DecidableEq, Repr

/-- The five coefficients of a biquad section, signed 24-bit codes (04 R69). -/
structure Section where
  b0 : Int
  b1 : Int
  b2 : Int
  a1 : Int
  a2 : Int
deriving DecidableEq, Repr

/-- A cue's trigger as CUE ADD carries it, its codes not yet checked (09 R152, R154). -/
inductive RawTrigger where
  | time (t : Nat)
  | state (code : Nat)
  | alarm (code : Nat)
  | call (n : Nat)
deriving DecidableEq, Repr

/-- A cue's action as CUE ADD carries it, not yet checked (09 R152, R154). -/
inductive RawAction where
  | lineOn (line : Nat)
  | lineOff (line : Nat)
  | linePulse (line : Nat) (length : Nat)
  | houseLevel (v : Nat)
  | noticeOnly
deriving DecidableEq, Repr

/-- The command of a LINE SET (09 R167). -/
inductive LineCommand where
  | on
  | off
  | pulse (length : Nat)
deriving DecidableEq, Repr

/-- The commands of the block. -/
inductive Instr where
  -- reset, site lines, house clock
  | powerOnReset (lines : SiteLines)
  | evacAsserted
  | evacReleased
  | houseBlock (inp : BlockInputs)
  | referenceLost (inp : BlockInputs)
  | referenceRegained
  | intervalEvent
  | fadeStep (screen : Fin 12)
  | fadeCompletion (screen : Fin 12)
  | pulseEnd (screen : Fin 12) (line : Fin 8)
  | selftestCompletion (fault0 fault1 : Bool)
  -- lanes
  | activityLost (lane : Fin 14)
  | activitySeen (lane : Fin 14)
  | blockFound (lane : Fin 14) (block : LaneBlock) (position : Nat) (sinceHouse : Nat)
  | laneBlockEvent (lane : Fin 14) (block : LaneBlock) (sinceHouse : Nat) (screensLast : Bool)
  | automaticStart (event : StartEvent)
  -- calibration and return lanes
  | measurePhaseEnd
  | measurementResult
  | returnBlockEvent (lane : Fin 12) (aux : List (Bool × Bool))
  -- ports
  | frameReceived (port : Fin 4) (bytes : List LineByte)
  | frameSent (port : Fin 4) (supply1 supply2 : Bool)
  | unknownRequest (h : Header) (kind : Nat)
  -- requests on screens
  | enable (h : Header) (screen : Nat)
  | disable (h : Header) (screen : Nat)
  | hold (h : Header) (screen : Nat)
  | calibrate (h : Header) (screen : Nat)
  | free (h : Header) (screen : Nat)
  | start (h : Header) (screen : Nat)
  | pause (h : Header) (screen : Nat)
  | resume (h : Header) (screen : Nat)
  | endShow (h : Header) (screen : Nat) (rate : Option Nat)
  | level (h : Header) (screen : Nat) (value : Nat)
  | screenSet (h : Header) (screen : Nat) (sel : ScreenSel)
  | screenQuery (h : Header) (screen : Nat)
  -- requests on lanes
  | laneSet (h : Header) (lane : Nat) (mask : BitVec 16)
  | laneQuery (h : Header) (lane : Nat)
  -- requests on the output map, the layout table and the paging step
  | outputMap (h : Header) (output : Nat) (assign : Option (Nat × Nat))
  | outputQuery (h : Header) (output : Nat)
  | layoutSet (h : Header) (code : Nat) (sources : List RoleSource)
  | layoutQuery (h : Header) (code : Nat)
  | pagingSet (h : Header) (value : Option Int)
  | routeQuery (h : Header) (screen : Nat)
  -- requests on tuning and the delay store
  | tuneLoad (h : Header) (output : Nat) (trim : Int) (polarity : Nat) (sections : List Section) (delay : Nat)
  | trim (h : Header) (output : Nat) (value : Int)
  | tuneQuery (h : Header) (output : Nat) (start : Nat)
  | gainQuery (h : Header) (screen : Nat)
  | storeQuery (h : Header) (start : Nat)
  -- requests on the meter and the alarms
  | offsetSet (h : Header) (screen : Nat) (value : Option Int)
  | levelQuery (h : Header) (screen : Nat) (output : Option Nat)
  | alarmSet (h : Header) (screen : Nat) (sel : AlarmSel)
  | alarmQuery (h : Header) (screen : Nat)
  -- requests on line sense
  | senseSet (h : Header) (output : Nat) (sel : SenseSel)
  | exclude (h : Header) (output : Nat)
  | includeOutput (h : Header) (output : Nat)
  | healthQuery (h : Header) (output : Nat)
  -- requests on the power budget
  | budgetSet (h : Header) (sel : BudgetSel)
  | powerQuery (h : Header)
  -- requests on cues and booth lines
  | cueAdd (h : Header) (screen : Nat) (trigger : RawTrigger) (action : RawAction) (chase : Nat) (label : List Byte)
  | cueRemove (h : Header) (screen : Nat) (entry : Nat)
  | cueClear (h : Header) (screen : Nat)
  | cueQuery (h : Header) (screen : Nat) (start : Nat)
  | lineSet (h : Header) (screen : Nat) (line : Nat) (command : LineCommand)
  | lineEvacSet (h : Header) (screen : Nat) (line : Nat) (setting : Nat)
  | lineQuery (h : Header) (screen : Nat)
  -- requests on calibration
  | tone (h : Header) (screen : Nat) (target : Option Nat) (action : Nat) (gain : Option Int)
  | measure (h : Header) (screen : Nat) (target : Option Nat)
  | abort (h : Header) (screen : Nat)
  | micSet (h : Header) (value : Option Int)
  | calibrationQuery (h : Header) (screen : Option Nat)
  -- requests on the ports
  | subscribe (h : Header) (kinds : BitVec 16) (screens : BitVec 16)
  | portStatus (h : Header)
  | markSet (h : Header) (value : Nat)
  | markQuery (h : Header)
  | restart (h : Header)
deriving DecidableEq, Repr

end Sys2Proof
end

