-- ==== Sys2Proof/WellFormed.lean ====
section
/-! DEFINITION. `Instr.wellFormed`: the commands the outside world can form. A block has 48 frames of 16 samples of
24 bits and two auxiliary bits, a return block has 48 frames or is missing, house blocks are 48 to 96 sample periods
apart, a byte on a line begins with its start bit, and every field of a request fits the bytes that 11 R180 gives it (log 11). -/

namespace Sys2Proof

/-- A number that fits `n` unsigned bytes. -/
def fitsBytes (n v : Nat) : Bool := v < 256 ^ n

/-- A number that fits `n` bytes of two's complement. -/
def fitsSigned (n : Nat) (v : Int) : Bool := -(256 ^ n : Int) ≤ 2 * v && 2 * v < (256 ^ n : Int)

/-- An optional unsigned field. -/
def optFits (n : Nat) : Option Nat → Bool
  | none => true
  | some v => fitsBytes n v

/-- An optional signed field. -/
def optFitsSigned (n : Nat) : Option Int → Bool
  | none => true
  | some v => fitsSigned n v

/-- 48 frames of 16 samples of 24 bits, with two auxiliary bits each (02 R27). -/
def LaneBlock.wellFormed (b : LaneBlock) : Bool :=
  b.frames.length == 48 && b.frames.all (fun f => f.length == 16 && f.all (fitsSigned 3)) && b.aux.length == 48

def ScreenSel.wellFormed (c : ScreenSel) : Bool :=
  optFits 1 c.priority && optFits 2 c.fullDraw && optFits 2 c.reducedDraw && optFits 1 c.shedAtt &&
  optFits 1 c.fadeRate && optFits 2 c.lipSync && optFits 1 c.permit && optFits 1 c.laneLevel &&
  optFits 1 c.defaultLayout

def AlarmSel.wellFormed (c : AlarmSel) : Bool :=
  optFits 1 c.peakLimit && optFits 1 c.loudLimit && optFits 1 c.silenceFloor && optFits 1 c.silenceRun &&
  optFits 2 c.clipLimit && optFits 1 c.raiseHold && optFits 1 c.clearHold && optFits 1 c.autoTrim &&
  optFits 1 c.trimMax

def SenseSel.wellFormed (c : SenseSel) : Bool :=
  optFits 2 c.shortMax && optFits 2 c.lowDrift && optFits 2 c.highDrift && optFits 2 c.openMin

def BudgetSel.wellFormed (c : BudgetSel) : Bool :=
  optFits 2 c.mains && optFits 2 c.generator && optFits 2 c.battery && optFits 2 c.batteryLow && optFits 2 c.reserve

def Source.wellFormed : Source → Bool
  | .none => true
  | .one i g => fitsBytes 1 i && fitsSigned 1 g
  | .two i gi j gj => fitsBytes 1 i && fitsSigned 1 gi && fitsBytes 1 j && fitsSigned 1 gj

def Section.wellFormed (c : Section) : Bool :=
  fitsSigned 3 c.b0 && fitsSigned 3 c.b1 && fitsSigned 3 c.b2 && fitsSigned 3 c.a1 && fitsSigned 3 c.a2

def RawTrigger.wellFormed : RawTrigger → Bool
  | .time t => fitsBytes 3 t
  | .state c => fitsBytes 1 c
  | .alarm c => fitsBytes 1 c
  | .call n => fitsBytes 1 n

def RawAction.wellFormed : RawAction → Bool
  | .lineOn l => fitsBytes 1 l
  | .lineOff l => fitsBytes 1 l
  | .linePulse l n => fitsBytes 1 l && fitsBytes 2 n
  | .houseLevel v => fitsBytes 1 v
  | .noticeOnly => true

def LineCommand.wellFormed : LineCommand → Bool
  | .on => true
  | .off => true
  | .pulse n => fitsBytes 2 n

/-- Two house blocks, and a reset and the first house block after it, are one to two blocks apart (02 R41). -/
def BlockInputs.wellFormed (inp : BlockInputs) : Bool :=
  decide (48 ≤ inp.periods) && decide (inp.periods ≤ 96) && decide (48 ≤ inp.sinceReset) && decide (inp.sinceReset ≤ 96)

/-- The command can be formed outside the part. -/
def Instr.wellFormed : Instr → Bool
  | .powerOnReset _ => true
  | .evacAsserted => true
  | .evacReleased => true
  | .houseBlock inp => inp.wellFormed
  | .referenceLost inp => inp.wellFormed
  | .referenceRegained => true
  | .intervalEvent => true
  | .fadeStep _ => true
  | .fadeCompletion _ => true
  | .pulseEnd _ _ => true
  | .selftestCompletion _ _ => true
  | .activityLost _ => true
  | .activitySeen _ => true
  | .blockFound _ b p _ => b.wellFormed && decide (p < 48)
  | .laneBlockEvent _ b _ _ => b.wellFormed
  | .automaticStart e => e.block.wellFormed
  | .measurePhaseEnd => true
  | .measurementResult => true
  | .returnBlockEvent _ a => a.length == 48 || a.isEmpty
  | .frameReceived _ bs => !bs.isEmpty && bs.all fun b => !b.bits.getLsbD 0
  | .frameSent _ _ _ => true
  | .unknownRequest _ k => fitsBytes 1 k && !(1 ≤ k && k ≤ 52)
  | .enable _ n => fitsBytes 1 n
  | .disable _ n => fitsBytes 1 n
  | .hold _ n => fitsBytes 1 n
  | .calibrate _ n => fitsBytes 1 n
  | .free _ n => fitsBytes 1 n
  | .start _ n => fitsBytes 1 n
  | .pause _ n => fitsBytes 1 n
  | .resume _ n => fitsBytes 1 n
  | .endShow _ n r => fitsBytes 1 n && optFits 1 r
  | .level _ n v => fitsBytes 1 n && fitsBytes 1 v
  | .screenSet _ n c => fitsBytes 1 n && c.wellFormed
  | .screenQuery _ n => fitsBytes 1 n
  | .laneSet _ n _ => fitsBytes 1 n
  | .laneQuery _ n => fitsBytes 1 n
  | .outputMap _ o a => fitsBytes 1 o && optFits 1 (a.map Prod.fst) && optFits 1 (a.map Prod.snd)
  | .outputQuery _ o => fitsBytes 1 o
  | .layoutSet _ c l => fitsBytes 1 c && l.length < 256 && l.all fun r => fitsBytes 1 r.role && r.source.wellFormed
  | .layoutQuery _ c => fitsBytes 1 c
  | .pagingSet _ v => optFitsSigned 1 v
  | .routeQuery _ n => fitsBytes 1 n
  | .tuneLoad _ o t p l d =>
      fitsBytes 1 o && fitsSigned 1 t && fitsBytes 1 p && l.length < 256 && l.all Section.wellFormed && fitsBytes 2 d
  | .trim _ o v => fitsBytes 1 o && fitsSigned 1 v
  | .tuneQuery _ o p => fitsBytes 1 o && fitsBytes 1 p
  | .gainQuery _ n => fitsBytes 1 n
  | .storeQuery _ p => fitsBytes 2 p
  | .offsetSet _ n v => fitsBytes 1 n && optFitsSigned 1 v
  | .levelQuery _ n o => fitsBytes 1 n && optFits 1 o
  | .alarmSet _ n c => fitsBytes 1 n && c.wellFormed
  | .alarmQuery _ n => fitsBytes 1 n
  | .senseSet _ o c => fitsBytes 1 o && c.wellFormed
  | .exclude _ o => fitsBytes 1 o
  | .includeOutput _ o => fitsBytes 1 o
  | .healthQuery _ o => fitsBytes 1 o
  | .budgetSet _ c => c.wellFormed
  | .powerQuery _ => true
  | .cueAdd _ n t a c l =>
      fitsBytes 1 n && t.wellFormed && a.wellFormed && fitsBytes 1 c && decide (l.length < 256)
  | .cueRemove _ n e => fitsBytes 1 n && fitsBytes 2 e
  | .cueClear _ n => fitsBytes 1 n
  | .cueQuery _ n p => fitsBytes 1 n && fitsBytes 2 p
  | .lineSet _ n l c => fitsBytes 1 n && fitsBytes 1 l && c.wellFormed
  | .lineEvacSet _ n l v => fitsBytes 1 n && fitsBytes 1 l && fitsBytes 1 v
  | .lineQuery _ n => fitsBytes 1 n
  | .tone _ n t a g => fitsBytes 1 n && optFits 1 t && fitsBytes 1 a && optFitsSigned 1 g
  | .measure _ n t => fitsBytes 1 n && optFits 1 t
  | .abort _ n => fitsBytes 1 n
  | .micSet _ v => optFitsSigned 1 v
  | .calibrationQuery _ n => optFits 1 n
  | .subscribe _ _ _ => true
  | .portStatus _ => true
  | .markSet _ v => fitsBytes 1 v
  | .markQuery _ => true
  | .restart _ => true

end Sys2Proof
end

