-- ==== Sys2Proof/Decode.lean ====
section
/-! DEFINITION. Decoding of command words. No row of spec/opcode_table.json gives bits, so no word spells a command.
(The frames of the station ports, which do carry requests, are read in Machine/Codec.lean.) -/

namespace Sys2Proof

/-- The command a word spells by the table's bits: none, since the table gives no row any. -/
def decodeTableWord (_nbits _w : Nat) : Option Instr := none

end Sys2Proof
end

