-- ==== Sys2Proof/Machine/State.lean ====
section
/-! DEFINITION. The state of the Nemgra 1240, block by block, as plain data, and the state after reset. Fields marked
MODEL are the model's own; every other field is one the spec names (INVENTORY.md, "State", cites the rule of each). -/

namespace Sys2Proof.Machine

/-- No command stops the part, and nothing raises this: it is there because the interface asks for a type.
Safe: a stop that never happens proves nothing. -/
inductive Fault where
  | none
deriving DecidableEq, Repr

/-- `notModelled` would reject a command by name; no arm of `exec` raises it. Safe. -/
inductive Refusal where
  | notModelled (mnemonic : String)
deriving DecidableEq, Repr

/-! ### Screen Controller (01) -/

/-- The eight show states, in the order of 01 R1. -/
inductive ShowState where
  | offline | dark | armed | show | paused | ending | calibrating | evacuated
deriving DecidableEq, Repr

/-- The configuration fields of a screen record (01 R1). -/
structure ScreenConfig where
  priority : Nat
  fullDraw : Nat
  reducedDraw : Nat
  shedAtt : Nat
  fadeRate : Nat
  lipSync : Nat
  permit : Bool
  laneLevel : Bool
  defaultLayout : Nat
deriving DecidableEq, Repr

/-- A screen record (01 R1). MODEL: `fadeTaken`, the fade advance of the coming house block has been taken (log 2). -/
structure Screen where
  config : ScreenConfig
  state : ShowState
  holder : Option (Fin 16)
  stamp : Nat
  level : Nat
  fadeAtt : Nat
  rateInEffect : Option Nat
  fadeCount : Nat
  lastLevel : Nat
  lastRolling : Option Bool
  fadeTaken : Bool
deriving DecidableEq, Repr

/-! ### Lane Receiver (02) -/

/-- The five sync states, in the order of the table before 02 R30. -/
inductive Sync where
  | nosignal | hunt | probation | locked | flywheel
deriving DecidableEq, Repr

/-- The kinds of slip (02 R38). -/
inductive Slip where
  | underrun | overrun
deriving DecidableEq, Repr

/-- The fields of an inbound side word, as carried (02 R28, 11 R180). -/
structure SideWord where
  mark : Nat
  layout : Nat
  flags : Nat
  reel : Nat
  time : Nat
  level : Nat
  server : Nat
  cueCall : Nat
  check : Nat
deriving DecidableEq, Repr

/-- The audio of one block: frames of slot samples. -/
abbrev Audio := List (List Int)

/-- A lane record (02 R47). `mask` has a set bit for each masked slot. -/
structure Lane where
  sync : Sync
  alignment : Option Nat
  good : Option Nat
  bad : Option Nat
  store : List Audio
  slips : Count
  intervalSlips : Nat
  lastSlip : Option Slip
  badBlocks : Count
  skew : Option Nat
  accepted : Option SideWord
  mask : BitVec 16
deriving DecidableEq, Repr

/-- The states of the house clock (02 R41). -/
inductive Clock where
  | locked | free
deriving DecidableEq, Repr

/-! ### Power Manager (08) -/

/-- The supply states, in the order of 08 R140. -/
inductive Supply where
  | mains | generator | battery | batteryLow
deriving DecidableEq, Repr

/-- The grant statuses, in the order of 08 R144. -/
inductive GrantStatus where
  | none | full | shed | suspended
deriving DecidableEq, Repr

/-- The record of the latest entry into SHED or SUSPENDED (08 R148). -/
structure LastChange where
  status : GrantStatus
  supply : Supply
  available : Nat
deriving DecidableEq, Repr

/-- What the Power Manager holds for one screen (08 R148, R150). -/
structure Grant where
  status : GrantStatus
  draw : Nat
  sheds : Count
  suspends : Count
  lastChange : Option LastChange
deriving DecidableEq, Repr

/-- The supply and the five settings of the Power Manager (08 R140, R141). -/
structure Budget where
  supply1 : Bool
  supply2 : Bool
  supply : Supply
  mains : Nat
  generator : Nat
  battery : Nat
  batteryLow : Nat
  reserve : Nat
deriving DecidableEq, Repr

/-! ### Decoder-Router (03) -/

/-- The twelve roles, in the order of 03 R52. -/
inductive Role where
  | l | c | r | lc | rc | lfe | lss | rss | lrs | rrs | lts | rts
deriving DecidableEq, Repr

/-- What an output carries (03 R51). -/
inductive SourceKind where
  | silence | program | paging | tone
deriving DecidableEq, Repr

/-- The reasons for silence (03 R62). -/
inductive SilenceReason where
  | unmapped | outOfService | noProgram | paused | suspended | lane | noTone | evacOther
deriving DecidableEq, Repr

inductive LayoutSource where
  | default | lane
deriving DecidableEq, Repr

/-- The service of a role (03 R59). -/
inductive RoleService where
  | unmapped | inService | out
deriving DecidableEq, Repr

/-- The figures of one role at a house block (03 R67). -/
structure RoleFigures where
  mapped : Nat
  inService : Nat
  service : RoleService
  comp : Nat
  outputs : List (Fin 192)
deriving DecidableEq, Repr

/-- What ROUTE QUERY reads of one screen, as at the latest house block (03 R67). -/
structure RouteFigures where
  layout : Nat
  source : LayoutSource
  held : Option Nat
  noLayout : Bool
  roles : Tab RoleFigures 12
  onRoute : Bool
  pagingRoles : List Role
deriving DecidableEq, Repr

/-- The layout selection of one screen (03 R56) and its latest figures. -/
structure Route where
  source : LayoutSource
  held : Option Nat
  figures : RouteFigures
deriving DecidableEq, Repr

/-- A layout record: undefined, or a source for each role (03 R53). -/
abbrev Layout := Option (Tab Source 12)

/-! ### Equaliser and Delay Store (04) -/

/-- The histories of one biquad section (04 R69). -/
structure History where
  x1 : Int
  x2 : Int
  y1 : Int
  y2 : Int
deriving DecidableEq, Repr

/-- A section of an output's path: its coefficients and its histories. -/
structure PathSection where
  coef : Section
  hist : History
deriving DecidableEq, Repr

/-- The part of the base target that set it (04 R84). -/
inductive BasePart where
  | none | shed | loud
deriving DecidableEq, Repr

/-- What GAIN QUERY reads of one screen, as at the latest house block (04 R84). -/
structure GainFigures where
  target : Nat
  part : BasePart
  current : Nat
  fade : Nat
  applied : Nat
  level : Nat
  muted : Nat
deriving DecidableEq, Repr

/-- The base current of one screen (04 R83) and its latest gain figures. -/
structure Attenuation where
  current : Nat
  figures : GainFigures
deriving DecidableEq, Repr

/-- The self-test of the delay store (04 R88): house blocks since power-on reset, and the pages found faulty. -/
structure SelfTest where
  running : Bool
  blocks : Nat
  faults : List Nat
deriving DecidableEq, Repr

/-! ### Level Meter (05) -/

/-- The meter fields of one screen (05 R105). The ring holds segment sums, oldest first. -/
structure Meter where
  blockSum : Nat
  blockLevel : Nat
  blockSpl : Nat
  intervalSum : Nat
  intervalLevel : Nat
  intervalSpl : Nat
  clips : Nat
  lastClips : Nat
  segmentSum : Nat
  segmentFill : Nat
  ring : List Nat
  windowSum : Nat
  windowLevel : Nat
  windowSpl : Nat
  showMax : Nat
  offset : Int
deriving DecidableEq, Repr

/-! ### Line Sense Unit (07) -/

/-- The classes of a taken report (07 R129), in the order of the field list of 07 R131; which list gives their codes is
settled at `LineClass.code` (log 40). -/
inductive LineClass where
  | good | low | high | open | short
deriving DecidableEq, Repr

/-- The health states, in the order of 07 R131. -/
inductive Health where
  | unknown | good | suspect | driftingLow | driftingHigh | failedOpen | failedShort | excluded | unsensed
deriving DecidableEq, Repr

/-- The last fault of an output (07 R136). -/
structure LastFault where
  cls : LineClass
  z16 : Nat
  state : Option ShowState
  time : Option Nat
deriving DecidableEq, Repr

/-- The sense thresholds of an output (07 R129). -/
structure Thresholds where
  shortMax : Nat
  lowDrift : Nat
  highDrift : Nat
  openMin : Nat
deriving DecidableEq, Repr

/-- The health record of an output (07 R131, R136). -/
structure HealthRecord where
  health : Health
  settled : Option LineClass
  candidate : Option LineClass
  count : Nat
  lastZ : Option Nat
  openFaults : Count
  shortFaults : Count
  lowFaults : Count
  highFaults : Count
  lastFault : Option LastFault
deriving DecidableEq, Repr

/-- The lock record of a return lane (07 R127). -/
structure ReturnLane where
  locked : Bool
  run : Nat
  malformed : Count
deriving DecidableEq, Repr

/-! ### One output (03 R48, 04 R69, 05 R91, 07 R139, 10 R171) -/

/-- The figures of an output as at the latest house block (03 R51, 04 R72, 07 R138). `step` is none for MUTE. -/
structure OutputFigures where
  kind : SourceKind
  reason : Option SilenceReason
  comp : Nat
  step : Option Int
  pilot : Bool
deriving DecidableEq, Repr

/-- All the state of one output. `blockScreen` is the screen it was mapped to at the house block that began the
block in progress (05 R94); `drive` is the drive samples of that block's first 48 sample periods, and `late` those of the
sample periods beyond them (07 R125, log 36). -/
structure Output where
  place : Option (Fin 12 × Role)
  trim : Int
  inverted : Bool
  path : List PathSection
  delay : Nat
  line : List Int
  pages : List Nat
  running : Nat
  energy : Nat
  blockScreen : Option (Fin 12)
  sense : HealthRecord
  thresholds : Thresholds
  driveOn : Bool
  drive : List Int
  late : List Int
  figures : OutputFigures
  toneFlag : Bool
  sensitivity : Option Int
deriving DecidableEq, Repr

/-! ### Alarm Monitor (06) -/

/-- The seven alarm kinds, in the order of the table of 06 R107. -/
inductive AlarmKind where
  | peak | loud | silent | clip | lane | speaker | power
deriving DecidableEq, Repr

/-- The alarm states, in the order of 06 R113. -/
inductive AlarmState where
  | clear | pending | raised | clearing
deriving DecidableEq, Repr

/-- The cause detail of a raise (06 R114). -/
inductive AlarmDetail where
  | spl (code : Nat)
  | clips (n : Nat)
  | lane (sync : Sync) (slips : Nat) (last : Option Slip)
  | speaker (output : Fin 192) (short : Bool)
  | power (status : GrantStatus)
deriving DecidableEq, Repr

/-- An alarm record (06 R113, R114). -/
structure AlarmRecord where
  state : AlarmState
  phase : Nat
  raises : Count
  lastShow : Option Nat
  detail : Option AlarmDetail
deriving DecidableEq, Repr

/-- The alarm settings of a screen (06 R106). -/
structure AlarmSettings where
  peakLimit : Nat
  loudLimit : Nat
  silenceFloor : Nat
  silenceRun : Nat
  clipLimit : Nat
  raiseHold : Nat
  clearHold : Nat
  autoTrim : Bool
  trimMax : Nat
deriving DecidableEq, Repr

/-- What the Alarm Monitor holds for one screen (06 R124). -/
structure Alarms where
  settings : AlarmSettings
  records : Tab AlarmRecord 7
  silenceRun : Nat
  loudTrim : Nat
  attention : Bool
deriving DecidableEq, Repr

/-! ### Cue Engine and Booth Line Driver (09) -/

/-- The show transitions a STATE trigger names, in the order of 09 R152. -/
inductive CueEvent where
  | start | pause | resume | endBegin | endDone
deriving DecidableEq, Repr

inductive Trigger where
  | time (t : Nat)
  | state (e : CueEvent)
  | alarm (k : AlarmKind)
  | call (n : Nat)
deriving DecidableEq, Repr

inductive Action where
  | lineOn (line : Fin 8)
  | lineOff (line : Fin 8)
  | linePulse (line : Fin 8) (length : Nat)
  | houseLevel (v : Nat)
  | noticeOnly
deriving DecidableEq, Repr

inductive CueState where
  | armed | fired | skipped
deriving DecidableEq, Repr

/-- A cue entry in use (09 R152). `state` is none for an entry that is not a TIME entry. -/
structure Cue where
  screen : Fin 12
  trigger : Trigger
  action : Action
  chase : Bool
  label : List Byte
  state : Option CueState
deriving DecidableEq, Repr

/-- The cue fields of one screen (09 R151, R158). `lastFired` is the entry number, 0 for none. -/
structure CueScreen where
  timeList : List (Fin 512)
  eventList : List (Fin 512)
  clock : Option Nat
  lastCall : Nat
  lastFired : Nat
deriving DecidableEq, Repr

/-- The evacuation settings of a booth line, in the order of 09 R165. -/
inductive EvacSetting where
  | none | on | off
deriving DecidableEq, Repr

/-- A booth line (09 R165). MODEL: `counted`, the pulse count of the coming house block has been taken (log 2). -/
structure BoothLine where
  commanded : Bool
  pulse : Nat
  setting : EvacSetting
  output : Bool
  counted : Bool
deriving DecidableEq, Repr

/-! ### Calibration Unit (10) -/

inductive Phase where
  | idle | wait | quiet | settle | measure
deriving DecidableEq, Repr

/-- The target of a tone or a measurement: one output, or the reference group (10 R171). -/
inductive Target where
  | output (o : Fin 192)
  | reference
deriving DecidableEq, Repr

/-- The measurement context (10 R172). -/
structure Context where
  phase : Phase
  screen : Option (Fin 12)
  target : Option Target
  station : Option (Fin 16)
  count : Nat
  micSum : Nat
  targetSum : Nat
  background : Option Nat
deriving DecidableEq, Repr

/-! ### Port Controller (11) -/

/-- The outcomes of an answer, in the order of their codes (11 R180). -/
inductive Reason where
  | done | role | held | state | range | noroom | nopower | busy | starting | evac | lane | unknown
deriving DecidableEq, Repr

/-- A field of an answer or a notice as 11 R180 sends it: `num` a number in so many bytes; `opt` a field whose value
may be none (presence byte, zeros for none); `cond` a field present under a condition (presence byte, nothing when
absent); `flags` a set of flags in two bytes. -/
inductive Field where
  | num (bytes : Nat) (v : Int)
  | opt (bytes : Nat) (v : Option Int)
  | cond (bytes : Nat) (v : Option Int)
  | flags (set : BitVec 16)
deriving DecidableEq, Repr

/-- An answer (11 R180, R182). -/
structure Answer where
  station : Fin 16
  tag : Byte
  kind : Nat
  outcome : Reason
  clamped : Bool
  fields : List Field
deriving DecidableEq, Repr

inductive ShowCause where
  | request | auto | takeover | fade | evac | release
deriving DecidableEq, Repr

inductive AlarmCause where
  | raise | clear | withdrawn
deriving DecidableEq, Repr

inductive HealthCause where
  | report | laneLost | laneFound | exclude | incl
deriving DecidableEq, Repr

inductive PowerCause where
  | supply | budget | settings | demand
deriving DecidableEq, Repr

inductive LaneCause where
  | lost | activity | found | good | bad | expired
deriving DecidableEq, Repr

/-- The source of a SITE notice with the states before and after (02 R41). -/
inductive SiteChange where
  | clock (state previous : Clock)
  | supply (state previous : Supply) (available : Nat)
  | evac (state previous : Bool)
deriving DecidableEq, Repr

inductive AbortCause where
  | abort | freed | evac | power | excluded | failed | lane
deriving DecidableEq, Repr

/-- The end of a measurement (10 R177). -/
inductive MeasureEnd where
  | ok (b m o spl : Nat) (sensitivity : Int)
  | noisy (b m o : Nat)
  | aborted (cause : AbortCause) (phase : Phase) (b : Option Nat)
deriving DecidableEq, Repr

/-- What a CUE notice reports (09 R168). -/
inductive CueChange where
  | fired (entry : Fin 512) (cue : Cue)
  | skipped (entry : Fin 512) (cue : Cue)
  | rearmed (old new count : Nat)
deriving DecidableEq, Repr

/-- A notice: one constructor for each kind of 11 R180, with the fields of the kind's own table. -/
inductive Notice where
  | showN (screen : Fin 12) (state previous : ShowState) (holder : Option (Fin 16)) (cause : ShowCause)
      (station : Option (Fin 16)) (refusal : Option Reason) (showMax : Option Nat)
  | alarm (screen : Fin 12) (kind : AlarmKind) (cause : AlarmCause) (state previous : AlarmState) (raises : Count)
      (lastShow : Option Nat) (detail : Option AlarmDetail) (attention : Bool)
  | cue (screen : Fin 12) (change : CueChange) (time : Option Nat)
  | health (output : Fin 192) (screen : Option (Fin 12)) (health previous : Health) (cause : HealthCause)
      (z16 : Option Nat) (station : Option (Fin 16))
  | power (screen : Fin 12) (status previous : GrantStatus) (grant : Nat) (supply : Supply) (available : Nat)
      (cause : PowerCause)
  | lane (lane : Fin 14) (state previous : Sync) (cause : LaneCause) (slips : Count)
  | site (change : SiteChange)
  | measure (screen : Fin 12) (target : Target) (result : MeasureEnd)
  | selftest (good bad : Nat)
deriving DecidableEq, Repr

/-- A frame in transmission (11 R182, R186): an answer, or a notice and whether it carries the gap mark. -/
inductive TxFrame where
  | answer (a : Answer)
  | notice (n : Notice) (gap : Bool)
deriving DecidableEq, Repr

/-- A request in a receive queue, and whether its answer has been formed (11 R182). -/
structure Queued where
  request : Instr
  answered : Bool
deriving DecidableEq, Repr

/-- What the Port Controller holds for one port (11). `gathered` is empty while the receiver hunts. -/
structure Port where
  gathered : List LineByte
  queue : List Queued
  answer : Option Answer
  tx : Option TxFrame
  kinds : BitVec 16
  screens : BitVec 16
  notices : List Notice
  gap : Bool
  badFrames : Count
  overruns : Count
  discarded : Count
  indications : Tab (Tab Bool 7) 12
deriving DecidableEq, Repr

/-- The return side word of a program lane (02 R43). -/
structure ReturnWord where
  state : ShowState
  attention : Bool
  status : GrantStatus
  level : Nat
  lastFired : Nat
  applied : Nat
  outOfService : Nat
deriving DecidableEq, Repr

/-! ### The whole part -/

/-- The state. MODEL: `blockClosed`, `intervalTaken` and `measureStepped` say which parts of the coming house block
have been taken (log 2), `blockPeriods` is the number of sample periods of the block in progress, 0 from a reset to the
first house block after it (log 25), `lateDraws` counts the draws of free source samples (log 36), and `pending` is the
queue of commands (log 1). -/
structure State where
  ports : Tab Port 4
  mark : Nat
  screens : Tab Screen 12
  stampCounter : Nat
  evac : Bool
  lanes : Tab Lane 14
  clock : Clock
  blockCount : Nat
  returnWords : Tab ReturnWord 12
  outputs : Tab Output 192
  layouts : Tab Layout 16
  routes : Tab Route 12
  pagingStep : Int
  attenuations : Tab Attenuation 12
  badPages : List Nat
  selftest : SelfTest
  meters : Tab Meter 12
  micRunning : Nat
  micEnergy : Nat
  alarms : Tab Alarms 12
  returnLanes : Tab ReturnLane 12
  budget : Budget
  grants : Tab Grant 12
  pool : Tab (Option Cue) 512
  cues : Tab CueScreen 12
  booth : Tab (Tab BoothLine 8) 12
  noise : BitVec 23
  blockPeriods : Nat
  lateDraws : Nat
  toneGain : Int
  context : Context
  micOffset : Int
  blockClosed : Bool
  intervalTaken : Bool
  measureStepped : Bool
  pending : List Instr
deriving DecidableEq, Repr

/-! ### Reset values -/

/-- 01 R1. -/
def ScreenConfig.reset : ScreenConfig :=
  { priority := 2, fullDraw := 0, reducedDraw := 0, shedAtt := 12, fadeRate := 50, lipSync := 0, permit := false,
    laneLevel := false, defaultLayout := 0 }

/-- 01 R1, R2. -/
def Screen.reset : Screen :=
  { config := ScreenConfig.reset, state := .offline, holder := none, stamp := 0, level := 80, fadeAtt := 0,
    rateInEffect := none, fadeCount := 0, lastLevel := 255, lastRolling := none, fadeTaken := false }

/-- 02 R47. -/
def Lane.reset : Lane :=
  { sync := .nosignal, alignment := none, good := none, bad := none, store := [], slips := 0, intervalSlips := 0,
    lastSlip := none, badBlocks := 0, skew := none, accepted := none, mask := 0 }

/-- 08 R150. -/
def Grant.reset : Grant := { status := .none, draw := 0, sheds := 0, suspends := 0, lastChange := none }

/-- The supply state of the two lines (08 R140). -/
def supplyOf (supply1 supply2 : Bool) : Supply :=
  match supply1, supply2 with
  | false, false => .mains
  | true, false => .generator
  | false, true => .battery
  | true, true => .batteryLow

/-- 08 R141, R150. -/
def Budget.reset (supply1 supply2 : Bool) : Budget :=
  { supply1, supply2, supply := supplyOf supply1 supply2, mains := 4000, generator := 2400, battery := 600,
    batteryLow := 200, reserve := 150 }

/-- Figures before the first house block (log 10). -/
def RoleFigures.reset : RoleFigures := { mapped := 0, inService := 0, service := .unmapped, comp := 0, outputs := [] }

def RouteFigures.reset : RouteFigures :=
  { layout := 0, source := .default, held := none, noLayout := false, roles := .fill 12 RoleFigures.reset,
    onRoute := false, pagingRoles := [] }

/-- 03 R56, R68. -/
def Route.reset : Route := { source := .default, held := none, figures := RouteFigures.reset }

/-- Layout record 0 after reset: L, R, C, LFE, LSS, RSS from slots 1 to 6 (03 R53), by role position. -/
def layoutZero : Tab Source 12 :=
  ⟨[.one 1 0, .one 3 0, .one 2 0, .none, .none, .one 4 0, .one 5 0, .one 6 0, .none, .none, .none, .none], rfl⟩

/-- The layout table after reset (03 R53). -/
def layoutsReset : Tab Layout 16 := (Tab.fill 16 none).set 0 (some layoutZero)

/-- Figures before the first house block (log 10), and 04 R83. -/
def GainFigures.reset : GainFigures :=
  { target := 0, part := .none, current := 0, fade := 0, applied := 0, level := 80, muted := 0 }

def Attenuation.reset : Attenuation := { current := 0, figures := GainFigures.reset }

/-- 05 R105. -/
def Meter.reset : Meter :=
  { blockSum := 0, blockLevel := 0, blockSpl := 0, intervalSum := 0, intervalLevel := 0, intervalSpl := 0, clips := 0,
    lastClips := 0, segmentSum := 0, segmentFill := 0, ring := [], windowSum := 0, windowLevel := 0, windowSpl := 0,
    showMax := 0, offset := 0 }

/-- 07 R139. -/
def HealthRecord.reset : HealthRecord :=
  { health := .unknown, settled := none, candidate := none, count := 0, lastZ := none, openFaults := 0,
    shortFaults := 0, lowFaults := 0, highFaults := 0, lastFault := none }

/-- 07 R129. -/
def Thresholds.reset : Thresholds := { shortMax := 24, lowDrift := 96, highDrift := 192, openMin := 960 }

/-- 07 R139. -/
def ReturnLane.reset : ReturnLane := { locked := false, run := 0, malformed := 0 }

def OutputFigures.reset : OutputFigures :=
  { kind := .silence, reason := some .unmapped, comp := 0, step := some 0, pilot := false }

/-- 03 R68, 04 R69, 05 R105, 07 R125, R139, 10 R178: an unmapped output is sent zeros from the reset on. -/
def Output.reset : Output :=
  { place := none, trim := 0, inverted := false, path := [], delay := 0, line := [], pages := [], running := 0,
    energy := 0, blockScreen := none, sense := HealthRecord.reset, thresholds := Thresholds.reset, driveOn := true,
    drive := List.replicate 48 0, late := [], figures := OutputFigures.reset, toneFlag := false, sensitivity := none }

/-- 06 R124. -/
def AlarmRecord.reset : AlarmRecord := { state := .clear, phase := 0, raises := 0, lastShow := none, detail := none }

/-- 06 R106. -/
def AlarmSettings.reset : AlarmSettings :=
  { peakLimit := 210, loudLimit := 170, silenceFloor := 60, silenceRun := 5, clipLimit := 48, raiseHold := 2,
    clearHold := 3, autoTrim := false, trimMax := 12 }

def Alarms.reset : Alarms :=
  { settings := AlarmSettings.reset, records := .fill 7 AlarmRecord.reset, silenceRun := 0, loudTrim := 0,
    attention := false }

/-- 09 R169. -/
def CueScreen.reset : CueScreen := { timeList := [], eventList := [], clock := none, lastCall := 0, lastFired := 0 }

/-- 09 R169: at a reset every evacuation setting is NONE, so the output value is the commanded OFF. -/
def BoothLine.reset : BoothLine :=
  { commanded := false, pulse := 0, setting := .none, output := false, counted := false }

/-- 10 R172. -/
def Context.reset : Context :=
  { phase := .idle, screen := none, target := none, station := none, count := 0, micSum := 0, targetSum := 0,
    background := none }

/-- 11 R188, R189. -/
def Port.reset : Port :=
  { gathered := [], queue := [], answer := none, tx := none, kinds := 0, screens := 0, notices := [], gap := false,
    badFrames := 0, overruns := 0, discarded := 0, indications := .fill 12 (.fill 7 false) }

def ReturnWord.reset : ReturnWord :=
  { state := .offline, attention := false, status := .none, level := 80, lastFired := 0, applied := 0,
    outOfService := 0 }

/-- The power-on reset with the site lines at the given levels (11 R189, and the reset rule of every chapter). -/
def State.powerOn (lines : SiteLines) : State :=
  { ports := .fill 4 Port.reset, mark := 0, screens := .fill 12 Screen.reset, stampCounter := 0, evac := lines.evac,
    lanes := .fill 14 Lane.reset, clock := .free, blockCount := 0, returnWords := .fill 12 ReturnWord.reset,
    outputs := .fill 192 Output.reset, layouts := layoutsReset, routes := .fill 12 Route.reset, pagingStep := 0,
    attenuations := .fill 12 Attenuation.reset, badPages := [],
    selftest := { running := true, blocks := 0, faults := [] }, meters := .fill 12 Meter.reset, micRunning := 0,
    micEnergy := 0, alarms := .fill 12 Alarms.reset, returnLanes := .fill 12 ReturnLane.reset,
    budget := Budget.reset lines.supply1 lines.supply2, grants := .fill 12 Grant.reset, pool := .fill 512 none,
    cues := .fill 12 CueScreen.reset, booth := .fill 12 (.fill 8 BoothLine.reset), noise := BitVec.allOnes 23,
    blockPeriods := 0, lateDraws := 0, toneGain := -20, context := Context.reset, micOffset := 0, blockClosed := false,
    intervalTaken := false, measureStepped := false, pending := [] }

/-- The part right after reset. The spec leaves the site lines to the building: here all three are inactive
(DESIGN CHOICE, log 9). POWER_ON_RESET takes their levels as an operand. -/
def State.reset : State := State.powerOn { evac := false, supply1 := false, supply2 := false }

end Sys2Proof.Machine
end

