-- ==== Sys2Proof/Machine/Arith.lean ====
section
/-! DEFINITION. The part's arithmetic: saturation and rounding (00), the gain factor (04 R78), the level function
(05 R93), the compensation step (03 R61), the CRC (02 R29) and the noise register (10 R170). -/

namespace Sys2Proof.Machine

/-- Saturation to the 24-bit sample range (00, "Samples, gains and levels"). -/
def sat24 (x : Int) : Int :=
  if 8388607 < x then 8388607 else if x < -8388608 then -8388608 else x

/-- Saturation changes the value. -/
def saturates (x : Int) : Bool := decide (8388607 < x) || decide (x < -8388608)

/-- round-half-up(x / 2^n), for n at least 1 (00, "Written conventions"). -/
def roundShift (x : Int) (n : Nat) : Int := (x + 2 ^ (n - 1)) / 2 ^ n

/-- clamp(x, lo, hi) (00, "Written conventions"). -/
def clampInt (lo hi x : Int) : Int := if x < lo then lo else if hi < x then hi else x

def clampNat (lo hi x : Nat) : Nat := if x < lo then lo else if hi < x then hi else x

/-- `n` does not exceed round-to-nearest(2^20 x 10^(g/40)): the 40th power of 2n - 1 is at most that of twice the
exact value (04 R78). -/
def gainFits (g : Int) (n : Nat) : Bool := decide ((2 * n - 1) ^ 40 * 10 ^ (-g).toNat ≤ 2 ^ 840 * 10 ^ g.toNat)

/-- The greatest number below `acc + 2^k` that `fits`, built from its highest bit down; `fits` holds downward. -/
def greatestFit (fits : Nat → Bool) : Nat → Nat → Nat
  | 0, acc => acc
  | k + 1, acc => greatestFit fits k (if fits (acc + 2 ^ k) then acc + 2 ^ k else acc)

/-- F(g) = round-to-nearest(2^20 x 10^(g/40)), exact halves rounded up, for steps -255 to 24 (04 R78). -/
def gainFactor (g : Int) : Nat := greatestFit (gainFits g) 22 0

/-- sat24's argument for a sample at a step: round-half-up(x x F(g) / 2^20) (03 R58, R65, 04 R77, 10 R170). -/
def scaled (x : Int) (factor : Nat) : Int := roundShift (x * factor) 20

/-- T(m) of the level function (05 R93). -/
def levelFraction (m : Nat) : Nat :=
  match m with
  | 0 => 0
  | 1 => 1
  | 2 => 2
  | 3 => 3
  | 4 => 4
  | 5 => 4
  | _ => 5

/-- lvl(v): 6k + T(m) + 1 for the highest set bit k and the three bits m below it; 0 for 0 (05 R93). -/
def lvl (v : Nat) : Nat :=
  if v = 0 then 0
  else
    let k := Nat.log2 v
    6 * k + levelFraction (v * 8 / 2 ^ k - 8) + 1

/-- An SPL code from a level and an offset (05 R98). -/
def splCode (level : Nat) (offset : Int) : Nat := (clampInt 0 255 (level + offset)).toNat

/-- min(12, round-to-nearest(20 log10(n / k))): the number of c from 1 to 12 with c - 1/2 at most 20 log10(n / k),
that is with 10^(2c-1) k^40 at most n^40 (03 R61). -/
def compStep (n k : Nat) : Nat :=
  ((List.range 12).filter fun c => decide (10 ^ (2 * c + 1) * k ^ 40 ≤ n ^ 40)).length

/-- (y >> 8)², the energy of a sample (05 R91). -/
def sampleEnergy (y : Int) : Nat := ((y / 256) * (y / 256)).toNat

def blockEnergy (ys : List Int) : Nat := (ys.map sampleEnergy).sum

/-- Pages a delay needs: ceil(d / 128) (04 R85). -/
def pagesFor (d : Nat) : Nat := (d + (Config.pageSamples - 1)) / Config.pageSamples

/-- One bit of the CRC of generator x^16 + x^12 + x^5 + 1 (02 R29). -/
def crcShift (r : BitVec 16) : BitVec 16 := if r.msb then (r <<< 1) ^^^ 0x1021#16 else r <<< 1

/-- One byte, most significant bit first (02 R29). -/
def crcByte (r : BitVec 16) (b : Byte) : BitVec 16 :=
  crcShift (crcShift (crcShift (crcShift (crcShift (crcShift (crcShift (crcShift (r ^^^ (b.setWidth 16 <<< 8))))))))) 

/-- The CRC register after the bytes, started at all ones and not inverted (02 R29). -/
def crc (bytes : List Byte) : BitVec 16 := bytes.foldl crcByte 0xFFFF#16

/-- The two bytes of a check, high byte first (02 R29, 11 R180). -/
def checkBytes (bytes : List Byte) : List Byte :=
  let r := crc bytes
  [(r >>> 8).setWidth 8, r.setWidth 8]

/-- The last two of the bytes are the check over the ones before (02 R29). -/
def checkHolds (bytes : List Byte) : Bool :=
  let body := bytes.take (bytes.length - 2)
  decide (bytes.length ≥ 2) && bytes.drop (bytes.length - 2) == checkBytes body

/-- An unsigned number, high byte first (11 R180). -/
def beNat (bytes : List Byte) : Nat := bytes.foldl (fun a b => a * 256 + b.toNat) 0

/-- A two's complement number, high byte first (11 R180). -/
def beInt (bytes : List Byte) : Int :=
  let v := beNat bytes
  if 2 * v < 256 ^ bytes.length then v else (v : Int) - 256 ^ bytes.length

/-- `n` bytes of a number, high byte first, two's complement when negative (11 R180). -/
def beBytes (n : Nat) (v : Int) : List Byte :=
  (List.range n).map fun i => BitVec.ofInt 8 (v / 256 ^ (n - 1 - i))

/-- One step of the noise register: the feedback bit s23 XOR s18, and every bit one place up (10 R170). -/
def noiseStep (r : BitVec 23) : Bool × BitVec 23 :=
  let fb := r.getLsbD 22 ^^ r.getLsbD 17
  (fb, (r <<< 1) ||| (if fb then 1#23 else 0#23))

/-- `n` steps, the first output bit the most significant of the result. -/
def noiseSteps : Nat → Nat → BitVec 23 → Nat × BitVec 23
  | 0, acc, r => (acc, r)
  | n + 1, acc, r =>
    let (fb, r') := noiseStep r
    noiseSteps n (2 * acc + fb.toNat) r'

/-- The noise sample of one sample period and the register after it (10 R170). -/
def noiseSample (r : BitVec 23) : Int × BitVec 23 :=
  let (v, r') := noiseSteps 24 0 r
  (if v < 2 ^ 23 then v else (v : Int) - 2 ^ 24, r')

/-- The noise samples of `n` sample periods and the register after them. -/
def noiseSamples : Nat → BitVec 23 → List Int × BitVec 23
  | 0, r => ([], r)
  | n + 1, r =>
    let (x, r') := noiseSample r
    let (xs, r'') := noiseSamples n r'
    (x :: xs, r'')

/-- A saturating count with the given top. -/
def addHold (top n k : Nat) : Nat := min top (n + k)

end Sys2Proof.Machine
end

