-- ==== Sys2Proof/Machine/Operands.lean ====
section
/-! DEFINITION. The operand forms of requests: identifiers, which are refused with RANGE when out of range; settings,
which are clamped; names, which are read by their position in the spec's lists; and stations with their roles and
rights (00, 11 R180, R183, R184). -/

namespace Sys2Proof.Machine

/-- The thing an identifier names, numbered from 1; none when it is out of range (00, "Counts, settings and
identifiers"). -/
def ident (count n : Nat) : Option (Fin count) :=
  if h : 0 < n ∧ n ≤ count then some ⟨n - 1, by omega⟩ else none

/-- The number of a thing numbered from 1. -/
def number {count : Nat} (i : Fin count) : Nat := i.val + 1

/-- The thing an identifier names, numbered from 0 (layout codes). -/
def ident0 (count n : Nat) : Option (Fin count) := if h : n < count then some ⟨n, h⟩ else none

/-- A setting: the value stored, and whether it was clamped (00). -/
structure Setting (α : Type) where
  value : α
  clamped : Bool
deriving DecidableEq, Repr

def settingNat (lo hi v : Nat) : Setting Nat := { value := clampNat lo hi v, clamped := decide (clampNat lo hi v ≠ v) }

def settingInt (lo hi v : Int) : Setting Int := { value := clampInt lo hi v, clamped := decide (clampInt lo hi v ≠ v) }

/-- A carried setting clamped into its range; one not carried keeps its value (01 R24). -/
def selectNat (lo hi : Nat) (carried : Option Nat) (kept : Nat) : Setting Nat :=
  match carried with
  | some v => settingNat lo hi v
  | none => { value := kept, clamped := false }

/-- A carried off/on setting: 0 off, 1 on; a code above is clamped to on (log 13). -/
def selectBool (carried : Option Nat) (kept : Bool) : Setting Bool :=
  match carried with
  | some v => { value := decide (v ≠ 0), clamped := decide (1 < v) }
  | none => { value := kept, clamped := false }

/-- The roles of stations (00, "Stations and roles"). -/
inductive StationRole where
  | management | booth | service
deriving DecidableEq, Repr

/-- 00: stations 0 and 1 MANAGEMENT, 2 to 13 BOOTH, 14 and 15 SERVICE. -/
def roleOf (station : Fin 16) : StationRole :=
  if station.val ≤ 1 then .management else if station.val ≤ 13 then .booth else .service

/-- The kinds a role may request, by their positions in the rights table (11 R184). -/
def rights : StationRole → List Nat
  | .management =>
    [1, 2, 3, 5, 6, 7, 8, 9, 10, 11, 12, 13, 14, 15, 16, 17, 18, 19, 20, 21, 22, 23, 24, 25, 26, 27, 28, 29, 30, 31,
     32, 33, 34, 35, 36, 37, 38, 39, 40, 41, 42, 47, 48, 49, 50, 51, 52]
  | .booth =>
    [3, 5, 6, 7, 8, 9, 10, 12, 14, 16, 18, 20, 22, 23, 24, 25, 27, 29, 33, 35, 36, 37, 38, 39, 40, 42, 47, 48, 49, 51]
  | .service =>
    [4, 5, 12, 14, 16, 18, 20, 21, 22, 23, 24, 25, 27, 29, 30, 31, 32, 33, 35, 39, 40, 42, 43, 44, 45, 46, 47, 48,
     49, 51]

/-- The rights check of 11 R184. -/
def allowed (kind : Nat) (station : Fin 16) : Bool := (rights (roleOf station)).contains kind

def isManagement (station : Fin 16) : Bool := decide (roleOf station = .management)

/-! ### Positions in the spec's lists (11 R180) -/

def ShowState.code : ShowState → Nat
  | .offline => 0 | .dark => 1 | .armed => 2 | .show => 3 | .paused => 4 | .ending => 5 | .calibrating => 6
  | .evacuated => 7

def Sync.code : Sync → Nat
  | .nosignal => 0 | .hunt => 1 | .probation => 2 | .locked => 3 | .flywheel => 4

/-- The position among the two kinds of slip; none has the presence byte 0 and is not counted (log 11). -/
def Slip.code : Slip → Nat
  | .underrun => 0 | .overrun => 1

def Clock.code : Clock → Nat
  | .locked => 0 | .free => 1

def Supply.code : Supply → Nat
  | .mains => 0 | .generator => 1 | .battery => 2 | .batteryLow => 3

/-- The position in NONE, FULL, SHED, SUSPENDED (02 R43, 08 R148). NONE there is one of the named values, and has no
presence byte (DESIGN CHOICE, log 40). -/
def GrantStatus.code : GrantStatus → Nat
  | .none => 0 | .full => 1 | .shed => 2 | .suspended => 3

/-- The position of a role, from 0. Its code is one more (03 R52). -/
def Role.ix : Role → Fin 12
  | .l => 0 | .c => 1 | .r => 2 | .lc => 3 | .rc => 4 | .lfe => 5 | .lss => 6 | .rss => 7 | .lrs => 8 | .rrs => 9
  | .lts => 10 | .rts => 11

def Role.all : List Role := [.l, .c, .r, .lc, .rc, .lfe, .lss, .rss, .lrs, .rrs, .lts, .rts]

/-- The role of a code 1 to 12 (03 R52). -/
def Role.ofCode (n : Nat) : Option Role := if n = 0 then none else Role.all[n - 1]?

def Role.code (r : Role) : Nat := r.ix.val + 1

/-- The position in the list of 03 R51, and not in the order of the cases of 03 R62 (DESIGN CHOICE, log 40). -/
def SourceKind.code : SourceKind → Nat
  | .silence => 0 | .program => 1 | .paging => 2 | .tone => 3

/-- The position of a reason in the order in which the list and the table of 03 R62 name them, the reasons that only
03 R63 and R65 name after those (DEDUCED, log 11). -/
def SilenceReason.code : SilenceReason → Nat
  | .unmapped => 0 | .outOfService => 1 | .noProgram => 2 | .paused => 3 | .noTone => 4 | .suspended => 5
  | .lane => 6 | .evacOther => 7

def LayoutSource.code : LayoutSource → Nat
  | .default => 0 | .lane => 1

def RoleService.code : RoleService → Nat
  | .unmapped => 0 | .inService => 1 | .out => 2

def BasePart.code? : BasePart → Option Nat
  | .none => Option.none | .shed => some 0 | .loud => some 1

/-- The position of a class in the field list of 07 R131 (GOOD, LOW, HIGH, OPEN, SHORT), where the values of a settled
class are listed, and not in the numbered list of 07 R129 (SHORT, OPEN, LOW, HIGH, GOOD), where a report is given its
class: 11 R180 does not say which of the two lists counts (DESIGN CHOICE, log 40). None has the presence byte 0 and is
not counted (DEDUCED, log 11). -/
def LineClass.code : LineClass → Nat
  | .good => 0 | .low => 1 | .high => 2 | .open => 3 | .short => 4

/-- The position of a class in the row of the last fault's own table, OPEN, SHORT, LOW, HIGH (07 R136), and in neither
list of `LineClass.code` (DESIGN CHOICE, log 40); GOOD is no fault. -/
def LineClass.faultCode : LineClass → Nat
  | .open => 0 | .short => 1 | .low => 2 | .high => 3 | .good => 4

def Health.code : Health → Nat
  | .unknown => 0 | .good => 1 | .suspect => 2 | .driftingLow => 3 | .driftingHigh => 4 | .failedOpen => 5
  | .failedShort => 6 | .excluded => 7 | .unsensed => 8

def AlarmKind.ix : AlarmKind → Fin 7
  | .peak => 0 | .loud => 1 | .silent => 2 | .clip => 3 | .lane => 4 | .speaker => 5 | .power => 6

def AlarmKind.all : List AlarmKind := [.peak, .loud, .silent, .clip, .lane, .speaker, .power]

/-- The position in the four states of 06 R113, in the ALARM notice too, whose own row names two (DESIGN CHOICE, log 40). -/
def AlarmState.code : AlarmState → Nat
  | .clear => 0 | .pending => 1 | .raised => 2 | .clearing => 3

def CueEvent.all : List CueEvent := [.start, .pause, .resume, .endBegin, .endDone]

def CueEvent.code : CueEvent → Nat
  | .start => 0 | .pause => 1 | .resume => 2 | .endBegin => 3 | .endDone => 4

def CueState.code : CueState → Nat
  | .armed => 0 | .fired => 1 | .skipped => 2

/-- The position in NONE, ON, OFF (09 R165). NONE there is one of the named values and has no presence byte, and OFF is 2
where an off and on field has 0 (DESIGN CHOICE, log 40). -/
def EvacSetting.code : EvacSetting → Nat
  | .none => 0 | .on => 1 | .off => 2

def EvacSetting.ofCode : Nat → Option EvacSetting
  | 0 => some .none
  | 1 => some .on
  | 2 => some .off
  | _ => Option.none

/-- The position in the five phases of 10 R172, in the MEASURE notice too, whose own row leaves IDLE out (DESIGN CHOICE,
log 40). -/
def Phase.code : Phase → Nat
  | .idle => 0 | .wait => 1 | .quiet => 2 | .settle => 3 | .measure => 4

def Reason.code : Reason → Nat
  | .done => 0 | .role => 1 | .held => 2 | .state => 3 | .range => 4 | .noroom => 5 | .nopower => 6 | .busy => 7
  | .starting => 8 | .evac => 9 | .lane => 10 | .unknown => 11

def ShowCause.code : ShowCause → Nat
  | .request => 0 | .auto => 1 | .takeover => 2 | .fade => 3 | .evac => 4 | .release => 5

def AlarmCause.code : AlarmCause → Nat
  | .raise => 0 | .clear => 1 | .withdrawn => 2

def HealthCause.code : HealthCause → Nat
  | .report => 0 | .laneLost => 1 | .laneFound => 2 | .exclude => 3 | .incl => 4

def PowerCause.code : PowerCause → Nat
  | .supply => 0 | .budget => 1 | .settings => 2 | .demand => 3

def LaneCause.code : LaneCause → Nat
  | .lost => 0 | .activity => 1 | .found => 2 | .good => 3 | .bad => 4 | .expired => 5

def AbortCause.code : AbortCause → Nat
  | .abort => 0 | .freed => 1 | .evac => 2 | .power => 3 | .excluded => 4 | .failed => 5 | .lane => 6

end Sys2Proof.Machine
end

