-- ==== Sys2Proof/Machine/Codec.lean ====
section
/-! DEFINITION. The layouts of 11 R180: side words, sense reports, notices and answers as fields and bytes, whole
frames, and the reading of a request's body. The widths and orders that R180 leaves to be worked out are in log 11
and 12, and the list that gives a value its code where several name it in log 40. -/

namespace Sys2Proof

/-! ### Auxiliary bits -/

/-- The byte of eight bits, the first the most significant (11 R180). -/
def byteOfBits (b7 b6 b5 b4 b3 b2 b1 b0 : Bool) : Byte :=
  BitVec.ofNat 8 (128 * b7.toNat + 64 * b6.toNat + 32 * b5.toNat + 16 * b4.toNat + 8 * b3.toNat + 4 * b2.toNat +
    2 * b1.toNat + b0.toNat)

/-- The bytes of the auxiliary bits in order of arrival: four frames to a byte, its most significant bit first
(02 R27, 11 R180). -/
def bytesOfAux : List (Bool × Bool) → List Byte
  | (b7, b6) :: (b5, b4) :: (b3, b2) :: (b1, b0) :: rest => byteOfBits b7 b6 b5 b4 b3 b2 b1 b0 :: bytesOfAux rest
  | _ => []

/-- Bytes as the auxiliary bits of frames, two bits to a frame (02 R27, 11 R180). -/
def auxOfBytes (bytes : List Byte) : List (Bool × Bool) :=
  bytes.flatMap fun b =>
    [(b.getLsbD 7, b.getLsbD 6), (b.getLsbD 5, b.getLsbD 4), (b.getLsbD 3, b.getLsbD 2), (b.getLsbD 1, b.getLsbD 0)]

/-- The side word of a block: the 12 bytes of its auxiliary bits (02 R27). -/
def LaneBlock.side (b : LaneBlock) : List Byte := bytesOfAux b.aux

/-! ### Bytes on a port's line -/

/-- The byte that a port's receiver reads: the eight data bits, the least significant first (11 R179). -/
def LineByte.val (x : LineByte) : Byte := x.bits.extractLsb' 1 8

/-- The stop bit is good (11 R179, R181; its level is log 39's). -/
def LineByte.stop (x : LineByte) : Bool := x.bits.getLsbD 9

/-- A byte as it is sent: its start bit, its data bits, the least significant first, and its stop bit (11 R179; the levels
are PRESUMED, log 39). -/
def sentByte (b : Byte) : LineByte := { bits := 1#1 ++ b ++ 0#1 }

end Sys2Proof

namespace Sys2Proof.Machine

/-! ### Side words and sense reports -/

/-- A block is good when its mark is 0xB4 and its check holds (02 R29). -/
def goodBlock (side : List Byte) : Bool :=
  side.length == 12 && side.head? == some 0xB4#8 && checkHolds side

def byteAt (bytes : List Byte) (i : Nat) : Nat := ((bytes[i]?).getD 0).toNat

/-- The fields of an inbound side word (11 R180). -/
def readSideWord (side : List Byte) : SideWord :=
  { mark := byteAt side 0, layout := byteAt side 1, flags := byteAt side 2, reel := byteAt side 3,
    time := byteAt side 4 * 65536 + byteAt side 5 * 256 + byteAt side 6, level := byteAt side 7,
    server := byteAt side 8, cueCall := byteAt side 9, check := byteAt side 10 * 256 + byteAt side 11 }

/-- Bit 0 of the flags (11 R180). -/
def SideWord.rolling (w : SideWord) : Bool := decide (w.flags % 2 = 1)

/-- The show time handed on, at most 2,073,599 (02 R28). -/
def SideWord.showTime (w : SideWord) : Nat := min w.time Config.maxShowTime

/-- A return side word with its check (02 R43, 11 R180). -/
def ReturnWord.bytes (w : ReturnWord) : List Byte :=
  let body : List Byte :=
    [0xB4#8, BitVec.ofNat 8 w.state.code, BitVec.ofNat 8 w.attention.toNat, BitVec.ofNat 8 w.status.code,
     BitVec.ofNat 8 w.level] ++ beBytes 2 w.lastFired ++
    [BitVec.ofNat 8 w.applied, BitVec.ofNat 8 w.outOfService, 0#8]
  body ++ checkBytes body

def silentAudio : Audio := List.replicate Config.blockSamples (List.replicate 16 0)

/-- The return block that carries a return side word: 48 frames whose audio slots all carry zero, with the word in
their auxiliary bits (02 R43). -/
def ReturnWord.block (w : ReturnWord) : LaneBlock := { frames := silentAudio, aux := auxOfBytes w.bytes }

/-- The return block sent on the return leg of a program lane (02 R43). -/
def State.returnBlock (s : State) (n : Fin 12) : LaneBlock := (s.returnWords.get n).block

/-- A sense report's fields (07 R127). -/
structure Report where
  channel : Fin 16
  volts : Nat
  amps : Nat
  valid : Bool
deriving DecidableEq, Repr

/-- The report of a return block, none when it is not well formed (07 R127). -/
def readReport (bytes : List Byte) : Option Report :=
  if bytes.length == 12 && checkHolds bytes then
    (ident 16 (byteAt bytes 0)).map fun c =>
      { channel := c, volts := beNat ((bytes.drop 1).take 2), amps := beNat ((bytes.drop 3).take 2),
        valid := decide (byteAt bytes 5 % 2 = 1) }
  else none

/-! ### Fields -/

/-- The bytes of a field (11 R180). -/
def Field.bytes : Field → List Byte
  | .num n v => beBytes n v
  | .opt n (some v) => 1#8 :: beBytes n v
  | .opt n none => 0#8 :: beBytes n 0
  | .cond n (some v) => 1#8 :: beBytes n v
  | .cond _ none => [0#8]
  | .flags s => beBytes 2 s.toNat

def fieldNat (n v : Nat) : Field := .num n v

def fieldBool (b : Bool) : Field := .num 1 b.toNat

def fieldOpt (n : Nat) (v : Option Nat) : Field := .opt n (v.map Int.ofNat)

def fieldCond (n : Nat) (v : Option Nat) : Field := .cond n (v.map Int.ofNat)

/-- Fields preceded by a presence byte, and absent with it (11 R180). -/
def condFields : Option (List Field) → List Field
  | some l => fieldNat 1 1 :: l
  | none => [fieldNat 1 0]

def stationField (h : Option (Fin 16)) : Option Nat := h.map fun s => s.val

/-- A list: its count and its items (11 R180). -/
def fieldList (countBytes : Nat) (items : List (List Field)) : List Field :=
  fieldNat countBytes items.length :: items.flatten

/-- A trigger: its form and the value that the form needs, with no presence byte (09 R152; DESIGN CHOICE, log 12). -/
def Trigger.fields : Trigger → List Field
  | .time t => [fieldNat 1 0, fieldNat 3 t]
  | .state e => [fieldNat 1 1, fieldNat 1 e.code]
  | .alarm k => [fieldNat 1 2, fieldNat 1 k.ix.val]
  | .call n => [fieldNat 1 3, fieldNat 1 n]

/-- An action: its form and the values that the form needs, with no presence bytes (09 R152; DESIGN CHOICE, log 12). -/
def Action.fields : Action → List Field
  | .lineOn l => [fieldNat 1 0, fieldNat 1 (number l)]
  | .lineOff l => [fieldNat 1 1, fieldNat 1 (number l)]
  | .linePulse l n => [fieldNat 1 2, fieldNat 1 (number l), fieldNat 2 n]
  | .houseLevel v => [fieldNat 1 3, fieldNat 1 v]
  | .noticeOnly => [fieldNat 1 4]

def labelFields (label : List Byte) : List Field := fieldList 1 (label.map fun b => [fieldNat 1 b.toNat])

/-- A cause detail (06 R114). The class of a SPEAKER detail is coded by its place in `OPEN or SHORT` there, OPEN 0 and
SHORT 1, where a settled class in HEALTH QUERY has its place in the field list of 07 R131; the grant status of a POWER
detail has its place among the four statuses, SHED 2 and SUSPENDED 3 (DESIGN CHOICE, log 40). -/
def AlarmDetail.fields : AlarmDetail → List Field
  | .spl c => [fieldNat 1 c]
  | .clips n => [fieldNat 2 n]
  | .lane s n l => [fieldNat 1 s.code, fieldNat 2 n, fieldOpt 1 (l.map Slip.code)]
  | .speaker o short => [fieldNat 1 (number o), fieldBool short]
  | .power s => [fieldNat 1 s.code]

/-! ### Notices -/

/-- The code of a notice's kind (11 R180). -/
def Notice.kind : Notice → Nat
  | .showN .. => 1 | .alarm .. => 2 | .cue .. => 3 | .health .. => 4 | .power .. => 5 | .lane .. => 6 | .site .. => 7
  | .measure .. => 8 | .selftest .. => 9

/-- The program lane's screen; PG and MS belong to none (02 R44). -/
def laneScreen (lane : Fin 14) : Option (Fin 12) := if h : lane.val < 12 then some ⟨lane.val, h⟩ else none

/-- The screen a notice names, if it names one (11 R185). -/
def Notice.screen : Notice → Option (Fin 12)
  | .showN n .. => some n
  | .alarm n .. => some n
  | .cue n .. => some n
  | .health _ n .. => n
  | .power n .. => some n
  | .lane l .. => laneScreen l
  | .site .. => none
  | .measure n .. => some n
  | .selftest .. => none

/-- The fields of a CUE notice after its screen (09 R168). The row `from, to` is sent as two fields with a presence byte
each, and the show time, which the table puts under no condition, as three bytes with no presence byte, zeros where the
cue clock is none (DESIGN CHOICE, log 12). -/
def CueChange.fields (change : CueChange) (time : Option Nat) : List Field :=
  let shared (entry : Fin 512) (c : Cue) : List Field :=
    fieldCond 2 (some (number entry)) :: condFields (some c.trigger.fields) ++ condFields (some c.action.fields) ++
      condFields (some (labelFields c.label)) ++
      [fieldNat 3 (time.getD 0), fieldCond 3 none, fieldCond 3 none, fieldCond 2 none]
  match change with
  | .fired e c => fieldNat 1 0 :: shared e c
  | .skipped e c => fieldNat 1 1 :: shared e c
  | .rearmed old new n =>
    [fieldNat 1 2, fieldCond 2 none, fieldCond 1 none, fieldCond 1 none, fieldCond 1 none, fieldNat 3 (time.getD 0),
     fieldCond 3 (some old), fieldCond 3 (some new), fieldCond 2 (some n)]

def SiteChange.fields : SiteChange → List Field
  | .clock s p => [fieldNat 1 0, fieldNat 1 s.code, fieldNat 1 p.code, fieldCond 2 none]
  | .supply s p a => [fieldNat 1 1, fieldNat 1 s.code, fieldNat 1 p.code, fieldCond 2 (some a)]
  | .evac s p => [fieldNat 1 2, fieldBool s, fieldBool p, fieldCond 2 none]

/-- The fields of a MEASURE notice after its target (10 R174, R175, R177). A row of its table that names two fields (M and O;
microphone SPL and sensitivity) is sent with a presence byte for each (DESIGN CHOICE, log 12). -/
def MeasureEnd.fields : MeasureEnd → List Field
  | .ok b m o spl x =>
    [fieldNat 1 0, fieldCond 1 none, fieldCond 1 none, fieldCond 1 (some b), fieldCond 1 (some m),
     fieldCond 1 (some o), fieldCond 1 (some spl), .cond 1 (some x)]
  | .noisy b m o =>
    [fieldNat 1 1, fieldCond 1 none, fieldCond 1 none, fieldCond 1 (some b), fieldCond 1 (some m),
     fieldCond 1 (some o), fieldCond 1 none, fieldCond 1 none]
  | .aborted c p b =>
    [fieldNat 1 2, fieldCond 1 (some c.code), fieldCond 1 (some p.code), fieldCond 1 b, fieldCond 1 none,
     fieldCond 1 none, fieldCond 1 none, fieldCond 1 none]

/-- A target: one output, or the mark REFERENCE (10 R171, 11 R180). -/
def Target.field : Target → Field
  | .output o => fieldOpt 1 (some (number o))
  | .reference => fieldOpt 1 none

/-- The fields of a notice in the order of its kind's table. The class that a HEALTH notice tells with a health (07 R137)
is in the health's name and has no byte of its own (DESIGN CHOICE, log 12). -/
def Notice.fields : Notice → List Field
  | .showN n st prev holder cause station refusal mx =>
    [fieldNat 1 (number n), fieldNat 1 st.code, fieldNat 1 prev.code, fieldOpt 1 (stationField holder),
     fieldNat 1 cause.code, fieldCond 1 (stationField station), fieldCond 1 (refusal.map Reason.code),
     fieldCond 1 mx]
  | .alarm n k c st prev raises t d att =>
    [fieldNat 1 (number n), fieldNat 1 k.ix.val, fieldNat 1 c.code, fieldNat 1 st.code, fieldNat 1 prev.code,
     fieldNat 1 raises.toNat, fieldOpt 3 t] ++ ((d.map AlarmDetail.fields).getD []) ++ [fieldBool att]
  | .cue n change t => fieldNat 1 (number n) :: change.fields t
  | .health o n st prev c z s =>
    [fieldNat 1 (number o), fieldOpt 1 (n.map number), fieldNat 1 st.code, fieldNat 1 prev.code, fieldNat 1 c.code,
     fieldCond 2 z, fieldCond 1 (stationField s)]
  | .power n st prev g s a c =>
    [fieldNat 1 (number n), fieldNat 1 st.code, fieldNat 1 prev.code, fieldNat 2 g, fieldNat 1 s.code, fieldNat 2 a,
     fieldNat 1 c.code]
  | .lane l st prev c slips =>
    [fieldNat 1 (number l), fieldNat 1 st.code, fieldNat 1 prev.code, fieldNat 1 c.code, fieldNat 1 slips.toNat]
  | .site change => change.fields
  | .measure n t e => fieldNat 1 (number n) :: t.field :: e.fields
  | .selftest g b => [fieldNat 2 g, fieldNat 2 b]

/-! ### Frames -/

/-- A whole frame of the given second byte, tag, kind and body (11 R180). A body of more than 247 bytes has no length
the frame can carry: its length byte is free (log 15). -/
def frame (second : Byte) (tag : Byte) (kind : Nat) (body : List Byte) : List Byte :=
  let length : Byte := if body.length ≤ 247 then BitVec.ofNat 8 (body.length + 3)
    else Config.oversizeLength body.length
  let checked := length :: second :: tag :: BitVec.ofNat 8 kind :: body
  0x7E#8 :: checked ++ checkBytes checked

/-- The bytes of a frame in transmission (11 R180). -/
def TxFrame.bytes : TxFrame → List Byte
  | .answer a =>
    frame (BitVec.ofNat 8 (16 + a.station.val)) a.tag a.kind
      (BitVec.ofNat 8 a.outcome.code :: BitVec.ofNat 8 a.clamped.toNat :: (a.fields.map Field.bytes).flatten)
  | .notice n gap =>
    frame 0x20#8 0#8 n.kind (BitVec.ofNat 8 gap.toNat :: (n.fields.map Field.bytes).flatten)

/-- What a port's transmit line carries for a frame, byte by byte (11 R179). -/
def TxFrame.line (f : TxFrame) : List LineByte := f.bytes.map sentByte

/-! ### Reading a request's body -/

/-- A reader of the front of a body. -/
abbrev Reader := StateT (List Byte) Option

def readBytes (n : Nat) : Reader (List Byte) := fun body =>
  if n ≤ body.length then some (body.take n, body.drop n) else none

def readNat (n : Nat) : Reader Nat := do return beNat (← readBytes n)

def readInt (n : Nat) : Reader Int := do return beInt (← readBytes n)

/-- A presence byte: 0 or 1, any other does not fit (11 R180). -/
def readPresence : Reader Bool := do
  match ← readNat 1 with
  | 0 => return false
  | 1 => return true
  | _ => fun _ => none

/-- A field that may be omitted (11 R180). -/
def readOpt {α : Type} (r : Reader α) : Reader (Option α) := do
  if ← readPresence then return some (← r) else return none

/-- A field whose value may be a mark; its bytes follow in either case (11 R180). After the mark R180 has them zeros; other
bytes there are read over, and the body fits all the same (DESIGN CHOICE, log 12). -/
def readMark {α : Type} (r : Reader α) : Reader (Option α) := do
  let present ← readPresence
  let v ← r
  return if present then some v else none

def readMany {α : Type} (r : Reader α) : Nat → Reader (List α)
  | 0 => return []
  | n + 1 => do
    let x ← r
    let xs ← readMany r n
    return x :: xs

/-- A list of at most 255 items (11 R180). -/
def readList {α : Type} (r : Reader α) : Reader (List α) := do readMany r (← readNat 1)

def readFlags : Reader (BitVec 16) := do return BitVec.ofNat 16 (← readNat 2)

def readScreenSel : Reader ScreenSel := do
  return { priority := ← readOpt (readNat 1), fullDraw := ← readOpt (readNat 2), reducedDraw := ← readOpt (readNat 2),
           shedAtt := ← readOpt (readNat 1), fadeRate := ← readOpt (readNat 1), lipSync := ← readOpt (readNat 2),
           permit := ← readOpt (readNat 1), laneLevel := ← readOpt (readNat 1),
           defaultLayout := ← readOpt (readNat 1) }

def readAlarmSel : Reader AlarmSel := do
  return { peakLimit := ← readOpt (readNat 1), loudLimit := ← readOpt (readNat 1),
           silenceFloor := ← readOpt (readNat 1), silenceRun := ← readOpt (readNat 1),
           clipLimit := ← readOpt (readNat 2), raiseHold := ← readOpt (readNat 1),
           clearHold := ← readOpt (readNat 1), autoTrim := ← readOpt (readNat 1), trimMax := ← readOpt (readNat 1) }

def readSenseSel : Reader SenseSel := do
  return { shortMax := ← readOpt (readNat 2), lowDrift := ← readOpt (readNat 2), highDrift := ← readOpt (readNat 2),
           openMin := ← readOpt (readNat 2) }

def readBudgetSel : Reader BudgetSel := do
  return { mains := ← readOpt (readNat 2), generator := ← readOpt (readNat 2), battery := ← readOpt (readNat 2),
           batteryLow := ← readOpt (readNat 2), reserve := ← readOpt (readNat 2) }

/-- A source of LAYOUT SET: role code, form, and the slots and steps the form needs (11 R180). A form that is none of the
three leaves no body that fits, so R183 check 3 refuses it with RANGE (DESIGN CHOICE, log 13). -/
def readRoleSource : Reader RoleSource := do
  let role ← readNat 1
  match ← readNat 1 with
  | 0 => return { role, source := .none }
  | 1 => return { role, source := .one (← readNat 1) (← readInt 1) }
  | 2 => return { role, source := .two (← readNat 1) (← readInt 1) (← readNat 1) (← readInt 1) }
  | _ => fun _ => none

def readSection : Reader Section := do
  return { b0 := ← readInt 3, b1 := ← readInt 3, b2 := ← readInt 3, a1 := ← readInt 3, a2 := ← readInt 3 }

/-- The trigger of a CUE ADD: its form and the value that the form needs, with no presence byte (DESIGN CHOICE, log 12).
Another form names no trigger, so the body does not fit and R183 check 3 refuses it with RANGE, ahead of the checks of
09 R154 on the screen and the holder (DESIGN CHOICE, log 13). -/
def readTrigger : Reader RawTrigger := do
  match ← readNat 1 with
  | 0 => return .time (← readNat 3)
  | 1 => return .state (← readNat 1)
  | 2 => return .alarm (← readNat 1)
  | 3 => return .call (← readNat 1)
  | _ => fun _ => none

/-- The action of a CUE ADD: its form and the values that the form needs, with no presence bytes (DESIGN CHOICE,
log 12). Another form is refused as another form of trigger is (DESIGN CHOICE, log 13). -/
def readAction : Reader RawAction := do
  match ← readNat 1 with
  | 0 => return .lineOn (← readNat 1)
  | 1 => return .lineOff (← readNat 1)
  | 2 => return .linePulse (← readNat 1) (← readNat 2)
  | 3 => return .houseLevel (← readNat 1)
  | 4 => return .noticeOnly
  | _ => fun _ => none

/-- The command of a LINE SET: its place in ON, OFF or PULSE (09 R167; DESIGN CHOICE, log 40), and with PULSE alone its
length, which has no presence byte (DESIGN CHOICE, log 12). Another code names no command, so the body does
not fit and R183 check 3 refuses it, ahead of the checks of 09 R167 (DESIGN CHOICE, log 13). -/
def readLineCommand : Reader LineCommand := do
  match ← readNat 1 with
  | 0 => return .on
  | 1 => return .off
  | 2 => return .pulse (← readNat 2)
  | _ => fun _ => none

/-- A request from a body: the reader must use every byte; a body that does not fit leaves the fields at zero and the
header says so (11 R183 check 3). -/
def fit {α : Type} (h : Header) (body : List Byte) (r : Reader α) (zero : α) (mk : Header → α → Instr) : Instr :=
  match r body with
  | some (a, []) => mk h a
  | _ => mk { h with fits := false } zero

/-- A request without fields: a body of one byte, not read (11 R180). -/
def fitEmpty (h : Header) (body : List Byte) (mk : Header → Instr) : Instr :=
  mk { h with fits := decide (body.length = 1) }

def ScreenSel.zero : ScreenSel := ⟨none, none, none, none, none, none, none, none, none⟩
def AlarmSel.zero : AlarmSel := ⟨none, none, none, none, none, none, none, none, none⟩
def SenseSel.zero : SenseSel := ⟨none, none, none, none⟩
def BudgetSel.zero : BudgetSel := ⟨none, none, none, none, none⟩

/-- The request that a frame carries: its kind is its position in the rights table (11 R180, R184), and the body holds
its fields in the order in which its rule names them. -/
def readRequest (h : Header) (kind : Nat) (body : List Byte) : Instr :=
  match kind with
  | 1 => fit h body (readNat 1) 0 .enable
  | 2 => fit h body (readNat 1) 0 .disable
  | 3 => fit h body (readNat 1) 0 .hold
  | 4 => fit h body (readNat 1) 0 .calibrate
  | 5 => fit h body (readNat 1) 0 .free
  | 6 => fit h body (readNat 1) 0 .start
  | 7 => fit h body (readNat 1) 0 .pause
  | 8 => fit h body (readNat 1) 0 .resume
  | 9 => fit h body (do return (← readNat 1, ← readOpt (readNat 1))) (0, none) fun h f => .endShow h f.1 f.2
  | 10 => fit h body (do return (← readNat 1, ← readNat 1)) (0, 0) fun h f => .level h f.1 f.2
  | 11 => fit h body (do return (← readNat 1, ← readScreenSel)) (0, ScreenSel.zero) fun h f => .screenSet h f.1 f.2
  | 12 => fit h body (readNat 1) 0 .screenQuery
  | 13 => fit h body (do return (← readNat 1, ← readFlags)) (0, 0) fun h f => .laneSet h f.1 f.2
  | 14 => fit h body (readNat 1) 0 .laneQuery
  | 15 => fit h body (do return (← readNat 1, ← readMark (do return (← readNat 1, ← readNat 1)))) (0, none)
      fun h f => .outputMap h f.1 f.2
  | 16 => fit h body (readNat 1) 0 .outputQuery
  | 17 => fit h body (do return (← readNat 1, ← readList readRoleSource)) (0, []) fun h f => .layoutSet h f.1 f.2
  | 18 => fit h body (readNat 1) 0 .layoutQuery
  | 19 => fit h body (readOpt (readInt 1)) none .pagingSet
  | 20 => fit h body (readNat 1) 0 .routeQuery
  | 21 => fit h body
      (do return (← readNat 1, ← readInt 1, ← readNat 1, ← readList readSection, ← readNat 2)) (0, 0, 0, [], 0)
      fun h f => .tuneLoad h f.1 f.2.1 f.2.2.1 f.2.2.2.1 f.2.2.2.2
  | 22 => fit h body (do return (← readNat 1, ← readInt 1)) (0, 0) fun h f => .trim h f.1 f.2
  | 23 => fit h body (do return (← readNat 1, ← readNat 1)) (0, 0) fun h f => .tuneQuery h f.1 f.2
  | 24 => fit h body (readNat 1) 0 .gainQuery
  | 25 => fit h body (readNat 2) 0 .storeQuery
  | 26 => fit h body (do return (← readNat 1, ← readOpt (readInt 1))) (0, none) fun h f => .offsetSet h f.1 f.2
  | 27 => fit h body (do return (← readNat 1, ← readOpt (readNat 1))) (0, none) fun h f => .levelQuery h f.1 f.2
  | 28 => fit h body (do return (← readNat 1, ← readAlarmSel)) (0, AlarmSel.zero) fun h f => .alarmSet h f.1 f.2
  | 29 => fit h body (readNat 1) 0 .alarmQuery
  | 30 => fit h body (do return (← readNat 1, ← readSenseSel)) (0, SenseSel.zero) fun h f => .senseSet h f.1 f.2
  | 31 => fit h body (readNat 1) 0 .exclude
  | 32 => fit h body (readNat 1) 0 .includeOutput
  | 33 => fit h body (readNat 1) 0 .healthQuery
  | 34 => fit h body readBudgetSel BudgetSel.zero .budgetSet
  | 35 => fitEmpty h body .powerQuery
  | 36 => fit h body
      (do return (← readNat 1, ← readTrigger, ← readAction, ← readNat 1, ← readList (do return BitVec.ofNat 8 (← readNat 1))))
      (0, .time 0, .noticeOnly, 0, []) fun h f => .cueAdd h f.1 f.2.1 f.2.2.1 f.2.2.2.1 f.2.2.2.2
  | 37 => fit h body (do return (← readNat 1, ← readNat 2)) (0, 0) fun h f => .cueRemove h f.1 f.2
  | 38 => fit h body (readNat 1) 0 .cueClear
  | 39 => fit h body (do return (← readNat 1, ← readNat 2)) (0, 0) fun h f => .cueQuery h f.1 f.2
  | 40 => fit h body (do return (← readNat 1, ← readNat 1, ← readLineCommand)) (0, 0, .off)
      fun h f => .lineSet h f.1 f.2.1 f.2.2
  | 41 => fit h body (do return (← readNat 1, ← readNat 1, ← readNat 1)) (0, 0, 0)
      fun h f => .lineEvacSet h f.1 f.2.1 f.2.2
  | 42 => fit h body (readNat 1) 0 .lineQuery
  | 43 => fit h body (do return (← readNat 1, ← readMark (readNat 1), ← readNat 1, ← readOpt (readInt 1)))
      (0, none, 0, none) fun h f => .tone h f.1 f.2.1 f.2.2.1 f.2.2.2
  | 44 => fit h body (do return (← readNat 1, ← readMark (readNat 1))) (0, none) fun h f => .measure h f.1 f.2
  | 45 => fit h body (readNat 1) 0 .abort
  | 46 => fit h body (readOpt (readInt 1)) none .micSet
  | 47 => fit h body (readOpt (readNat 1)) none .calibrationQuery
  | 48 => fit h body (do return (← readFlags, ← readFlags)) (0, 0) fun h f => .subscribe h f.1 f.2
  | 49 => fitEmpty h body .portStatus
  | 50 => fit h body (readNat 1) 0 .markSet
  | 51 => fitEmpty h body .markQuery
  | 52 => fitEmpty h body .restart
  | k => .unknownRequest h k

end Sys2Proof.Machine
end

