-- ==== Sys2Proof/Machine/Ops.lean ====
section
/-! DEFINITION. The named reads and writes of State, the queuing of notices (11 R185, R186), the transmitter (11 R182),
and the taking of a request, which every request command shares (11 R182, R183). -/

namespace Sys2Proof.Machine

/-! ### Reads and writes of the tables -/

def State.modScreen (s : State) (n : Fin 12) (f : Screen → Screen) : State :=
  { s with screens := s.screens.modify n f }

def State.modLane (s : State) (l : Fin 14) (f : Lane → Lane) : State := { s with lanes := s.lanes.modify l f }

def State.modOutput (s : State) (o : Fin 192) (f : Output → Output) : State :=
  { s with outputs := s.outputs.modify o f }

def State.modPort (s : State) (p : Fin 4) (f : Port → Port) : State := { s with ports := s.ports.modify p f }

def State.modMeter (s : State) (n : Fin 12) (f : Meter → Meter) : State := { s with meters := s.meters.modify n f }

def State.modAlarms (s : State) (n : Fin 12) (f : Alarms → Alarms) : State := { s with alarms := s.alarms.modify n f }

def State.modRoute (s : State) (n : Fin 12) (f : Route → Route) : State := { s with routes := s.routes.modify n f }

def State.modAttenuation (s : State) (n : Fin 12) (f : Attenuation → Attenuation) : State :=
  { s with attenuations := s.attenuations.modify n f }

def State.modGrant (s : State) (n : Fin 12) (f : Grant → Grant) : State := { s with grants := s.grants.modify n f }

def State.modCues (s : State) (n : Fin 12) (f : CueScreen → CueScreen) : State := { s with cues := s.cues.modify n f }

def State.modReturnLane (s : State) (l : Fin 12) (f : ReturnLane → ReturnLane) : State :=
  { s with returnLanes := s.returnLanes.modify l f }

/-- A step made for each screen in ascending order of screen number. -/
def overScreens (f : Fin 12 → State → State) (s : State) : State :=
  (List.finRange 12).foldl (fun t n => f n t) s

/-- A step made for each thing of a list in its order. -/
def overList {α : Type} (f : α → State → State) (l : List α) (s : State) : State := l.foldl (fun t x => f x t) s

/-! ### Lanes of the part (00, "Numbering") -/

/-- Lane Pn belongs to screen n. -/
def programLane (n : Fin 12) : Fin 14 := ⟨n.val, by omega⟩

def pagingLane : Fin 14 := 12

def measurementLane : Fin 14 := 13

/-- The accepted side word of lane Pn (02 R35). -/
def State.word (s : State) (n : Fin 12) : Option SideWord := (s.lanes.get (programLane n)).accepted

/-- The show time of lane Pn's accepted side word as the Cue Engine receives it (06 R107, 09 R158). -/
def State.showTime (s : State) (n : Fin 12) : Option Nat := (s.word n).map SideWord.showTime

/-! ### Notices and the transmitter -/

/-- A request is in hand and its answer is not yet formed (11 R182). -/
def Port.awaiting (p : Port) : Bool :=
  match p.queue with
  | [] => false
  | q :: _ => !q.answered

/-- An idle transmitter begins the waiting answer, or else, unless it waits for an answer, the oldest notice, which
carries the gap mark (11 R182, R186). -/
def Port.pump (p : Port) : Port :=
  match p.tx, p.answer with
  | some _, _ => p
  | none, some a => { p with answer := none, tx := some (.answer a) }
  | none, none =>
    if p.awaiting then p
    else
      match p.notices with
      | [] => p
      | n :: rest => { p with notices := rest, tx := some (.notice n p.gap), gap := false }

/-- The port's masks let the notice through (11 R185). -/
def Port.admits (p : Port) (n : Notice) : Bool :=
  p.kinds.getLsbD (n.kind - 1) &&
    match n.screen with
    | some k => p.screens.getLsbD k.val
    | none => true

/-- A notice joins the queue; a full queue first loses its oldest, counts it and sets the gap mark (11 R186). -/
def Port.push (p : Port) (n : Notice) : Port :=
  if Config.noticeLimit ≤ p.notices.length then
    { p with notices := p.notices.drop 1 ++ [n], discarded := p.discarded + 1, gap := true }
  else { p with notices := p.notices ++ [n] }

/-- A notice handed to one port (11 R185). An idle transmitter begins it at once (log 5). -/
def Port.offer (n : Notice) (p : Port) : Port := if p.admits n then (p.push n).pump else p

/-- A block hands the Port Controller a notice (11 R185). -/
def State.notify (s : State) (n : Notice) : State := { s with ports := s.ports.map (Port.offer n) }

/-- The SHOW notice of a screen whose state was `previous` (01 R26). -/
def State.notifyShow (s : State) (n : Fin 12) (previous : ShowState) (cause : ShowCause)
    (station : Option (Fin 16) := none) (refusal : Option Reason := none) (showMax : Option Nat := none) : State :=
  let c := s.screens.get n
  s.notify (.showN n c.state previous c.holder cause station refusal showMax)

/-! ### Requests -/

/-- What a request's own rule comes to: a refusal, which changes no state (11 R183), or the state with its effects, the
CLAMPED flag and the fields of the answer. -/
inductive Result where
  | refuse (why : Reason)
  | accept (s : State) (clamped : Bool) (fields : List Field)

/-- An acceptance answered DONE with no flag and no field. -/
def Result.ok (s : State) : Result := .accept s false []

/-- The port can take this request now: nothing is in hand, or the request in hand is this one and is not yet
answered (11 R182, log 4). -/
def Port.canTake (p : Port) (i : Instr) : Bool :=
  match p.queue with
  | [] => true
  | q :: _ => !q.answered && decide (q.request = i)

/-- The request is in hand: it is put in an empty queue, and stands at the head of any other (11 R182). -/
def Port.hold (i : Instr) (p : Port) : Port :=
  match p.queue with
  | [] => { p with queue := [{ request := i, answered := false }] }
  | _ :: _ => p

/-- A request completes its frame: it joins the queue, or is discarded and counted when the queue holds 4
(11 R182). -/
def Port.receive (i : Instr) (p : Port) : Port :=
  if p.queue.length < Config.receiveLimit then { p with queue := p.queue ++ [{ request := i, answered := false }] }
  else { p with overruns := p.overruns + 1 }

/-- The request in hand is marked answered. -/
def Port.markAnswered (p : Port) : Port :=
  match p.queue with
  | [] => p
  | q :: rest => { p with queue := { q with answered := true } :: rest }

/-- The answer of the request in hand is formed, and an idle transmitter begins it (11 R182). -/
def Port.answerWith (a : Answer) (p : Port) : Port := { p.markAnswered with answer := some a }.pump

/-- The checks that come before a request's own: the rights of the station's role, then the fit of the body
(11 R183). -/
def checked (kind : Nat) (h : Header) (act : State → Result) (s : State) : Result :=
  if !allowed kind h.station then .refuse .role
  else if !h.fits then .refuse .range
  else act s

/-- The answer to a result (11 R180, R183). -/
def Result.answer (r : Result) (h : Header) (kind : Nat) : Answer :=
  match r with
  | .refuse why => { station := h.station, tag := h.tag, kind, outcome := why, clamped := false, fields := [] }
  | .accept _ c f => { station := h.station, tag := h.tag, kind, outcome := .done, clamped := c, fields := f }

/-- The state a result leaves, given the state before it. -/
def Result.state (r : Result) (s : State) : State :=
  match r with
  | .refuse _ => s
  | .accept t _ _ => t

/-- The effects of a result and its answer (11 R182). -/
def finish (h : Header) (kind : Nat) (r : Result) (s : State) : State :=
  (r.state s).modPort h.port (Port.answerWith (r.answer h kind))

/-- The Port Controller takes a request of the given kind: its checks, the owner's effects, then its answer. A request
that is not the one in hand waits in the receive queue instead (11 R182, R183, log 4). -/
def takeRequest (i : Instr) (h : Header) (kind : Nat) (act : State → Result) (s : State) :
    Host.Outcome State Fault Refusal :=
  if (s.ports.get h.port).canTake i then
    let held := s.modPort h.port (Port.hold i)
    .next (finish h kind (checked kind h act held) held)
  else .next (s.modPort h.port (Port.receive i))

/-- A request on a screen: a number outside 1 to 12 is refused with RANGE (01 R4). -/
def onScreen (screen : Nat) (act : Fin 12 → State → Result) (s : State) : Result :=
  match ident 12 screen with
  | none => .refuse .range
  | some n => act n s

/-- A request on an output: a number outside 1 to 192 is refused with RANGE. -/
def onOutput (output : Nat) (act : Fin 192 → State → Result) (s : State) : Result :=
  match ident 192 output with
  | none => .refuse .range
  | some o => act o s

/-- The station holds the screen (01 R3). -/
def State.holds (s : State) (n : Fin 12) (station : Fin 16) : Bool := decide ((s.screens.get n).holder = some station)

/-- The station holds the screen or is MANAGEMENT (01 R4). -/
def State.mayCommand (s : State) (n : Fin 12) (station : Fin 16) : Bool := s.holds n station || isManagement station

end Sys2Proof.Machine
end

