-- ==== Sys2Proof/Machine/Flags.lean ====
section
/-! DEFINITION. Facts that the rules read off the state: whether a lane delivers, an output is in service, a screen
demands draw; which outputs are a screen's; the available draw; the value a booth line shows; the page counts. -/

namespace Sys2Proof.Machine

/-- A lane is delivering while LOCKED or FLYWHEEL (02, "The sync machine"). -/
def Lane.delivering (l : Lane) : Bool :=
  match l.sync with
  | .locked => true
  | .flywheel => true
  | .nosignal => false
  | .hunt => false
  | .probation => false

/-- Out of service is FAILED or EXCLUDED (03 R59). -/
def Health.inService : Health → Bool
  | .failedOpen => false
  | .failedShort => false
  | .excluded => false
  | _ => true

/-- FAILED, of either class (06 R111). -/
def Health.failed : Health → Bool
  | .failedOpen => true
  | .failedShort => true
  | _ => false

def Output.inService (o : Output) : Bool := o.sense.health.inService

def Output.screen (o : Output) : Option (Fin 12) := o.place.map Prod.fst

def Output.role (o : Output) : Option Role := o.place.map Prod.snd

/-- The outputs mapped to a screen, in ascending order (03 R48). -/
def State.outputsOf (s : State) (n : Fin 12) : List (Fin 192) :=
  (List.finRange 192).filter fun o => decide ((s.outputs.get o).screen = some n)

/-- The outputs of a screen with one role (03 R59). -/
def State.outputsIn (s : State) (n : Fin 12) (r : Role) : List (Fin 192) :=
  (List.finRange 192).filter fun o => decide ((s.outputs.get o).place = some (n, r))

/-- The role is L, C or R (03 R52). -/
def Role.reference : Role → Bool
  | .l => true
  | .c => true
  | .r => true
  | _ => false

/-- The reference group of a screen (03 R52). -/
def State.referenceGroup (s : State) (n : Fin 12) : List (Fin 192) :=
  (s.outputsOf n).filter fun o => ((s.outputs.get o).role.map Role.reference).getD false

/-- The outputs a target names on a screen (10 R171). -/
def State.targetOutputs (s : State) (n : Fin 12) : Target → List (Fin 192)
  | .output o => [o]
  | .reference => s.referenceGroup n

/-- The figures of one role of a screen as they stand (03 R59, R61). -/
def State.roleFigures (s : State) (n : Fin 12) (r : Role) : RoleFigures :=
  let outs := s.outputsIn n r
  let k := (outs.filter fun o => (s.outputs.get o).inService).length
  { mapped := outs.length, inService := k,
    service := if outs.length = 0 then .unmapped else if k = 0 then .out else .inService,
    comp := if 0 < k && k < outs.length then compStep outs.length k else 0,
    outputs := outs }

/-- The tuning delay plus the lip-sync offset of the output's screen, if it has one (03 R50). -/
def State.effectiveDelay (s : State) (o : Fin 192) : Nat :=
  let x := s.outputs.get o
  match x.screen with
  | some n => x.delay + (s.screens.get n).config.lipSync
  | none => x.delay

/-! ### Power -/

/-- The bank of a supply state (08 R141). -/
def Budget.bank (b : Budget) : Supply → Nat
  | .mains => b.mains
  | .generator => b.generator
  | .battery => b.battery
  | .batteryLow => b.batteryLow

/-- A, the available draw: max(0, bank - reserve) (08 R141). -/
def Budget.available (b : Budget) : Nat := b.bank b.supply - b.reserve

/-- A demander (08 R143). -/
def ShowState.demands : ShowState → Bool
  | .show => true
  | .paused => true
  | .ending => true
  | .calibrating => true
  | .offline => false
  | .dark => false
  | .armed => false
  | .evacuated => false

/-- SHOW, PAUSED or ENDING (01 R22). -/
def ShowState.playing : ShowState → Bool
  | .show => true
  | .paused => true
  | .ending => true
  | _ => false

/-! ### Booth lines -/

/-- The value a line shows (09 R166). -/
def BoothLine.shown (evac : Bool) (l : BoothLine) : Bool :=
  match evac, l.setting with
  | true, .on => true
  | true, .off => false
  | _, _ => l.commanded

/-- The output value formed again (09 R166). -/
def BoothLine.form (evac : Bool) (l : BoothLine) : BoothLine := { l with output := l.shown evac }

/-! ### Pages of the delay store -/

inductive PageState where
  | free | inUse | bad
deriving DecidableEq, Repr

/-- Every page in some output's list. -/
def State.usedPages (s : State) : List Nat := (s.outputs.items.map Output.pages).flatten

/-- The state of a page (04 R85). -/
def State.pageState (s : State) (p : Nat) : PageState :=
  if s.badPages.contains p then .bad else if s.usedPages.contains p then .inUse else .free

/-- The pages in one state, in ascending order. -/
def State.pagesIn (s : State) (st : PageState) : List Nat :=
  let used := s.usedPages
  (List.range Config.pageCount).filter fun p =>
    (if s.badPages.contains p then PageState.bad else if used.contains p then .inUse else .free) == st

def State.freePages (s : State) : List Nat := s.pagesIn .free

/-! ### Alarms -/

/-- RAISED or CLEARING (06 R119). -/
def AlarmState.alerting : AlarmState → Bool
  | .raised => true
  | .clearing => true
  | .clear => false
  | .pending => false

/-- The attention flag of seven records (06 R119). -/
def attentionOf (records : Tab AlarmRecord 7) : Bool := records.items.any fun r => r.state.alerting

end Sys2Proof.Machine
end

