-- ==== Sys2Proof/Machine/Calibration.lean ====
section
/-! DEFINITION. Shared operations of the Calibration Unit: tone flags, aborts and the end of a measurement
(10 R171 to R175). -/

namespace Sys2Proof.Machine

/-- The tone flags of every output of a screen are cleared (10 R171). -/
def clearTones (n : Fin 12) (s : State) : State :=
  { s with outputs := s.outputs.map fun o => if o.screen = some n then { o with toneFlag := false } else o }

/-- The tone flag of some outputs is set or cleared (10 R171). -/
def setTones (outs : List (Fin 192)) (on : Bool) (s : State) : State :=
  { s with outputs := s.outputs.update fun o x => if outs.contains o then { x with toneFlag := on } else x }

/-- A measurement is in flight (10 R172). -/
def Context.inFlight (c : Context) : Bool := decide (c.phase ≠ .idle)

/-- The measurement in flight is on this screen. -/
def Context.onScreen (c : Context) (n : Fin 12) : Bool := c.inFlight && decide (c.screen = some n)

/-- The measurement in flight, if any, is aborted (10 R175). -/
def abortMeasurement (cause : AbortCause) (s : State) : State :=
  let c := s.context
  match c.inFlight, c.screen, c.target with
  | true, some n, some t =>
    ({ clearTones n s with context := Context.reset }).notify (.measure n t (.aborted cause c.phase c.background))
  | _, _, _ => s

/-- The measurement in flight is aborted when it is on this screen. -/
def abortOn (n : Fin 12) (cause : AbortCause) (s : State) : State :=
  if s.context.onScreen n then abortMeasurement cause s else s

/-- An output entered FAILED or EXCLUDED: a measurement whose target holds it is aborted (10 R175). -/
def abortTarget (o : Fin 192) (cause : AbortCause) (s : State) : State :=
  match s.context.screen, s.context.target with
  | some n, some t => if s.context.inFlight && (s.targetOutputs n t).contains o then abortMeasurement cause s else s
  | _, _ => s

/-- The grant status of a CALIBRATING screen became SUSPENDED: its tone stops and its measurement is aborted
(08 R147, 10 R171). -/
def suspendCalibration (n : Fin 12) (s : State) : State := clearTones n (abortOn n .power s)

/-- The count of interval events at which a phase ends (10 R173). -/
def Phase.length : Phase → Nat
  | .idle => 0
  | .wait => 1
  | .quiet => 2
  | .settle => 1
  | .measure => 4

/-- The sums of the phase take the energies of the block that closes (10 R173). -/
def addMeasured (s : State) : State :=
  let c := s.context
  match c.phase, c.screen, c.target with
  | .quiet, _, _ => { s with context := { c with micSum := c.micSum + s.micEnergy } }
  | .measure, some n, some t =>
    { s with context :=
        { c with
          micSum := c.micSum + s.micEnergy,
          targetSum := c.targetSum + ((s.targetOutputs n t).map fun o => (s.outputs.get o).energy).sum } }
  | _, _, _ => s

/-- The next interval event ends the phase (10 R173). -/
def Context.ends (c : Context) : Bool := c.inFlight && decide (c.phase.length ≤ c.count + 1)

/-- A phase other than MEASURE ends: WAIT to QUIET; QUIET to SETTLE, with B formed and the tone flags of the target
set; SETTLE to MEASURE (10 R173). -/
def endPhase (s : State) : State :=
  let c := s.context
  match c.phase with
  | .wait => { s with context := { c with phase := .quiet, count := 0 } }
  | .quiet =>
    let t := { s with context :=
      { c with phase := .settle, count := 0, micSum := 0, background := some (lvl c.micSum - 66) } }
    match c.screen, c.target with
    | some n, some g => setTones (s.targetOutputs n g) true t
    | _, _ => t
  | .settle => { s with context := { c with phase := .measure, count := 0 } }
  | .measure => s
  | .idle => s

/-- The sensitivity of a completed measurement is stored (10 R174). -/
def storeSensitivity (n : Fin 12) (t : Target) (x : Int) (s : State) : State :=
  match t with
  | .reference => s.modMeter n fun m => { m with offset := x }
  | .output o => s.modOutput o fun y => { y with sensitivity := some x }

/-- The end of MEASURE: the result, its storing and its notice (10 R174). -/
def endMeasurement (s : State) : State :=
  let c := s.context
  match c.screen, c.target with
  | some n, some t =>
    let m := lvl c.micSum - 72
    let o := lvl c.targetSum - 72
    let b := c.background.getD 0
    let spl := (clampInt 0 255 (m + s.micOffset)).toNat
    let x := clampInt (-128) 127 ((spl : Int) - o)
    let idle := { clearTones n s with context := Context.reset }
    if m < b + 20 then idle.notify (.measure n t (.noisy b m o))
    else (storeSensitivity n t x idle).notify (.measure n t (.ok b m o spl x))
  | _, _ => { s with context := Context.reset }

/-- The context steps at an interval event (10 R173). -/
def stepMeasurement (s : State) : State :=
  let c := s.context
  if !c.inFlight then s
  else if !c.ends then { s with context := { c with count := c.count + 1 } }
  else
    match c.phase with
    | .measure => endMeasurement s
    | _ => endPhase s

end Sys2Proof.Machine
end

