-- ==== Sys2Proof/Machine/Power.lean ====
section
/-! DEFINITION. The Power Manager: demand and rank (08 R143), the grant computation (08 R144), recompute (08 R145,
R148), and the start stamps that rank screens (01 R11). -/

namespace Sys2Proof.Machine

/-- What one demander asks for, and what ranks it (08 R143). -/
structure Demand where
  screen : Fin 12
  priority : Nat
  stamp : Nat
  full : Nat
  reduced : Nat
deriving DecidableEq, Repr

/-- A CALIBRATING screen demands its reduced draw as both (08 R143). -/
def Screen.demand (n : Fin 12) (c : Screen) : Option Demand :=
  if c.state.demands then
    some
      { screen := n, priority := c.config.priority, stamp := c.stamp,
        full := if c.state = .calibrating then c.config.reducedDraw else c.config.fullDraw,
        reduced := c.config.reducedDraw }
  else none

/-- Priority first, then the smaller stamp (08 R143). -/
def Demand.before (a b : Demand) : Bool :=
  a.priority < b.priority || (a.priority == b.priority && a.stamp ≤ b.stamp)

def rankInsert (d : Demand) : List Demand → List Demand
  | [] => [d]
  | e :: rest => if d.before e then d :: e :: rest else e :: rankInsert d rest

/-- The demanders in rank order (08 R143). -/
def State.ranked (s : State) : List Demand :=
  ((List.finRange 12).filterMap fun n => (s.screens.get n).demand n).foldr rankInsert []

/-- Pass 1: the demanders granted their reduced draw; the first that does not fit cuts off every later one
(08 R144). -/
def passOne (available : Nat) : Nat → List Demand → List Demand
  | _, [] => []
  | total, d :: rest =>
    if total + d.reduced ≤ available then d :: passOne available (total + d.reduced) rest else []

/-- Pass 2: each granted demander with whether it is raised to its full draw (08 R144). -/
def passTwo : Nat → List Demand → List (Demand × Bool)
  | _, [] => []
  | r, d :: rest =>
    if d.full - d.reduced ≤ r then (d, true) :: passTwo (r - (d.full - d.reduced)) rest else (d, false) :: passTwo r rest

/-- The status and grant of one screen after the computation (08 R144). -/
structure Allotment where
  status : GrantStatus
  draw : Nat
deriving DecidableEq, Repr

def allotGranted (x : Demand × Bool) : Allotment :=
  if x.2 then { status := .full, draw := x.1.full } else { status := .shed, draw := x.1.reduced }

/-- The granted demanders of a rank, with their draws (08 R144). -/
def grantedOf (available : Nat) (ranked : List Demand) : List (Demand × Bool) :=
  let first := passOne available 0 ranked
  passTwo (available - (first.map Demand.reduced).sum) first

/-- The result of the computation for each screen (08 R144). -/
def State.allot (s : State) : Tab Allotment 12 :=
  let granted := grantedOf s.budget.available s.ranked
  Tab.ofFn fun n =>
    match granted.find? fun x => x.1.screen == n with
    | some x => allotGranted x
    | none => { status := if (s.screens.get n).state.demands then .suspended else .none, draw := 0 }

/-- The grant record of a screen taking its new allotment (08 R148). -/
def Grant.take (b : Budget) (a : Allotment) (g : Grant) : Grant :=
  let changed := decide (g.status ≠ a.status)
  let entry := changed && (decide (a.status = .shed) || decide (a.status = .suspended))
  { status := a.status, draw := a.draw,
    sheds := if changed && decide (a.status = .shed) then g.sheds + 1 else g.sheds,
    suspends := if changed && decide (a.status = .suspended) then g.suspends + 1 else g.suspends,
    lastChange :=
      if entry then some { status := a.status, supply := b.supply, available := b.available } else g.lastChange }

/-- One screen takes its allotment, with a POWER notice when its status changes (08 R148). -/
def applyAllotment (cause : PowerCause) (allot : Tab Allotment 12) (n : Fin 12) (s : State) : State :=
  let old := s.grants.get n
  let a := allot.get n
  let t := s.modGrant n (Grant.take s.budget a)
  if old.status = a.status then t
  else t.notify (.power n a.status old.status a.draw s.budget.supply s.budget.available cause)

/-- A CALIBRATING screen newly SUSPENDED is handed to the Calibration Unit (08 R147). -/
def handSuspension (before : Tab Grant 12) (n : Fin 12) (s : State) : State :=
  if (s.screens.get n).state = .calibrating ∧ (s.grants.get n).status = .suspended ∧
      (before.get n).status ≠ .suspended then suspendCalibration n s
  else s

/-- A recompute: every screen takes its allotment in ascending order, then newly suspended calibrations are handed on
(08 R144, R147, R148). So every POWER notice goes before the MEASURE notice of an abort (DESIGN CHOICE, log 6). -/
def recompute (cause : PowerCause) (s : State) : State :=
  overScreens (handSuspension s.grants) (overScreens (applyAllotment cause s.allot) s)

/-! ### Start stamps (01 R11) -/

/-- The stamps held, other than 0, that are smaller than a given one. -/
def State.stampsBelow (s : State) (x : Nat) : Nat :=
  ((List.finRange 12).filter fun n => decide ((s.screens.get n).stamp ≠ 0 ∧ (s.screens.get n).stamp < x)).length

/-- The screens that hold a stamp take 1, 2 and so on in ascending order of their stamps, and the counter takes their
number (01 R11). -/
def renumber (s : State) : State :=
  { s with
    screens := s.screens.map fun c => if c.stamp = 0 then c else { c with stamp := s.stampsBelow c.stamp + 1 }
    stampCounter := ((List.finRange 12).filter fun n => decide ((s.screens.get n).stamp ≠ 0)).length }

/-- The screen takes the next start stamp; a counter at its end is renumbered first (01 R11). -/
def takeStamp (n : Fin 12) (s : State) : State :=
  let t := if s.stampCounter = Config.maxStamp then renumber s else s
  ({ t with stampCounter := t.stampCounter + 1 }).modScreen n fun c => { c with stamp := t.stampCounter + 1 }

/-! ### Admission (08 R146) -/

/-- The screen as it would enter demand: with the stamp it would take, its new state and its holder (08 R146). -/
def candidate (n : Fin 12) (state : ShowState) (holder : Option (Fin 16)) (s : State) : State :=
  (takeStamp n s).modScreen n fun c => { c with state, holder }

/-- The screen enters demand: none when it would be SUSPENDED, and then nothing has changed; otherwise the candidate
state with the grants of the admission (08 R146). -/
def enterDemand (n : Fin 12) (state : ShowState) (holder : Option (Fin 16)) (s : State) : Option State :=
  let t := candidate n state holder s
  if (t.allot.get n).status = .suspended then none else some (recompute .demand t)

end Sys2Proof.Machine
end

