-- ==== Sys2Proof/Machine/Cues.lean ====
section
/-! DEFINITION. The Cue Engine and the Booth Line Driver: line commands (09 R165), actions (09 R164), firing and
skipping (09 R159, R160), time processing (09 R161), start processing (09 R162) and event triggers (09 R163). -/

namespace Sys2Proof.Machine

/-! ### Booth lines -/

def State.line (s : State) (n : Fin 12) (l : Fin 8) : BoothLine := (s.booth.get n).get l

/-- A line changes and its output value is formed again (09 R166). -/
def State.modLine (s : State) (n : Fin 12) (l : Fin 8) (f : BoothLine → BoothLine) : State :=
  { s with booth := s.booth.modify n fun t => t.modify l fun x => (f x).form s.evac }

/-- ON, OFF and PULSE (09 R165): the commanded value and the pulse remaining, of which no house block has been counted. -/
def BoothLine.command (value : Bool) (pulse : Nat) (l : BoothLine) : BoothLine :=
  { l with commanded := value, pulse, counted := false }

/-- The pulse of a line ends: the commanded value becomes OFF (09 R165). -/
def BoothLine.endPulse (l : BoothLine) : BoothLine := { l with commanded := false, pulse := 0 }

/-- One house block of a line: a pulse remaining falls by one, and at 0 the line is commanded OFF (09 R165). A count
already taken for this house block is not taken again (log 2). -/
def BoothLine.tick (l : BoothLine) : BoothLine :=
  if l.counted then { l with counted := false }
  else if l.pulse = 0 then l
  else if l.pulse = 1 then l.endPulse
  else { l with pulse := l.pulse - 1 }

/-- Every line's output value is formed again (09 R166). -/
def formLines (s : State) : State := { s with booth := s.booth.map fun t => t.map (BoothLine.form s.evac) }

/-! ### Firing -/

/-- The action of a fired entry (09 R164). -/
def perform (n : Fin 12) (a : Action) (s : State) : State :=
  match a with
  | .lineOn l => s.modLine n l (BoothLine.command true 0)
  | .lineOff l => s.modLine n l (BoothLine.command false 0)
  | .linePulse l length => s.modLine n l (BoothLine.command true length)
  | .houseLevel v =>
    s.modScreen n fun c => if c.state = .show then { c with level := min v 100 } else c
  | .noticeOnly => s

def Trigger.isTime : Trigger → Bool
  | .time _ => true
  | _ => false

/-- A pool entry is rewritten. -/
def State.setCue (s : State) (e : Fin 512) (c : Cue) : State := { s with pool := s.pool.set e (some c) }

/-- A TIME entry becomes FIRED; an event entry keeps no state (09 R159). -/
def Cue.afterFiring (c : Cue) : Cue := if c.trigger.isTime then { c with state := some .fired } else c

/-- An entry fires, unless EVAC is active (09 R159). -/
def fire (e : Fin 512) (s : State) : State :=
  match s.evac, s.pool.get e with
  | false, some c =>
    let t := ((perform c.screen c.action s).setCue e c.afterFiring).modCues c.screen
      fun x => { x with lastFired := number e }
    t.notify (.cue c.screen (.fired e c.afterFiring) (t.cues.get c.screen).clock)
  | _, _ => s

/-- An ARMED TIME entry is skipped (09 R160). -/
def skip (e : Fin 512) (s : State) : State :=
  match s.pool.get e with
  | some c =>
    let c' := { c with state := some .skipped }
    (s.setCue e c').notify (.cue c.screen (.skipped e c') (s.cues.get c.screen).clock)
  | none => s

/-- The show time of a TIME entry and its record. -/
def State.timeEntry (s : State) (e : Fin 512) : Option (Nat × Cue) :=
  match s.pool.get e with
  | some c =>
    match c.trigger with
    | .time t => some (t, c)
    | _ => none
  | none => none

/-- One entry of a normal advance or a forward jump: an ARMED entry above `low` and at or below `time` fires, or, in a
jump and without chase, is skipped (09 R161). -/
def advanceEntry (jump : Bool) (low : Option Nat) (time : Nat) (e : Fin 512) (s : State) : State :=
  match s.timeEntry e with
  | some (t, c) =>
    if c.state = some .armed ∧ (low.map fun x => decide (x < t)).getD true = true ∧ t ≤ time then
      if jump && !c.chase then skip e s else fire e s
    else s
  | none => s

/-- A FIRED or SKIPPED entry above the time, which a backward jump re-arms (09 R161). -/
def State.rearms (s : State) (time : Nat) (e : Fin 512) : Bool :=
  match s.timeEntry e with
  | some (t, c) => decide (time < t) && (decide (c.state = some .fired) || decide (c.state = some .skipped))
  | none => false

/-- An entry becomes ARMED with no notice of its own (09 R160). -/
def rearm (e : Fin 512) (s : State) : State :=
  match s.pool.get e with
  | some c => s.setCue e { c with state := some .armed }
  | none => s

/-- A chase entry at or below the time fires again in a backward jump (09 R161). -/
def chaseEntry (time : Nat) (e : Fin 512) (s : State) : State :=
  match s.timeEntry e with
  | some (t, c) => if c.chase && decide (t ≤ time) then fire e s else s
  | none => s

def setClock (n : Fin 12) (time : Nat) (s : State) : State := s.modCues n fun x => { x with clock := some time }

/-- Time processing of a word's show time on a SHOW screen (09 R161). -/
def processTime (n : Fin 12) (time : Nat) (s : State) : State :=
  let list := (s.cues.get n).timeList
  match (s.cues.get n).clock with
  | none => setClock n time s
  | some clock =>
    let t := setClock n time s
    if time < clock then
      let back := list.filter (s.rearms time)
      overList (chaseEntry time) list
        ((overList rearm back t).notify (.cue n (.rearmed clock time back.length) (some time)))
    else overList (advanceEntry (decide (clock + 2 < time)) (some clock) time) list t

/-! ### Event triggers -/

def State.triggered (s : State) (n : Fin 12) (trigger : Trigger) : List (Fin 512) :=
  (s.cues.get n).eventList.filter fun e => decide ((s.pool.get e).map Cue.trigger = some trigger)

/-- The STATE entries of a transition fire in list order (09 R163). -/
def fireState (n : Fin 12) (event : CueEvent) (s : State) : State := overList fire (s.triggered n (.state event)) s

/-- A raise offered by the Alarm Monitor (09 R163). -/
def fireAlarm (n : Fin 12) (k : AlarmKind) (s : State) : State :=
  if (s.screens.get n).state = .show then overList fire (s.triggered n (.alarm k)) s else s

/-- The Cue Engine takes an accepted word (09 R158). -/
def takeWord (n : Fin 12) (w : SideWord) (s : State) : State :=
  let t :=
    if (s.screens.get n).state = .show then
      let u := processTime n w.showTime s
      if w.cueCall ≠ (s.cues.get n).lastCall ∧ w.cueCall ≠ 0 then overList fire (u.triggered n (.call w.cueCall)) u
      else u
    else s
  t.modCues n fun x => { x with lastCall := w.cueCall }

/-- The start processing of a show (09 R162). A start always finds an accepted word; with none, only the STATE START
entries fire (log 26). -/
def startCues (n : Fin 12) (s : State) : State :=
  let list := (s.cues.get n).timeList
  let t := overList rearm list s
  match s.word n with
  | some w =>
    let u := t.modCues n fun x => { x with clock := some w.showTime, lastCall := w.cueCall }
    fireState n .start (overList (advanceEntry true none w.showTime) list u)
  | none => fireState n .start t

/-! ### The lists -/

/-- An entry joins the time list after every entry of the same or an earlier time (09 R153). -/
def placeByTime (s : State) (t : Nat) (e : Fin 512) : List (Fin 512) → List (Fin 512)
  | [] => [e]
  | x :: rest =>
    if ((s.timeEntry x).map fun y => decide (y.1 ≤ t)).getD false then x :: placeByTime s t e rest else e :: x :: rest

/-- The free entries of the pool, in ascending order (09 R151). -/
def State.freeCues (s : State) : List (Fin 512) := (List.finRange 512).filter fun e => (s.pool.get e).isNone

/-- An entry leaves the lists of its screen and returns to the free set (09 R155). -/
def freeCue (n : Fin 12) (e : Fin 512) (s : State) : State :=
  { s.modCues n (fun x =>
      { x with timeList := x.timeList.filter (· ≠ e), eventList := x.eventList.filter (· ≠ e) }) with
    pool := s.pool.set e none }

end Sys2Proof.Machine
end

