-- ==== Sys2Proof/Machine/Alarms.lean ====
section
/-! DEFINITION. The Alarm Monitor: the seven conditions (06 R107 to R112), the alarm state machine (06 R113 to R115),
withdrawal (06 R116), the preparation for a show (06 R117), the loud trim (06 R118) and attention (06 R119). -/

namespace Sys2Proof.Machine

/-- The figures one screen's judgement is made on, gathered at the interval event (06 R107). -/
structure Gathered where
  state : ShowState
  rolling : Bool
  time : Option Nat
  intervalSpl : Nat
  windowSpl : Nat
  clips : Nat
  sync : Sync
  slips : Nat
  lastSlip : Option Slip
  failed : Option (Fin 192 × Bool)
  status : GrantStatus
deriving DecidableEq, Repr

/-- The lowest-numbered FAILED output of a screen, and whether its class is SHORT (06 R111, R114). -/
def State.failedOutput (s : State) (n : Fin 12) : Option (Fin 192 × Bool) :=
  ((s.outputsOf n).find? fun o => (s.outputs.get o).sense.health.failed).map fun o =>
    (o, decide ((s.outputs.get o).sense.health = .failedShort))

/-- The figures of a screen, with the interval slips that its lane hands over (02 R38, 06 R107). -/
def State.gather (s : State) (slips : Fin 14 → Nat) (n : Fin 12) : Gathered :=
  let lane := s.lanes.get (programLane n)
  let meter := s.meters.get n
  { state := (s.screens.get n).state, rolling := decide ((s.screens.get n).lastRolling = some true),
    time := s.showTime n, intervalSpl := meter.intervalSpl, windowSpl := meter.windowSpl, clips := meter.lastClips,
    sync := lane.sync, slips := slips (programLane n), lastSlip := lane.lastSlip, failed := s.failedOutput n,
    status := (s.grants.get n).status }

/-- The silence run counter stepped (06 R109). -/
def silenceStep (g : Gathered) (c : AlarmSettings) (run : Nat) : Nat :=
  if g.state = .show ∧ g.sync = .locked ∧ g.rolling = true ∧ g.intervalSpl < c.silenceFloor then addHold 60 run 1 else 0

/-- LANE's condition apart from the show state (06 R110). -/
def Gathered.laneFault (g : Gathered) : Bool :=
  match g.sync with
  | .locked => decide (2 ≤ g.slips)
  | .flywheel => decide (2 ≤ g.slips)
  | .nosignal => true
  | .hunt => true
  | .probation => true

/-- The condition of a kind (06 R107 to R112); `run` is the silence run counter after its step. -/
def condition (g : Gathered) (c : AlarmSettings) (run : Nat) : AlarmKind → Bool
  | .peak => decide (g.state = .show) && decide (c.peakLimit < g.intervalSpl)
  | .loud => decide (g.state = .show) && decide (c.loudLimit < g.windowSpl)
  | .silent => decide (g.state = .show) && decide (c.silenceRun ≤ run)
  | .clip => decide (g.state = .show) && decide (c.clipLimit < g.clips)
  | .lane =>
    (match g.state with
      | .show => true
      | .paused => true
      | .armed => true
      | _ => false) && g.laneFault
  | .speaker =>
    (match g.state with
      | .armed => true
      | .show => true
      | .paused => true
      | .ending => true
      | .evacuated => true
      | _ => false) && g.failed.isSome
  | .power => g.state.playing && (decide (g.status = .shed) || decide (g.status = .suspended))

/-- The cause detail of a raise (06 R114). -/
def detailOf (g : Gathered) : AlarmKind → Option AlarmDetail
  | .peak => some (.spl g.intervalSpl)
  | .loud => some (.spl g.windowSpl)
  | .silent => some (.spl g.intervalSpl)
  | .clip => some (.clips g.clips)
  | .lane => some (.lane g.sync g.slips g.lastSlip)
  | .speaker => g.failed.map fun f => .speaker f.1 f.2
  | .power => some (.power g.status)

/-- What a step of a record announces (06 R113). -/
inductive AlarmEvent where
  | none | raise | clear
deriving DecidableEq, Repr

/-- The state machine of one record: state, phase count and what is announced (06 R113). -/
def alarmStep (raiseHold clearHold : Nat) (cond : Bool) (state : AlarmState) (phase : Nat) :
    AlarmState × Nat × AlarmEvent :=
  match state, cond with
  | .clear, true => if raiseHold = 0 then (.raised, 0, .raise) else (.pending, 0, .none)
  | .clear, false => (.clear, phase, .none)
  | .pending, true => if raiseHold ≤ phase + 1 then (.raised, 0, .raise) else (.pending, phase + 1, .none)
  | .pending, false => (.clear, 0, .none)
  | .raised, true => (.raised, phase, .none)
  | .raised, false => (.clearing, 0, .none)
  | .clearing, true => (.raised, 0, .none)
  | .clearing, false => if clearHold ≤ phase + 1 then (.clear, 0, .clear) else (.clearing, phase + 1, .none)

/-- A record after its step; a raise counts, and takes the show time and the cause detail (06 R113, R114). -/
def AlarmRecord.step (g : Gathered) (c : AlarmSettings) (run : Nat) (k : AlarmKind) (r : AlarmRecord) : AlarmRecord :=
  let x := alarmStep c.raiseHold c.clearHold (condition g c run k) r.state r.phase
  if x.2.2 = .raise then
    { state := x.1, phase := x.2.1, raises := r.raises + 1, lastShow := g.time, detail := detailOf g k }
  else { r with state := x.1, phase := x.2.1 }

def AlarmRecord.event (g : Gathered) (c : AlarmSettings) (run : Nat) (k : AlarmKind) (r : AlarmRecord) : AlarmEvent :=
  (alarmStep c.raiseHold c.clearHold (condition g c run k) r.state r.phase).2.2

/-- The loud trim rises by one step (06 R118). -/
def trimStep (g : Gathered) (c : AlarmSettings) (loud : AlarmState) (trim : Nat) : Nat :=
  if loud = .raised ∧ c.autoTrim = true ∧ c.loudLimit < g.windowSpl ∧ trim < c.trimMax then trim + 1 else trim

def AlarmKind.ofIx (i : Fin 7) : AlarmKind := AlarmKind.all.getD i.val .power

/-- The seven records, the loud trim and attention after a screen's judgement (06 R107). -/
def Alarms.judge (g : Gathered) (a : Alarms) : Alarms :=
  let run := silenceStep g a.settings a.silenceRun
  let records := a.records.update fun i r => r.step g a.settings run (AlarmKind.ofIx i)
  { settings := a.settings, records, silenceRun := run,
    loudTrim := trimStep g a.settings (records.get AlarmKind.loud.ix).state a.loudTrim,
    attention := attentionOf records }

/-- The kind joins the screen's indication set on every port (06 R120). -/
def indicate (n : Fin 12) (k : AlarmKind) (s : State) : State :=
  { s with ports := s.ports.map fun p => { p with indications := p.indications.modify n fun t => t.set k.ix true } }

/-- The ALARM notice of a record as it stands (06 R123). -/
def State.notifyAlarm (s : State) (n : Fin 12) (k : AlarmKind) (cause : AlarmCause) (previous : AlarmState) : State :=
  let a := s.alarms.get n
  let r := a.records.get k.ix
  s.notify (.alarm n k cause r.state previous r.raises r.lastShow r.detail a.attention)

/-- What one kind's step announces: a raise joins the indication sets, sends its notice and is offered to the Cue
Engine; a clear sends its notice (06 R114, R115). The ALARM notice goes before the CUE notices (DESIGN CHOICE, log 6). -/
def announce (n : Fin 12) (before : Alarms) (g : Gathered) (k : AlarmKind) (s : State) : State :=
  let r := before.records.get k.ix
  let run := silenceStep g before.settings before.silenceRun
  match r.event g before.settings run k with
  | .none => s
  | .raise => fireAlarm n k ((indicate n k s).notifyAlarm n k .raise r.state)
  | .clear => s.notifyAlarm n k .clear r.state

/-- The judgement of one screen at an interval event (06 R107). -/
def judgeScreen (slips : Fin 14 → Nat) (n : Fin 12) (s : State) : State :=
  let g := s.gather slips n
  let before := s.alarms.get n
  overList (announce n before g) AlarmKind.all (s.modAlarms n (Alarms.judge g))

/-- A record withdrawn: CLEAR with phase count 0 (06 R116). -/
def AlarmRecord.withdraw (r : AlarmRecord) : AlarmRecord := { r with state := .clear, phase := 0 }

/-- The notice of one withdrawn record (06 R116). -/
def announceWithdrawal (n : Fin 12) (before : Alarms) (k : AlarmKind) (s : State) : State :=
  let r := before.records.get k.ix
  if r.state.alerting then s.notifyAlarm n k .withdrawn r.state else s

/-- The alarms of a screen that enters DARK, OFFLINE or CALIBRATING are withdrawn, and its loud trim returns to 0
(06 R116, R118). -/
def withdrawAlarms (n : Fin 12) (s : State) : State :=
  let before := s.alarms.get n
  overList (announceWithdrawal n before) AlarmKind.all
    (s.modAlarms n fun a =>
      { a with records := a.records.map AlarmRecord.withdraw, silenceRun := 0, loudTrim := 0, attention := false })

/-- The screen's alarms are prepared for a show (06 R117). -/
def prepareAlarms (n : Fin 12) (s : State) : State :=
  s.modAlarms n fun a =>
    { a with records := a.records.map fun r => { r with phase := 0 }, silenceRun := 0, loudTrim := 0 }

def clearLoudTrim (n : Fin 12) (s : State) : State := s.modAlarms n fun a => { a with loudTrim := 0 }

end Sys2Proof.Machine
end

