-- ==== Sys2Proof/Machine/Meter.lean ====
section
/-! DEFINITION. The Level Meter: the close of a block (05 R91 to R94), the close of an interval (05 R95 to R101), the
clip count (05 R101) and the clearing at a start (05 R103). -/

namespace Sys2Proof.Machine

/-- Clips counted for a screen; the count holds at 65,535 (05 R101). -/
def Meter.addClips (k : Nat) (m : Meter) : Meter := { m with clips := addHold 65535 m.clips k }

/-- The block sum of a screen: the energies of the outputs mapped to it when the block began (05 R94). -/
def State.blockSum (s : State) (n : Fin 12) : Nat :=
  ((s.outputs.items.filter fun o => decide (o.blockScreen = some n)).map Output.energy).sum

/-- A screen's block figures at the close (05 R94). -/
def Meter.closeBlock (sum : Nat) (m : Meter) : Meter :=
  { m with
    blockSum := sum
    blockLevel := lvl sum
    blockSpl := splCode (lvl sum) m.offset
    intervalSum := m.intervalSum + sum }

/-- The running energy becomes the block energy (05 R91). -/
def Output.closeEnergy (o : Output) : Output := { o with energy := o.running, running := 0 }

/-- The block closes: the running energies become block energies, each screen's sum is formed, and the Calibration
Unit takes its sums (05 R91, R92, R94, 10 R173). -/
def closeBlock (s : State) : State :=
  let t :=
    { s with
      outputs := s.outputs.map Output.closeEnergy
      micEnergy := s.micRunning
      micRunning := 0 }
  addMeasured { t with meters := t.meters.update fun n m => m.closeBlock (t.blockSum n) }

/-- The segment takes a closed interval sum in SHOW (05 R96, R97). -/
def Meter.addSegment (m : Meter) : Meter :=
  if m.segmentFill + 1 < 32 then
    { m with segmentSum := m.segmentSum + m.intervalSum, segmentFill := m.segmentFill + 1 }
  else
    let kept := if 16 ≤ m.ring.length then m.ring.drop 1 else m.ring
    { m with segmentSum := 0, segmentFill := 0, ring := kept ++ [m.segmentSum + m.intervalSum] }

/-- The states in which the show maximum is raised (05 R100). -/
def raisesMax (state : ShowState) : Bool := state.playing

/-- A screen's interval closes (05 R95 to R101). -/
def Meter.closeInterval (state : ShowState) (m : Meter) : Meter :=
  let level := lvl m.intervalSum - 60
  let spl := splCode level m.offset
  let seg := if state = .show then m.addSegment else m
  let window := seg.ring.sum
  let windowLevel := lvl window - 114
  { seg with
    intervalLevel := level, intervalSpl := spl, windowSum := window, windowLevel,
    windowSpl := splCode windowLevel m.offset,
    showMax := if raisesMax state then max m.showMax spl else m.showMax,
    lastClips := m.clips, clips := 0, intervalSum := 0 }

/-- Every screen's interval closes (05 R95). -/
def closeIntervals (s : State) : State :=
  { s with meters := s.meters.update fun n m => m.closeInterval (s.screens.get n).state }

/-- The clearing at a successful start (05 R103). -/
def Meter.clearForShow (m : Meter) : Meter :=
  { m with segmentSum := 0, segmentFill := 0, ring := [], windowSum := 0, windowLevel := 0, windowSpl := 0, showMax := 0 }

/-- The meter fields a DISABLE returns to 0; the offset is kept (05 R105). -/
def Meter.disable (m : Meter) : Meter := { Meter.reset with offset := m.offset }

end Sys2Proof.Machine
end

