-- ==== Sys2Proof/Machine/Audio.lean ====
section
/-! DEFINITION. One block of sound: the reads of the elastic stores (02 R36), the role feeds, folds and compensation
(03 R58 to R61), source selection (03 R62 to R65), the applied attenuation (04 R82, R83), each output's path
(04 R73 to R81), the pilot and the drive (07 R125, R126), and the return side words (02 R43). The 48 samples of a block
are run as one step at its house block (log 3). -/

namespace Sys2Proof.Machine

/-! ### Elastic stores -/

/-- A slip is counted (02 R38). -/
def Lane.slip (kind : Slip) (l : Lane) : Lane :=
  { l with slips := l.slips + 1, intervalSlips := addHold 4095 l.intervalSlips 1, lastSlip := some kind }

/-- The read of a house block: the block handed on and the lane after it (02 R36). -/
def Lane.read (l : Lane) : Audio × Lane :=
  if l.delivering then
    match l.store with
    | b :: rest => (b, { l with store := rest })
    | [] => (silentAudio, l.slip .underrun)
  else (silentAudio, l)

/-- The lane after the read of a house block (02 R36). -/
def Lane.afterRead (l : Lane) : Lane := l.read.2

/-- A masked slot reads as zero in every frame (02 R36, R45). -/
def applyMask (mask : BitVec 16) (a : Audio) : Audio :=
  a.map fun f => f.mapIdx fun i x => if mask.getLsbD i then 0 else x

/-- The samples of slot i, 1 to 16, of a block. -/
def slot (a : Audio) (i : Nat) : List Int := a.map fun f => f.getD (i - 1) 0

/-- What a lane hands on at a house block: its block through the slot mask (02 R36). -/
def Lane.handed (l : Lane) : Audio := applyMask l.mask l.read.1

/-! ### Role feeds -/

/-- The exact feed of a source before saturation (03 R58). -/
def sourceFeed (src : Source) (a : Audio) : List Int :=
  match src with
  | .none => a.map fun _ => 0
  | .one i g =>
    let f := gainFactor g
    (slot a i).map fun x => scaled x f
  | .two i gi j gj =>
    let fi := gainFactor gi
    let fj := gainFactor gj
    List.zipWith (fun x y => roundShift (x * fi + y * fj) 20) (slot a i) (slot a j)

/-- Samples that saturation changes, each one clip. -/
def clipsOf (xs : List Int) : Nat := (xs.filter saturates).length

/-- The fold targets of a role and their steps (03 R60). -/
def foldTargets : Role → List (Role × Int)
  | .c => [(.l, -6), (.r, -6)]
  | .l => [(.c, 0)]
  | .r => [(.c, 0)]
  | .lc => [(.l, 0)]
  | .rc => [(.r, 0)]
  | .lss => [(.lrs, 0)]
  | .rss => [(.rrs, 0)]
  | .lrs => [(.lss, 0)]
  | .rrs => [(.rss, 0)]
  | .lts => [(.lss, 0)]
  | .rts => [(.rss, 0)]
  | .lfe => []

/-- The out roles that fold into a role, with their steps (03 R60). -/
def foldsInto (roles : Tab RoleFigures 12) (target : Role) : List (Role × Int) :=
  Role.all.flatMap fun x =>
    if (roles.get x.ix).service = .out then
      ((foldTargets x).filter fun y => decide (y.1 = target)).map fun y => (x, y.2)
    else []

/-- The sum of the folding feeds, sample by sample (03 R60). -/
def foldSum (unfolded : Tab (List Int) 12) (folds : List (Role × Int)) (target : List Int) : List Int :=
  folds.foldl (fun acc x =>
      let f := gainFactor x.2
      List.zipWith (fun a u => a + u * f) acc (unfolded.get x.1.ix))
    (target.map fun _ => 0)

/-- The exact folded feed of a role before saturation (03 R60). -/
def foldExact (unfolded : Tab (List Int) 12) (folds : List (Role × Int)) (target : Role) : List Int :=
  let u := unfolded.get target.ix
  if folds.isEmpty then u else List.zipWith (fun x y => x + roundShift y 20) u (foldSum unfolded folds u)

/-- The feeds of a screen's roles for one block, and the clips of forming them (03 R58, R60). -/
structure Feeds where
  feeds : Tab (List Int) 12
  clips : Nat
deriving DecidableEq, Repr

def Feeds.none : Feeds := { feeds := .fill 12 [], clips := 0 }

/-- The role at a position. -/
def Role.ofIx (i : Fin 12) : Role := Role.all.getD i.val .l

/-- The source of a role position in a layout record; NONE where the record is undefined (03 R57). -/
def sourceOf (layout : Layout) (i : Fin 12) : Source :=
  match layout with
  | some t => t.get i
  | none => .none

/-- The folded feeds of a screen (03 R58, R60). A role without mapped outputs has no feed and counts no clip. -/
def makeFeeds (layout : Layout) (roles : Tab RoleFigures 12) (a : Audio) : Feeds :=
  let exact : Tab (List Int) 12 := .ofFn fun i =>
    if (roles.get i).mapped = 0 then []
    else sourceFeed (sourceOf layout i) a
  let unfolded := exact.map fun xs => xs.map sat24
  let folded : Tab (List Int) 12 := .ofFn fun i =>
    if (roles.get i).service = .inService then foldExact unfolded (foldsInto roles (Role.ofIx i)) (Role.ofIx i) else []
  { feeds := folded.map fun xs => xs.map sat24
    clips := (exact.items.map clipsOf).sum + (folded.items.map clipsOf).sum }

/-! ### One screen at a house block -/

/-- The layout code in use (03 R56). -/
def State.layoutInUse (s : State) (n : Fin 12) : Nat :=
  match (s.routes.get n).source, (s.routes.get n).held with
  | .lane, some c => c
  | _, _ => (s.screens.get n).config.defaultLayout

/-- The record of a layout code; none when the code or the record is undefined (03 R57). -/
def State.layoutRecord (s : State) (code : Nat) : Layout :=
  match ident0 16 code with
  | some c => s.layouts.get c
  | none => none

/-- The screen is on the paging route (03 R65). -/
def State.onRoute (s : State) (n : Fin 12) : Bool := s.evac && decide ((s.screens.get n).state ≠ .offline)

/-- The roles that carry paging, by service (03 R65). -/
def pagingRoles (roles : Tab RoleFigures 12) : List Role :=
  if 0 < (roles.get Role.c.ix).inService then [.c]
  else [Role.l, Role.r].filter fun x => decide (0 < (roles.get x.ix).inService)

/-- The paging step: p on C, p - 6 on L and R (03 R65). -/
def pagingStepOf (roles : Tab RoleFigures 12) (p : Int) : Int :=
  if 0 < (roles.get Role.c.ix).inService then p else p - 6

/-- The figures ROUTE QUERY reads, formed at a house block (03 R67). -/
def State.routeFigures (s : State) (n : Fin 12) : RouteFigures :=
  let code := s.layoutInUse n
  let roles : Tab RoleFigures 12 := .ofFn fun i => s.roleFigures n (Role.ofIx i)
  let on := s.onRoute n
  { layout := code, source := (s.routes.get n).source, held := (s.routes.get n).held,
    noLayout := (s.layoutRecord code).isNone, roles, onRoute := on,
    pagingRoles := if on then pagingRoles roles else [] }

/-- The base target and the part that set it; equal parts read SHED (04 R82, R84). -/
def State.baseTarget (s : State) (n : Fin 12) : Nat × BasePart :=
  let shed := if (s.grants.get n).status = .shed then (s.screens.get n).config.shedAtt else 0
  let loud := (s.alarms.get n).loudTrim
  (max shed loud, if max shed loud = 0 then .none else if loud ≤ shed then .shed else .loud)

/-- A target above the base current is taken at once (04 R83). -/
def raiseBase (n : Fin 12) (s : State) : State :=
  let target := (s.baseTarget n).1
  s.modAttenuation n fun a => if a.current < target then { a with current := target } else a

/-- The base current at an interval event: a higher target is taken, a lower one approached by one step, but an
EVACUATED screen keeps its base current (04 R83). -/
def stepBase (n : Fin 12) (s : State) : State :=
  let target := (s.baseTarget n).1
  s.modAttenuation n fun a =>
    if a.current < target then { a with current := target }
    else if target < a.current ∧ (s.screens.get n).state ≠ .evacuated then { a with current := a.current - 1 }
    else a

/-- The applied attenuation: base current plus fade (04 R82). -/
def State.applied (s : State) (n : Fin 12) : Nat := (s.attenuations.get n).current + (s.screens.get n).fadeAtt

/-- What one screen gives its outputs at a house block. -/
structure Plan where
  figures : RouteFigures
  program : Feeds
  paging : List Int
  pagingClips : Nat
deriving DecidableEq, Repr

/-- The screen's outputs carry program, as far as the screen decides it (03 R63). -/
def State.playsProgram (s : State) (n : Fin 12) : Bool :=
  (match (s.screens.get n).state with
    | .show => true
    | .ending => true
    | _ => false) &&
  decide ((s.grants.get n).status ≠ .suspended) && (s.lanes.get (programLane n)).delivering && !s.onRoute n

/-- The plan of a screen from the state before the reads and the audio handed on (03 R58 to R65). Feeds are made when
some output carries program; paging samples when some output carries paging (log 18). -/
def State.plan (s : State) (handed : Tab Audio 14) (n : Fin 12) : Plan :=
  let f := s.routeFigures n
  let plays := s.playsProgram n && f.roles.items.any fun r => decide (0 < r.inService)
  let pages := !f.pagingRoles.isEmpty
  let step := gainFactor (pagingStepOf f.roles s.pagingStep)
  let exact := if pages then (slot (handed.get pagingLane) 1).map fun x => scaled x step else []
  { figures := f
    program := if plays then makeFeeds (s.layoutRecord f.layout) f.roles (handed.get (programLane n)) else Feeds.none
    paging := exact.map sat24
    pagingClips := clipsOf exact }

/-! ### Source selection -/

/-- What an output carries for a block (03 R62). -/
structure Selected where
  kind : SourceKind
  reason : Option SilenceReason
  samples : List Int
deriving DecidableEq, Repr

def Selected.silence (why : SilenceReason) : Selected :=
  { kind := .silence, reason := some why, samples := List.replicate Config.blockSamples 0 }

/-- Source selection for one output: the first case of 03 R62 that applies. `flag` is its tone flag and `tone` the
tone samples of the block. -/
def State.select (s : State) (plan : Tab Plan 12) (tone : List Int) (flag : Bool) (x : Output) : Selected :=
  match x.place with
  | none => .silence .unmapped
  | some (n, role) =>
    if !x.inService then .silence .outOfService
    else if s.onRoute n then
      if (plan.get n).figures.pagingRoles.contains role then
        { kind := .paging, reason := none, samples := (plan.get n).paging }
      else .silence .evacOther
    else
      let suspended := decide ((s.grants.get n).status = .suspended)
      let delivering := (s.lanes.get (programLane n)).delivering
      let program : Selected :=
        if suspended then .silence .suspended
        else if !delivering then .silence .lane
        else { kind := .program, reason := none, samples := (plan.get n).program.feeds.get role.ix }
      match (s.screens.get n).state with
      | .show => program
      | .ending => program
      | .paused => .silence .paused
      | .calibrating =>
        if suspended then .silence .suspended
        else if flag then { kind := .tone, reason := none, samples := tone }
        else .silence .noTone
      | .offline => .silence .noProgram
      | .dark => .silence .noProgram
      | .armed => .silence .noProgram
      | .evacuated => .silence .noProgram

/-! ### The path of one output -/

/-- The polarity stage; the inverse of the least sample is the greatest, and is no clip (04 R73). -/
def polarity (inverted : Bool) (x : Int) : Int :=
  if inverted then (if x = -8388608 then 8388607 else -x) else x

/-- A section's exact result: the accumulator over 2^22, halves rounded up (04 R74). -/
def sectionExact (c : Section) (h : History) (x : Int) : Int :=
  (c.b0 * x + c.b1 * h.x1 + c.b2 * h.x2 - c.a1 * h.y1 - c.a2 * h.y2 + 2 ^ 21) / 2 ^ 22

/-- The histories move on (04 R74). -/
def History.shift (h : History) (x y : Int) : History := { x1 := x, x2 := h.x1, y1 := y, y2 := h.y1 }

/-- One section over a run of samples: the outputs, the histories after it, and the clips (04 R74). -/
def runSection (c : Section) : History → List Int → List Int × History × Nat
  | h, [] => ([], h, 0)
  | h, x :: xs =>
    let e := sectionExact c h x
    let (ys, h', k) := runSection c (h.shift x (sat24 e)) xs
    (sat24 e :: ys, h', (saturates e).toNat + k)

/-- The sections in list order: the samples, the path after them, and the clips (04 R74). -/
def runSections : List PathSection → List Int → List Int × List PathSection × Nat
  | [], xs => (xs, [], 0)
  | p :: rest, xs =>
    let (ys, h, k) := runSection p.coef p.hist xs
    let (zs, rest', k') := runSections rest ys
    (zs, { p with hist := h } :: rest', k + k')

/-- The delay line, a queue with its oldest entry first: as many samples leave it as enter (04 R75). -/
def runDelay (line xs : List Int) : List Int × List Int := ((line ++ xs).take xs.length, (line ++ xs).drop xs.length)

/-- The net step before its clamp (04 R76): an output that carries paging, and one mapped to no screen, has its trim
alone. 04 R76 gives silence the whole formula, and an output on the paging route its trim alone; an output of a screen on
the paging route that carries no paging (EVAC_OTHER) is both, and takes the whole formula here (DESIGN CHOICE, log 37). -/
def netSum (x : Output) (kind : SourceKind) (comp : Nat) (level applied : Nat) : Int :=
  match kind, x.place with
  | .paging, _ => x.trim
  | _, none => x.trim
  | _, some _ => x.trim + comp + ((level : Int) - 80) - applied

/-- The net step (04 R76). -/
def netStep (x : Output) (kind : SourceKind) (comp : Nat) (level applied : Nat) : Int :=
  clampInt (-255) 24 (netSum x kind comp level applied)

/-- The output is muted (04 R76). -/
def mutes (kind : SourceKind) (step : Int) (level : Nat) : Bool :=
  decide (step = -255) ||
    (match kind with
      | .program => decide (level = 0)
      | .tone => decide (level = 0)
      | .silence => false
      | .paging => false)

/-- The gain stage over a run of samples, at a net step or, muted, at none: the tap samples and the clips (04 R77). -/
def runGain (step : Option Int) (xs : List Int) : List Int × Nat :=
  match step with
  | none => (xs.map fun _ => 0, 0)
  | some g =>
    let f := gainFactor g
    let exact := xs.map fun x => scaled x f
    (exact.map sat24, clipsOf exact)

/-- The reasons at which the path is cleared before the block (04 R81). -/
def clearsPath : Option SilenceReason → Bool
  | some .unmapped => true
  | some .outOfService => true
  | some .suspended => true
  | _ => false

def History.zero : History := { x1 := 0, x2 := 0, y1 := 0, y2 := 0 }

/-- Every history 0 and the delay line silent (04 R69, R81). -/
def Output.clearPath (x : Output) : Output :=
  { x with path := x.path.map fun p => { p with hist := History.zero }, line := x.line.map fun _ => 0 }

/-- The pilot sequence (07 R126). -/
def pilotSequence : List Int := [0, 11585, -16384, 11585, 0, -11585, 16384, -11585]

def pilotAt (i : Nat) : Int := pilotSequence.getD (i % 8) 0

/-- The pilot is added to the output for the block (07 R126). -/
def State.pilotAdded (s : State) (x : Output) : Bool :=
  match x.screen with
  | none => false
  | some n =>
    decide (x.sense.health ≠ .excluded) && decide (x.sense.health ≠ .failedShort) &&
      decide ((s.screens.get n).state ≠ .calibrating)

/-- The drive samples of a block from its tap samples (07 R125). -/
def driveOf (pilot : Bool) (taps : List Int) : List Int :=
  if pilot then taps.mapIdx fun i y => sat24 (y + pilotAt i) else taps

/-- A run of samples through an output's path (04 R73 to R77): its tap samples, and what it leaves. -/
structure PathRun where
  taps : List Int
  path : List PathSection
  line : List Int
  clips : Nat
deriving DecidableEq, Repr

/-- The path of an output over a run of source samples, at a net step, none when it is muted (04 R73 to R77). -/
def Output.runPath (step : Option Int) (samples : List Int) (x : Output) : PathRun :=
  let (filtered, path, k1) := runSections x.path (samples.map (polarity x.inverted))
  let (delayed, line) := runDelay x.line filtered
  let (taps, k2) := runGain step delayed
  { taps, path, line, clips := k1 + k2 }

/-- One output's block: the output after it and the clips of its path (04 R73 to R81, 05 R91, 07 R125). -/
structure Ran where
  output : Output
  clips : Nat
  muted : Bool
deriving DecidableEq, Repr

/-- `late` are the source samples of the sample periods beyond the 48th of the block, `lateSamples`. The path runs once in
every sample period of the block (04 R80), and the pilot goes on with its sequence (07 R126). The energy is that of the 48
samples (05 R91, log 36). -/
def runOutput (sel : Selected) (late : List Int) (comp level applied : Nat) (pilot : Bool) (x : Output) : Ran :=
  let x := if clearsPath sel.reason then x.clearPath else x
  let step := netStep x sel.kind comp level applied
  let used := if mutes sel.kind step level then none else some step
  let r := x.runPath used (sel.samples ++ late)
  let count := sel.samples.length
  let drive := driveOf pilot r.taps
  { output :=
      { x with
        path := r.path, line := r.line, running := x.running + blockEnergy (r.taps.take count), blockScreen := x.screen,
        drive := drive.take count, late := drive.drop count,
        figures := { kind := sel.kind, reason := sel.reason, comp, step := used, pilot } }
    clips := r.clips, muted := used.isNone }

/-! ### The sample periods beyond the 48th of a block -/

/-- The source samples of an output in the sample periods of its block beyond the 48th, of which `tone` are the tone
samples: silence and the tone go on (04 R80, 10 R170), and program and paging are free values, since the stores hand on 48
frames for a block (log 36). -/
def lateSamples (tone : List Int) (draw : Nat) (o : Fin 192) (kind : SourceKind) : List Int :=
  match kind with
  | .silence => tone.map fun _ => 0
  | .tone => tone
  | .program => tone.mapIdx fun i _ => (Config.lateSource draw o i).toInt
  | .paging => tone.mapIdx fun i _ => (Config.lateSource draw o i).toInt

/-! ### The block of the whole part -/

/-- The tone samples of a block from its noise samples (10 R170). -/
def toneOf (gain : Int) (noise : List Int) : List Int :=
  let f := gainFactor gain
  noise.map fun x => sat24 (scaled x f)

/-- One output at a house block. `s` is the state at the block, from which its source, its house level and its pilot
are taken, and `b` the state that holds its path and the base currents in force (04 R83). `late` are the tone samples
beyond the 48th. -/
def State.runOne (s b : State) (plan : Tab Plan 12) (tone late : List Int) (flags : Tab Bool 192) (o : Fin 192) : Ran :=
  let x := b.outputs.get o
  let sel := s.select plan tone (flags.get o) x
  let beyond := lateSamples late b.lateDraws o sel.kind
  match x.place with
  | none => runOutput sel beyond 0 80 0 false x
  | some (n, role) =>
    let comp := if x.inService then ((plan.get n).figures.roles.get role.ix).comp else 0
    runOutput sel beyond comp (s.screens.get n).level (b.applied n) (s.pilotAdded x) x

/-- The outputs of a screen in a run. -/
def ranOn (ran : Tab Ran 192) (n : Fin 12) : List Ran :=
  ran.items.filter fun x => decide (x.output.screen = some n)

/-- The return side word of a screen's lane, with the attenuation applied at the block (02 R43). -/
def State.returnWord (s : State) (applied : Nat) (n : Fin 12) : ReturnWord :=
  { state := (s.screens.get n).state, attention := (s.alarms.get n).attention, status := (s.grants.get n).status,
    level := (s.screens.get n).level, lastFired := (s.cues.get n).lastFired, applied,
    outOfService := ((s.outputsOf n).filter fun o => !(s.outputs.get o).inService).length }

/-- The gain figures of a screen at the house block (04 R84). -/
def State.gainFigures (s : State) (level muted : Nat) (n : Fin 12) : GainFigures :=
  { target := (s.baseTarget n).1, part := (s.baseTarget n).2, current := (s.attenuations.get n).current,
    fade := (s.screens.get n).fadeAtt, applied := s.applied n, level, muted }

/-- The sound of one house block: reads, base currents, selection, every output's path, clips, the microphone and the
return side words. `flags` are the tone flags that source selection reads (10 R173). `old` is the state at the house
block before its interval event: from it come the sources, the house levels, the pilots and the return side words; `s`
is the state after the event, and from it the base currents, whose target is formed after the alarms have stepped
(04 R83, log 2). The block has `periods` sample periods, of which the stores hand on 48 frames (02 R41, log 25, log 36). -/
def runSound (periods : Nat) (flags : Tab Bool 192) (old s : State) : State :=
  let handed := s.lanes.map Lane.handed
  let b := overScreens raiseBase s
  let plan : Tab Plan 12 := .ofFn fun n => old.plan handed n
  let (noise, middle) := noiseSamples Config.blockSamples b.noise
  let (lateNoise, register) := noiseSamples (periods - Config.blockSamples) middle
  let tone := toneOf b.toneGain noise
  let late := toneOf b.toneGain lateNoise
  let ran : Tab Ran 192 := .ofFn fun o => old.runOne b plan tone late flags o
  { b with
    lanes := b.lanes.map Lane.afterRead
    noise := register
    blockPeriods := max Config.blockSamples periods
    lateDraws := b.lateDraws + 1
    outputs := ran.map Ran.output
    micRunning := b.micRunning + blockEnergy (slot (handed.get measurementLane) 1)
    meters := b.meters.update fun n m =>
      m.addClips ((plan.get n).program.clips + (plan.get n).pagingClips + ((ranOn ran n).map Ran.clips).sum)
    routes := b.routes.update fun n x => { x with figures := (plan.get n).figures }
    attenuations := b.attenuations.update fun n a =>
      { a with
        figures := b.gainFigures (old.screens.get n).level ((ranOn ran n).filter Ran.muted).length n }
    returnWords := .ofFn fun n => old.returnWord (b.applied n) n }

end Sys2Proof.Machine
end

