-- ==== Sys2Proof/Machine/Store.lean ====
section
/-! DEFINITION. The delay store: the all-or-nothing reallocation (04 R86, R87) and the self-test (04 R88). -/

namespace Sys2Proof.Machine

/-- An output and the effective delay it is to have. -/
structure Change where
  output : Fin 192
  delay : Nat
deriving DecidableEq, Repr

/-- Pages an output of a change holds, and is to hold (04 R86). -/
def State.held (s : State) (c : Change) : Nat := (s.outputs.get c.output).pages.length

def Change.needs (c : Change) : Nat := pagesFor c.delay

/-- The net new pages of the changes (04 R87 check 3). -/
def State.netPages (s : State) (cs : List Change) : Int :=
  (cs.map fun c => (c.needs : Int) - (s.held c : Int)).sum

/-- The checks of 04 R87, in order: the refusal, if any. -/
def State.reallocRefusal (s : State) (cs : List Change) : Option Reason :=
  if s.selftest.running then some .starting
  else if cs.any fun c => decide (Config.maxDelay < c.delay) then some .range
  else if (s.freePages.length : Int) < s.netPages cs then some .noroom
  else none

/-- The delay line restarts as silence (04 R75, R86). -/
def Output.restart (delay : Nat) (pages : List Nat) (x : Output) : Output :=
  { x with pages, line := List.replicate delay 0 }

/-- A list that shrinks gives up its last pages (04 R86). -/
def shrink (c : Change) (s : State) : State :=
  if c.needs ≤ s.held c then s.modOutput c.output fun x => x.restart c.delay (x.pages.take c.needs) else s

/-- A list that grows takes the lowest-numbered FREE pages (04 R86). -/
def grow (c : Change) (s : State) : State :=
  if s.held c < c.needs then
    s.modOutput c.output fun x => x.restart c.delay (x.pages ++ s.freePages.take (c.needs - s.held c))
  else s

/-- The two passes, each in ascending order of output number (04 R87). `cs` is in that order. -/
def reallocate (cs : List Change) (s : State) : State := overList grow cs (overList shrink cs s)

/-- The two pages tested in the house block that makes the count `blocks` (04 R88), with the faults found. -/
def SelfTest.test (t : SelfTest) (fault0 fault1 : Bool) : SelfTest :=
  let first := 2 * t.blocks
  { t with
    blocks := t.blocks + 1,
    faults := t.faults ++ (if fault0 then [first] else []) ++ (if fault1 then [first + 1] else []) }

/-- The coming house block is the one at which the self-test completes (04 R88). -/
def SelfTest.ends (t : SelfTest) : Bool := t.running && decide (Config.selftestBlocks ≤ t.blocks + 1)

/-- The completion: faulty pages become BAD, the state DONE, and the SELFTEST notice is sent (04 R88). -/
def completeSelftest (fault0 fault1 : Bool) (s : State) : State :=
  let t := s.selftest.test fault0 fault1
  let u := { s with selftest := { t with running := false }, badPages := t.faults }
  u.notify (.selftest u.freePages.length u.badPages.length)

/-- One house block of the self-test (04 R88). -/
def tickSelftest (fault0 fault1 : Bool) (s : State) : State :=
  if s.selftest.ends then completeSelftest fault0 fault1 s
  else if s.selftest.running then { s with selftest := s.selftest.test fault0 fault1 }
  else s

end Sys2Proof.Machine
end

