-- ==== Sys2Proof/Machine/Health.lean ====
section
/-! DEFINITION. The Line Sense Unit: taking a report (07 R128), its class (07 R129), the debounce (07 R131), settling
and fault counts (07 R132, R136), the lock of a return lane (07 R127, R133), and the HEALTH notice (07 R137). -/

namespace Sys2Proof.Machine

/-- Z16 = floor(16 V / I), at most 4095; 4095 when I is 0 (07 R128). -/
def z16Of (volts amps : Nat) : Nat := if amps = 0 then 4095 else min 4095 (16 * volts / amps)

/-- The class of a Z16 under an output's thresholds (07 R129). -/
def classify (t : Thresholds) (z : Nat) : LineClass :=
  if z ≤ t.shortMax then .short
  else if t.openMin ≤ z then .open
  else if z < t.lowDrift then .low
  else if t.highDrift < z then .high
  else .good

/-- The settled state of a class (07 R131). -/
def LineClass.settledState : LineClass → Health
  | .good => .good
  | .low => .driftingLow
  | .high => .driftingHigh
  | .open => .failedOpen
  | .short => .failedShort

/-- What a taken report does to a record: nothing settles, or a class does (07 R131). -/
structure Debounced where
  health : Health
  settled : Option LineClass
  candidate : Option LineClass
  count : Nat
  settles : Bool
deriving DecidableEq, Repr

def Debounced.settle (c : LineClass) : Debounced :=
  { health := c.settledState, settled := some c, candidate := none, count := 0, settles := true }

/-- A report of the candidate's class, or of a new one, in UNKNOWN or SUSPECT (07 R131). -/
def countReport (r : HealthRecord) (c : LineClass) : Debounced :=
  if r.candidate = some c then
    if 3 ≤ r.count + 1 then Debounced.settle c
    else { health := r.health, settled := r.settled, candidate := some c, count := r.count + 1, settles := false }
  else { health := r.health, settled := r.settled, candidate := some c, count := 1, settles := false }

/-- A report on a settled output (07 R131). -/
def meetReport (r : HealthRecord) (c : LineClass) : Debounced :=
  if r.settled = some c then
    { health := r.health, settled := r.settled, candidate := r.candidate, count := r.count, settles := false }
  else { health := .suspect, settled := r.settled, candidate := some c, count := 1, settles := false }

/-- The record left as it is. -/
def Debounced.same (r : HealthRecord) : Debounced :=
  { health := r.health, settled := r.settled, candidate := r.candidate, count := r.count, settles := false }

/-- The table of 07 R131. -/
def debounce (r : HealthRecord) (c : LineClass) : Debounced :=
  match r.health with
  | .unknown => countReport r c
  | .good => meetReport r c
  | .driftingLow => meetReport r c
  | .driftingHigh => meetReport r c
  | .failedOpen => meetReport r c
  | .suspect =>
    if r.settled = some c then
      { health := c.settledState, settled := r.settled, candidate := none, count := 0, settles := false }
    else countReport r c
  | .failedShort => Debounced.same r
  | .excluded => Debounced.same r
  | .unsensed => Debounced.same r

/-- The fault counts and the last fault at a settling (07 R136). -/
def HealthRecord.countFault (c : LineClass) (f : LastFault) (r : HealthRecord) : HealthRecord :=
  match c with
  | .good => r
  | .open => { r with openFaults := r.openFaults + 1, lastFault := some f }
  | .short => { r with shortFaults := r.shortFaults + 1, lastFault := some f }
  | .low => { r with lowFaults := r.lowFaults + 1, lastFault := some f }
  | .high => { r with highFaults := r.highFaults + 1, lastFault := some f }

/-- The last fault of a settling at this event (07 R136). -/
def State.faultNow (s : State) (o : Fin 192) (c : LineClass) (z : Nat) : LastFault :=
  let n := (s.outputs.get o).screen
  { cls := c, z16 := z, state := n.map fun k => (s.screens.get k).state, time := n.bind s.showTime }

/-- A record after a taken report (07 R128, R131, R136). -/
def HealthRecord.take (z : Nat) (c : LineClass) (f : LastFault) (r : HealthRecord) : HealthRecord :=
  let d := debounce r c
  let r' := { r with
    health := d.health, settled := d.settled, candidate := d.candidate, count := d.count, lastZ := some z }
  if d.settles then r'.countFault c f else r'

/-- A change of health: its notice, and the hand-over to the Calibration Unit (07 R137, 10 R175). The HEALTH notice goes
before the MEASURE notice of an abort (DESIGN CHOICE, log 6). -/
def healthChanged (o : Fin 192) (previous : Health) (cause : HealthCause) (z : Option Nat)
    (station : Option (Fin 16)) (s : State) : State :=
  let x := s.outputs.get o
  let h := x.sense.health
  if h = previous then s
  else
    let t := s.notify (.health o x.screen h previous cause z station)
    if h.failed then abortTarget o .failed t
    else if h = .excluded then abortTarget o .excluded t
    else t

/-- The report is ignored (07 R128). -/
def State.ignores (s : State) (o : Fin 192) (r : Report) : Bool :=
  let x := s.outputs.get o
  !r.valid || decide (x.sense.health = .excluded) || !x.driveOn ||
    ((x.screen.map fun n => decide ((s.screens.get n).state = .calibrating)).getD false)

/-- A report that is taken (07 R128 to R132). -/
def takeReport (o : Fin 192) (r : Report) (s : State) : State :=
  if s.ignores o r then s
  else
    let x := s.outputs.get o
    let z := z16Of r.volts r.amps
    let c := classify x.thresholds z
    let sense := x.sense.take z c (s.faultNow o c z)
    let settlesShort := (debounce x.sense c).settles && decide (c = .short)
    healthChanged o x.sense.health .report (some z) none
      (s.modOutput o fun y => { y with sense, driveOn := if settlesShort then false else y.driveOn })

/-- Output 16 (n - 1) + c of channel c on lane An (07 R125). -/
def channelOutput (lane : Fin 12) (channel : Fin 16) : Fin 192 := ⟨16 * lane.val + channel.val, by omega⟩

/-- The return lane of an output's amplifier lane (00, "Numbering"). -/
def returnLaneOf (o : Fin 192) : Fin 12 := ⟨o.val / 16, by omega⟩

def laneOutputs (lane : Fin 12) : List (Fin 192) := (List.finRange 16).map (channelOutput lane)

/-- One output at the entry of its return lane into UNLOCKED (07 R133). -/
def loseOutput (o : Fin 192) (s : State) : State :=
  let h := (s.outputs.get o).sense.health
  if h = .excluded ∨ h = .failedShort then s
  else
    healthChanged o h .laneLost none none
      (s.modOutput o fun y =>
        { y with sense := { y.sense with health := .unsensed, settled := none, candidate := none, count := 0 } })

/-- One output at the entry of its return lane into LOCKED (07 R133). -/
def findOutput (o : Fin 192) (s : State) : State :=
  let h := (s.outputs.get o).sense.health
  if h = .unsensed then
    healthChanged o h .laneFound none none
      (s.modOutput o fun y => { y with sense := { y.sense with health := .unknown } })
  else s

/-- A return block event (07 R127). -/
def returnBlock (lane : Fin 12) (report : Option Report) (s : State) : State :=
  let r := s.returnLanes.get lane
  match r.locked, report with
  | false, some x =>
    if 2 ≤ r.run + 1 then
      takeReport (channelOutput lane x.channel) x
        (overList findOutput (laneOutputs lane) (s.modReturnLane lane fun y => { y with locked := true, run := 0 }))
    else s.modReturnLane lane fun y => { y with run := y.run + 1 }
  | false, none => s.modReturnLane lane fun y => { y with run := 0 }
  | true, some x =>
    takeReport (channelOutput lane x.channel) x (s.modReturnLane lane fun y => { y with run := 0 })
  | true, none =>
    if 8 ≤ r.run + 1 then
      overList loseOutput (laneOutputs lane)
        (s.modReturnLane lane fun y => { locked := false, run := 0, malformed := y.malformed + 1 })
    else s.modReturnLane lane fun y => { y with run := y.run + 1, malformed := y.malformed + 1 }

end Sys2Proof.Machine
end

