-- ==== Sys2Proof/Machine/Shows.lean ====
section
/-! DEFINITION. Shared operations of the Screen Controller: entering DARK, starting a show (01 R12, R14, R15), the fade
(01 R19), the accepted word (01 R13, R14, R21), and EVAC (01 R22, R23). -/

namespace Sys2Proof.Machine

/-- The base current returns to 0 (04 R83). -/
def clearBase (n : Fin 12) (s : State) : State := s.modAttenuation n fun a => { a with current := 0 }

/-- A held screen is given up: ARMED or CALIBRATING to DARK (01 R9, R10). A CALIBRATING screen's measurement is aborted
with cause FREED, its tone flags are cleared, and its leaving demand recomputes (order of the notices: DESIGN CHOICE,
log 6). -/
def release (n : Fin 12) (station : Fin 16) (s : State) : State :=
  let previous := (s.screens.get n).state
  let freed := if previous = .calibrating then clearTones n (abortOn n .freed s) else s
  let dark := clearBase n (freed.modScreen n fun c => { c with state := .dark, holder := none, stamp := 0 })
  let quiet := withdrawAlarms n dark
  let settled := if previous = .calibrating then recompute .demand quiet else quiet
  settled.notifyShow n previous .request (some station)

/-- A screen in a show is taken over: only the holder changes (01 R10). -/
def takeOver (n : Fin 12) (station : Fin 16) (s : State) : State :=
  let previous := (s.screens.get n).state
  (s.modScreen n fun c => { c with holder := some station }).notifyShow n previous .takeover (some station)

/-- The first condition of a start that fails, admission apart (01 R12): EVAC, then LANE. -/
def State.startRefusal (s : State) (n : Fin 12) : Option Reason :=
  if s.evac then some .evac
  else if !(s.lanes.get (programLane n)).delivering then some .lane
  else none

/-- The effects of a successful start after its admission (01 R15, 03 R56). -/
def startEffects (n : Fin 12) (s : State) : State :=
  let metered := s.modMeter n Meter.clearForShow
  let prepared := prepareAlarms n metered
  let routed := prepared.modRoute n fun x => { x with source := .default }
  startCues n routed

/-- A start judged by EVAC, LANE and admission in this order: the refusal, or the state with its effects
(01 R12, R15). -/
def judgeStart (n : Fin 12) (s : State) : Reason ⊕ State :=
  match s.startRefusal n with
  | some why => .inl why
  | none =>
    match enterDemand n .show (s.screens.get n).holder s with
    | none => .inl .nopower
    | some t => .inr (startEffects n t)

/-- An automatic start: it starts the show or reports why not (01 R14, log 23). Its SHOW notice follows its POWER and CUE
notices (DESIGN CHOICE, log 6). -/
def autoStart (n : Fin 12) (s : State) : State :=
  match judgeStart n s with
  | .inl why => s.notifyShow n (s.screens.get n).state .auto none (some why)
  | .inr t => t.notifyShow n .armed .auto

/-- The word carries a rolling edge (01 R13). -/
def rollingEdge (c : Screen) (w : SideWord) : Bool := w.rolling && decide (c.lastRolling ≠ some true)

/-- The level request of an accepted word (01 R21). -/
def Screen.takeLevel (w : SideWord) (c : Screen) : Screen :=
  let sets := c.config.laneLevel && (decide (c.state = .show) || decide (c.state = .paused)) &&
    decide (w.level ≤ 100) && decide (w.level ≠ c.lastLevel)
  { c with level := if sets then w.level else c.level, lastLevel := w.level }

/-- The word makes an automatic start on the screen be attempted (01 R14). -/
def Screen.attemptsStart (w : SideWord) (c : Screen) : Bool :=
  rollingEdge c w && decide (c.state = .armed) && c.config.permit

/-- The Screen Controller takes an accepted word: the automatic start is judged, then the last rolling field is
updated, then the level request is judged (01 R13, R14, R21). -/
def screenTakesWord (n : Fin 12) (w : SideWord) (s : State) : State :=
  let t := if (s.screens.get n).attemptsStart w then autoStart n s else s
  t.modScreen n fun x => Screen.takeLevel w { x with lastRolling := some w.rolling }

/-! ### The fade -/

/-- One house block of a fade in progress, its count apart from reaching the rate or its step (01 R19). -/
def Screen.fadeAdvance (c : Screen) : Screen :=
  let rate := c.rateInEffect.getD c.config.fadeRate
  if rate ≤ c.fadeCount + 1 then { c with fadeCount := 0, fadeAtt := c.fadeAtt + 1 }
  else { c with fadeCount := c.fadeCount + 1 }

/-- The next house block's count reaches the rate (01 R19). -/
def Screen.fadeSteps (c : Screen) : Bool :=
  decide (c.state = .ending) && !c.fadeTaken && decide (c.rateInEffect.getD c.config.fadeRate ≤ c.fadeCount + 1)

/-- The fade attenuation has reached its end (01 R19). -/
def Screen.fadeDone (c : Screen) : Bool := decide (c.state = .ending) && decide (Config.fadeEnd ≤ c.fadeAtt)

/-- The fade fields return to their reset values, and with the fade goes the mark of its advance (01 R19, R22,
log 2). -/
def Screen.dropFade (c : Screen) : Screen :=
  { c with fadeAtt := 0, fadeCount := 0, rateInEffect := none, fadeTaken := false }

/-- The completion of a fade (01 R19). Its SHOW notice follows its POWER and CUE notices (DESIGN CHOICE, log 6). -/
def completeFade (n : Fin 12) (s : State) : State :=
  let armed := clearBase n
    (s.modScreen n fun c => { c.dropFade with state := .armed, stamp := 0 })
  let trimmed := clearLoudTrim n (recompute .demand armed)
  (fireState n .endDone trimmed).notifyShow n .ending .fade none none (some (trimmed.meters.get n).showMax)

/-- One house block of a screen's fade: the advance, unless it was taken already (01 R19, log 2). -/
def Screen.houseFade (c : Screen) : Screen :=
  if c.fadeTaken then { c with fadeTaken := false } else if c.state = .ending then c.fadeAdvance else c

/-- The fades of a house block advance (01 R19). -/
def advanceFades (s : State) : State := { s with screens := s.screens.map Screen.houseFade }

/-- A fade that has reached its end is completed (01 R19). -/
def finishFade (n : Fin 12) (s : State) : State := if (s.screens.get n).fadeDone then completeFade n s else s

/-! ### EVAC -/

/-- A screen at the assertion (01 R22). -/
def Screen.evacuate (c : Screen) : Screen :=
  if c.state.playing then { c.dropFade with state := .evacuated, stamp := 0 } else c

/-- The SHOW notices of an event that changed several screens, one for each (01 R26). That they go in ascending order of
screen number is the model's (DESIGN CHOICE, log 6). -/
def notifyChanges (before : Tab Screen 12) (cause : ShowCause) (s : State) : State :=
  overScreens (fun n t =>
    if (before.get n).state = (s.screens.get n).state then t else t.notifyShow n (before.get n).state cause) s

/-- Tone flags of every CALIBRATING screen are cleared at the assertion (10 R171). -/
def clearCalibrationTones (s : State) : State :=
  overScreens (fun n t => if (t.screens.get n).state = .calibrating then clearTones n t else t) s

/-- The assertion of EVAC (01 R22, 09 R166, 10 R175). The MEASURE and POWER notices follow the SITE and SHOW notices,
and the SHOW notices go in ascending order of screen number (DESIGN CHOICE, log 6). -/
def assertEvac (s : State) : State :=
  let moved := { s with evac := true, screens := s.screens.map Screen.evacuate }
  let lined := formLines moved
  let told := notifyChanges s.screens .evac (lined.notify (.site (.evac true false)))
  recompute .demand (clearCalibrationTones (abortMeasurement .evac told))

/-- One EVACUATED screen at the release: PAUSED with the next stamp (01 R23). -/
def returnScreen (n : Fin 12) (s : State) : State :=
  if (s.screens.get n).state = .evacuated then
    (takeStamp n s).modScreen n fun c => { c with state := .paused }
  else s

/-- The release of EVAC (01 R23, 09 R166). The POWER notices follow the SITE and SHOW notices, and the SHOW notices go in
ascending order of screen number (DESIGN CHOICE, log 6). -/
def releaseEvac (s : State) : State :=
  let moved := formLines (overScreens returnScreen { s with evac := false })
  let told := notifyChanges s.screens .release (moved.notify (.site (.evac false true)))
  recompute .demand told

end Sys2Proof.Machine
end

