-- ==== Sys2Proof/Machine/Lanes.lean ====
section
/-! DEFINITION. The Lane Receiver's events: activity (02 R30), the search (02 R31), the sync machine (02 R32 to R34), the
elastic store's writes (02 R36, R37), the skew (02 R39), and the acceptance of side words (02 R35). -/

namespace Sys2Proof.Machine

/-- The LANE notice of a lane whose state was `previous` (02 R44). -/
def State.notifyLane (s : State) (l : Fin 14) (previous : Sync) (cause : LaneCause) : State :=
  let x := s.lanes.get l
  s.notify (.lane l x.sync previous cause x.slips)

/-- A block joins the store; a full store first loses its oldest with an overrun slip (02 R36). -/
def Lane.write (a : Audio) (l : Lane) : Lane :=
  if Config.storeBlocks ≤ l.store.length then
    { l.slip .overrun with store := l.store.drop 1 ++ [a] }
  else { l with store := l.store ++ [a] }

/-- The store primed at the entry into LOCKED from PROBATION (02 R37). -/
def Lane.prime (a : Audio) (l : Lane) : Lane := { l with store := [silentAudio, a] }

/-- The skew measured on a good block (02 R39). -/
def skewOf (sinceHouse : Nat) : Nat := sinceHouse % 48

/-- The accepted side word of a lane becomes absent; for Pn the last rolling field returns to none (02 R35, 01 R13). -/
def dropWord (l : Fin 14) (s : State) : State :=
  let t :=
    match laneScreen l, (s.lanes.get l).accepted with
    | some n, some _ => s.modScreen n fun c => { c with lastRolling := none }
    | _, _ => s
  t.modLane l fun x => { x with accepted := none }

/-- MS entered HUNT or NOSIGNAL: a measurement in flight is aborted (10 R175). -/
def laneAbort (l : Fin 14) (s : State) : State := if l = measurementLane then abortMeasurement .lane s else s

/-- A lane enters HUNT or NOSIGNAL: no alignment, counts or skew, an empty store, no accepted word (02 R30, R32,
R34). For MS the LANE notice goes before the MEASURE notice of the abort (DESIGN CHOICE, log 6). -/
def unlockLane (l : Fin 14) (sync : Sync) (cause : LaneCause) (s : State) : State :=
  let previous := (s.lanes.get l).sync
  let t := dropWord l
    (s.modLane l fun x => { x with sync, alignment := none, good := none, bad := none, skew := none, store := [] })
  laneAbort l (t.notifyLane l previous cause)

/-- Activity lost (02 R30). -/
def loseActivity (l : Fin 14) (s : State) : State :=
  if (s.lanes.get l).sync = .nosignal then s else unlockLane l .nosignal .lost s

/-- Activity seen (02 R30). For MS the LANE notice goes before the MEASURE notice of the abort (DESIGN CHOICE, log 6). -/
def seeActivity (l : Fin 14) (s : State) : State :=
  if (s.lanes.get l).sync = .nosignal then
    laneAbort l ((s.modLane l fun x => { x with sync := .hunt }).notifyLane l .nosignal .activity)
  else s

/-- The search of HUNT finds a good block (02 R31). -/
def findBlock (l : Fin 14) (b : LaneBlock) (position sinceHouse : Nat) (s : State) : State :=
  if (s.lanes.get l).sync = .hunt ∧ goodBlock b.side = true then
    (s.modLane l fun x =>
      { x with sync := .probation, alignment := some position, good := some 1, skew := some (skewOf sinceHouse) }).notifyLane
      l .hunt .found
  else s

/-- The Decoder-Router takes an accepted word's layout code (03 R56). -/
def routerTakesWord (n : Fin 12) (w : SideWord) (s : State) : State :=
  if (s.layoutRecord w.layout).isSome then s.modRoute n fun x => { x with source := .lane, held := some w.layout } else s

/-- The acceptance of a word on Pn, one event for its three readers (02 R35): the Screen Controller takes it before the
Decoder-Router and the Cue Engine, or, with `screensLast`, after them (log 7). PG and MS accept no word (02 R40). -/
def acceptWord (l : Fin 14) (side : List Byte) (screensLast : Bool) (s : State) : State :=
  match laneScreen l with
  | none => s
  | some n =>
    let w := readSideWord side
    let t := s.modLane l fun x => { x with accepted := some w }
    if screensLast then screenTakesWord n w (takeWord n w (routerTakesWord n w t))
    else takeWord n w (routerTakesWord n w (screenTakesWord n w t))

/-- A block event in PROBATION (02 R32, R37). The LANE notice of the entry into LOCKED goes before the notices of the
accepted word's readers (DESIGN CHOICE, log 6). -/
def probationBlock (l : Fin 14) (b : LaneBlock) (sinceHouse : Nat) (screensLast : Bool) (s : State) : State :=
  if goodBlock b.side then
    if 3 ≤ ((s.lanes.get l).good.getD 0) + 1 then
      let t := s.modLane l fun x =>
        { x.prime b.frames with sync := .locked, good := none, skew := some (skewOf sinceHouse) }
      acceptWord l b.side screensLast (t.notifyLane l .probation .good)
    else
      s.modLane l fun x => { x with good := some (x.good.getD 0 + 1), skew := some (skewOf sinceHouse) }
  else unlockLane l .hunt .bad s

/-- A block event in LOCKED (02 R33). -/
def lockedBlock (l : Fin 14) (b : LaneBlock) (sinceHouse : Nat) (screensLast : Bool) (s : State) : State :=
  if goodBlock b.side then
    acceptWord l b.side screensLast (s.modLane l fun x => { x.write b.frames with skew := some (skewOf sinceHouse) })
  else
    (s.modLane l fun x =>
      { x.write silentAudio with sync := .flywheel, bad := some 1, badBlocks := x.badBlocks + 1 }).notifyLane
      l .locked .bad

/-- A block event in FLYWHEEL (02 R34). The LANE notice of the entry into LOCKED goes before the notices of the accepted
word's readers (DESIGN CHOICE, log 6). -/
def flywheelBlock (l : Fin 14) (b : LaneBlock) (sinceHouse : Nat) (screensLast : Bool) (s : State) : State :=
  let count := (s.lanes.get l).bad.getD 0
  if goodBlock b.side then
    let t := s.modLane l fun x =>
      { x.write b.frames with sync := .locked, bad := none, skew := some (skewOf sinceHouse) }
    acceptWord l b.side screensLast (t.notifyLane l .flywheel .good)
  else if count < 4 then
    s.modLane l fun x => { x.write silentAudio with bad := some (count + 1), badBlocks := x.badBlocks + 1 }
  else unlockLane l .hunt .expired (s.modLane l fun x => { x with badBlocks := x.badBlocks + 1 })

/-- A block event at the held alignment; a lane in NOSIGNAL or HUNT has none (02 R27). -/
def laneBlock (l : Fin 14) (b : LaneBlock) (sinceHouse : Nat) (screensLast : Bool) (s : State) : State :=
  match (s.lanes.get l).sync with
  | .nosignal => s
  | .hunt => s
  | .probation => probationBlock l b sinceHouse screensLast s
  | .locked => lockedBlock l b sinceHouse screensLast s
  | .flywheel => flywheelBlock l b sinceHouse screensLast s

/-- The block's side word is accepted: the lane is LOCKED or enters LOCKED by the block (02 R35). -/
def Lane.accepts (b : LaneBlock) (l : Lane) : Bool :=
  goodBlock b.side &&
    match l.sync with
    | .locked => true
    | .flywheel => true
    | .probation => decide (3 ≤ (l.good.getD 0) + 1)
    | .hunt => false
    | .nosignal => false

/-- The block makes an automatic start on the screen of its lane be attempted (01 R14). -/
def State.attemptsStart (s : State) (n : Fin 12) (b : LaneBlock) : Bool :=
  (s.lanes.get (programLane n)).accepts b && (s.screens.get n).attemptsStart (readSideWord b.side)

end Sys2Proof.Machine
end

