-- ==== Sys2Proof/Machine/House.lean ====
section
/-! DEFINITION. The house block (02 R42) and its parts. The parts that have a row of their own (a fade step or
completion, the end of a pulse, the completion of the self-test, the interval event, the end of a measurement phase)
may be taken before it by their own commands; HOUSE_BLOCK takes every part that is left, in a fixed order (log 2). -/

namespace Sys2Proof.Machine

/-- The supply lines read at a house block; a new supply state recomputes and sends a SITE notice (08 R140). -/
def readSupply (supply1 supply2 : Bool) (s : State) : State :=
  let old := s.budget.supply
  let new := supplyOf supply1 supply2
  let t := { s with budget := { s.budget with supply1, supply2, supply := new } }
  if new = old then t
  else (recompute .supply t).notify (.site (.supply new old t.budget.available))

/-- Every booth line's house block (09 R165, R166). -/
def tickLines (s : State) : State :=
  { s with booth := s.booth.map fun t => t.map fun l => l.tick.form s.evac }

/-- The block of the latest house block closes, once (05 R91). -/
def ensureClosed (s : State) : State := if s.blockClosed then s else { closeBlock s with blockClosed := true }

/-- The interval slips of the lanes, as handed over (02 R38). -/
def State.slipsHanded (s : State) (l : Fin 14) : Nat := (s.lanes.get l).intervalSlips

/-- The interval slips return to 0 (02 R38). -/
def clearSlips (s : State) : State :=
  { s with lanes := s.lanes.map fun l => { l with intervalSlips := 0 } }

/-- The coming house block is an interval event that has not been taken (02 R42). -/
def State.intervalDue (s : State) : Bool := decide (s.blockCount + 1 = Config.intervalBlocks) && !s.intervalTaken

/-- The interval event: the block closes, the count wraps, every screen's interval closes, the slips are handed over,
the alarms, the trims and the base currents step, and the measurement steps (02 R42, 05 R95, 06 R107, 04 R83,
10 R173). The screens are judged in ascending order, and so are their ALARM notices (DESIGN CHOICE, log 6). -/
def takeInterval (s : State) : State :=
  let t := closeIntervals { ensureClosed s with blockCount := 0, intervalTaken := true }
  let judged := overScreens (judgeScreen t.slipsHanded) (clearSlips t)
  let based := overScreens stepBase judged
  if based.measureStepped then based else stepMeasurement based

/-- The house block is counted, with the interval event where the count wraps (02 R42). -/
def countBlock (s : State) : State :=
  if s.intervalTaken then s
  else if s.intervalDue then takeInterval s
  else { s with blockCount := s.blockCount + 1 }

/-- The tone flags as they stand. -/
def State.toneFlags (s : State) : Tab Bool 192 := s.outputs.map Output.toneFlag

/-- The noise register steps through the sample periods from a reset to the first house block after it; those of a block
have been run at its own house block (10 R170, log 25). -/
def passReset (periods : Nat) (s : State) : State :=
  if s.blockPeriods = 0 then { s with noise := (noiseSamples periods s.noise).2 } else s

/-- A house block up to the close of the block before it: the fades, the lines and the self-test (02 R42, log 2), and the
noise of the time since a reset. -/
def atHouseBlock (inp : BlockInputs) (s : State) : State :=
  let faded := advanceFades (passReset inp.sinceReset s)
  ensureClosed (tickSelftest inp.fault0 inp.fault1 (tickLines faded))

/-- The state in which a house block runs its sound: counted, with the interval event if it is due. -/
def beforeSound (inp : BlockInputs) (s : State) : State := countBlock (atHouseBlock inp s)

/-- The tone flags that source selection reads: as they stand before or after the interval event (10 R173). -/
def flagsRead (inp : BlockInputs) (s : State) : Tab Bool 192 :=
  if inp.selectFirst then (atHouseBlock inp s).toneFlags else (beforeSound inp s).toneFlags

/-- A house block up to its sound, with the return side words (02 R42, R43). -/
def afterSound (inp : BlockInputs) (s : State) : State :=
  runSound inp.periods (flagsRead inp s) (atHouseBlock inp s) (beforeSound inp s)

/-- A house block (02 R42, R43): its parts in order. The supply lines are read and the fades are completed after the
sound, which they change from the next house block on (08 R147, log 2). Fades that complete at one house block are
completed in ascending order of screen number, each whole before the next: its recompute, its END_DONE firings and its
notices (DESIGN CHOICE, logs 2 and 6). -/
def houseBlock (inp : BlockInputs) (s : State) : State :=
  { overScreens finishFade (readSupply inp.supply1 inp.supply2 (afterSound inp s)) with
    blockClosed := false, intervalTaken := false, measureStepped := false }

end Sys2Proof.Machine
end

