-- ==== Sys2Proof/Machine/Ports.lean ====
section
/-! DEFINITION. The Port Controller's own events: the receiver (11 R181), the end of a sent frame (11 R182), and the
restart (11 R188, 04 R89). -/

namespace Sys2Proof.Machine

/-- A gathered frame's check holds: every byte came with a good stop bit, and the CRC over bytes 1 to 1 + L is the
check (11 R181, log 17). -/
def frameHolds (f : List LineByte) : Bool := f.all LineByte.stop && checkHolds ((f.drop 1).map LineByte.val)

/-- The request of a whole good frame of type 0 (11 R180). -/
def frameRequest (port : Fin 4) (f : List LineByte) : Instr :=
  let bytes := f.map LineByte.val
  let h : Header :=
    { port, station := Fin.ofNat 16 (byteAt bytes 2), tag := BitVec.ofNat 8 (byteAt bytes 3), fits := true }
  readRequest h (byteAt bytes 4) ((bytes.drop 5).take (bytes.length - 7))

/-- A frame or a length is discarded and counted (11 R181). -/
def Port.countBad (p : Port) : Port := { p with badFrames := p.badFrames + 1 }

/-- The receiver over the bytes since its start mark and those that follow: it hunts for a start mark, gathers a frame,
and after a bad one hunts again from the byte after that start mark (11 R181, log 16). `fuel` exceeds the number of
bytes, and every pass takes at least one. -/
def scan (port : Fin 4) : Nat → List LineByte → Port → Port
  | 0, buf, p => { p with gathered := buf }
  | fuel + 1, buf, p =>
    match buf with
    | [] => { p with gathered := [] }
    | b :: rest =>
      if b.val ≠ 0x7E#8 then scan port fuel rest p
      else
        match rest with
        | [] => { p with gathered := buf }
        | length :: _ =>
          let n := length.val.toNat
          if n < 4 ∨ 250 < n then scan port fuel rest p.countBad
          else if rest.length < n + 3 then { p with gathered := buf }
          else
            let whole := buf.take (n + 4)
            if frameHolds whole && decide (byteAt (whole.map LineByte.val) 2 / 16 = 0) then
              scan port fuel (buf.drop (n + 4)) (p.receive (frameRequest port whole))
            else scan port fuel rest p.countBad

/-- Bytes arrive at a port's receiver (11 R181). -/
def Port.arrive (port : Fin 4) (bytes : List LineByte) (p : Port) : Port :=
  let buf := p.gathered ++ bytes
  scan port (buf.length + 1) buf p

/-- The restart: every block takes its power-on values, but the self-test and the BAD pages are kept (11 R188,
04 R89). The EVAC line stands as it is held; the supply lines are as given. -/
def restartPart (supply1 supply2 : Bool) (s : State) : State :=
  { State.powerOn { evac := s.evac, supply1, supply2 } with
    badPages := s.badPages, selftest := s.selftest, pending := s.pending, lateDraws := s.lateDraws }

/-- The frame in transmission is the DONE answer of a RESTART (11 R188). -/
def TxFrame.restarts : TxFrame → Bool
  | .answer a => decide (a.kind = 52) && decide (a.outcome = .done)
  | .notice _ _ => false

/-- A frame of a port's transmitter has been sent: an answered request leaves the queue, and the transmitter goes on
(11 R182). -/
def Port.sent (p : Port) : Port :=
  match p.tx with
  | none => p
  | some (.answer _) => { p with tx := none, queue := p.queue.drop 1 }.pump
  | some (.notice _ _) => { p with tx := none }.pump

/-- The last byte of a port's frame has been sent (11 R182, R188). -/
def sendFrame (port : Fin 4) (supply1 supply2 : Bool) (s : State) : State :=
  match (s.ports.get port).tx with
  | none => s
  | some f => if f.restarts then restartPart supply1 supply2 s else s.modPort port Port.sent

end Sys2Proof.Machine
end

