-- ==== Sys2Proof/Machine/ExecTime.lean ====
section
/-! DEFINITION. The meanings of the reset, the site lines, the house clock, the house block and the parts of it that
have a row of their own (log 2). A part whose event is not due changes nothing. -/

namespace Sys2Proof.Machine

/-- POWER_ON_RESET (11 R189 and the reset rule of every chapter). The model's own queue of waiting commands stands
(log 1), and so does its counter of free tap samples (log 36). -/
def execPowerOnReset (lines : SiteLines) (s : State) : Host.Outcome State Fault Refusal :=
  .next { State.powerOn lines with pending := s.pending, lateDraws := s.lateDraws }

/-- EVAC_ASSERTED (01 R22). A line held active already makes no event. -/
def execEvacAsserted (s : State) : Host.Outcome State Fault Refusal :=
  .next (if s.evac then s else assertEvac s)

/-- EVAC_RELEASED (01 R23). A line held inactive already makes no event. -/
def execEvacReleased (s : State) : Host.Outcome State Fault Refusal :=
  .next (if s.evac then releaseEvac s else s)

/-- HOUSE_BLOCK (02 R42). -/
def execHouseBlock (inp : BlockInputs) (s : State) : Host.Outcome State Fault Refusal := .next (houseBlock inp s)

/-- The house clock changes its state, with a SITE notice (02 R41). -/
def changeClock (new old : Clock) (s : State) : State := { s with clock := new }.notify (.site (.clock new old))

/-- The crystal's sample periods after which a house block is taken without a reference edge (02 R41). -/
def lostPeriods : Nat := 56

/-- The reference is lost at the end of the block in progress: the clock is LOCKED, and that block has its 56 sample periods
(02 R41). -/
def State.referenceDue (s : State) : Bool := decide (s.clock = .locked) && decide (s.blockPeriods = lostPeriods)

/-- REFERENCE_LOST (02 R41): the house block taken from the crystal after 56 sample periods, and FREE. A clock that is
FREE has no reference to lose, and a block of another length is not the one at whose end it is lost (log 25). -/
def execReferenceLost (inp : BlockInputs) (s : State) : Host.Outcome State Fault Refusal :=
  .next (if s.referenceDue then changeClock .free .locked (houseBlock inp s) else s)

/-- REFERENCE_REGAINED (02 R41, log 24). -/
def execReferenceRegained (s : State) : Host.Outcome State Fault Refusal :=
  .next
    (match s.clock with
      | .free => changeClock .locked .free s
      | .locked => s)

/-- INTERVAL_EVENT (02 R42). -/
def execIntervalEvent (s : State) : Host.Outcome State Fault Refusal :=
  .next (if s.intervalDue then takeInterval s else s)

/-- A fade step taken for the coming house block (log 2). -/
def Screen.takeFadeStep (c : Screen) : Screen := { c.fadeAdvance with fadeTaken := true }

/-- FADE_STEP (01 R19). -/
def execFadeStep (screen : Fin 12) (s : State) : Host.Outcome State Fault Refusal :=
  .next (if (s.screens.get screen).fadeSteps then s.modScreen screen Screen.takeFadeStep else s)

/-- FADE_COMPLETION (01 R19). -/
def execFadeCompletion (screen : Fin 12) (s : State) : Host.Outcome State Fault Refusal :=
  .next (finishFade screen s)

/-- The pulse of this line ends at the coming house block, and has not been counted for it (09 R165). -/
def BoothLine.pulseEnds (l : BoothLine) : Bool := decide (l.pulse = 1) && !l.counted

/-- The end of a pulse taken for the coming house block (log 2). -/
def BoothLine.takePulseEnd (l : BoothLine) : BoothLine := { l.endPulse with counted := true }

/-- PULSE_END (09 R165, R166). -/
def execPulseEnd (screen : Fin 12) (line : Fin 8) (s : State) : Host.Outcome State Fault Refusal :=
  .next (if (s.line screen line).pulseEnds then s.modLine screen line BoothLine.takePulseEnd else s)

/-- SELFTEST_COMPLETION (04 R88). -/
def execSelftestCompletion (fault0 fault1 : Bool) (s : State) : Host.Outcome State Fault Refusal :=
  .next (if s.selftest.ends then completeSelftest fault0 fault1 s else s)

/-- The coming house block is an interval event at which the phase in flight ends, and the measurement has not been
stepped for it (10 R173, log 2). -/
def State.phaseDue (s : State) : Bool := s.intervalDue && !s.measureStepped && s.context.ends

/-- MEASURE_PHASE_END (10 R173): the end of WAIT, QUIET or SETTLE. The block closes first, so that its energies are in
the sums. -/
def execMeasurePhaseEnd (s : State) : Host.Outcome State Fault Refusal :=
  .next
    (if s.phaseDue && decide (s.context.phase ≠ .measure) then
      { endPhase (ensureClosed s) with measureStepped := true }
    else s)

/-- MEASUREMENT_RESULT (10 R174): the end of MEASURE. -/
def execMeasurementResult (s : State) : Host.Outcome State Fault Refusal :=
  .next
    (if s.phaseDue && decide (s.context.phase = .measure) then
      { endMeasurement (ensureClosed s) with measureStepped := true }
    else s)

end Sys2Proof.Machine
end

