-- ==== Sys2Proof/Machine/ExecLanes.lean ====
section
/-! DEFINITION. The meanings of the events of the inbound lanes and of the return lanes. -/

namespace Sys2Proof.Machine

/-- ACTIVITY_LOST (02 R30). -/
def execActivityLost (lane : Fin 14) (s : State) : Host.Outcome State Fault Refusal := .next (loseActivity lane s)

/-- ACTIVITY_SEEN (02 R30). -/
def execActivitySeen (lane : Fin 14) (s : State) : Host.Outcome State Fault Refusal := .next (seeActivity lane s)

/-- BLOCK_FOUND (02 R31). -/
def execBlockFound (lane : Fin 14) (block : LaneBlock) (position sinceHouse : Nat) (s : State) :
    Host.Outcome State Fault Refusal :=
  .next (findBlock lane block position sinceHouse s)

/-- LANE_BLOCK_EVENT (02 R27, R32 to R37). -/
def execLaneBlockEvent (lane : Fin 14) (block : LaneBlock) (sinceHouse : Nat) (screensLast : Bool) (s : State) :
    Host.Outcome State Fault Refusal :=
  .next (laneBlock lane block sinceHouse screensLast s)

/-- AUTOMATIC_START (01 R14): the block event at which an automatic start is attempted, whole: the start is judged at the
acceptance of its word, in the same step as the block event, and no command comes between (01 R13, R21). A block at which
none is attempted is LANE_BLOCK_EVENT's, and changes nothing here (log 7). -/
def execAutomaticStart (event : StartEvent) (s : State) : Host.Outcome State Fault Refusal :=
  .next
    (if s.attemptsStart event.screen event.block then
      laneBlock (programLane event.screen) event.block event.sinceHouse event.screensLast s
    else s)

/-- RETURN_BLOCK_EVENT: the report that the block's auxiliary bits spell (07 R127, 11 R180). -/
def execReturnBlockEvent (lane : Fin 12) (aux : List (Bool × Bool)) (s : State) : Host.Outcome State Fault Refusal :=
  .next (returnBlock lane (readReport (bytesOfAux aux)) s)

end Sys2Proof.Machine
end

