-- ==== Sys2Proof/Machine/ExecPorts.lean ====
section
/-! DEFINITION. The meanings of the Port Controller's events and of its own requests (11 R181 to R189). -/

namespace Sys2Proof.Machine

/-- FRAME_RECEIVED (11 R181). -/
def execFrameReceived (port : Fin 4) (bytes : List LineByte) (s : State) : Host.Outcome State Fault Refusal :=
  .next (s.modPort port (Port.arrive port bytes))

/-- FRAME_SENT (11 R182, R188). -/
def execFrameSent (port : Fin 4) (supply1 supply2 : Bool) (s : State) : Host.Outcome State Fault Refusal :=
  .next (sendFrame port supply1 supply2 s)

/-- UNKNOWN_REQUEST (11 R183 check 1): refused with UNKNOWN before any other check. A kind from 1 to 52 is no unknown
request, and changes nothing (log 34). -/
def execUnknownRequest (h : Header) (kind : Nat) (s : State) : Host.Outcome State Fault Refusal :=
  if 1 ≤ kind ∧ kind ≤ 52 then .next s
  else if (s.ports.get h.port).canTake (.unknownRequest h kind) then
    .next (finish h kind (.refuse .unknown) (s.modPort h.port (Port.hold (.unknownRequest h kind))))
  else .next (s.modPort h.port (Port.receive (.unknownRequest h kind)))

/-- The masks of a port replaced; flags above the nine kinds and the twelve screens name nothing (11 R185, log 28). -/
def Port.subscribe (kinds screens : BitVec 16) (p : Port) : Port :=
  { p with kinds := kinds &&& 0x01FF#16, screens := screens &&& 0x0FFF#16 }

/-- SUBSCRIBE (11 R185): the answer carries the masks replaced. -/
def actSubscribe (h : Header) (kinds screens : BitVec 16) (s : State) : Result :=
  let p := s.ports.get h.port
  .accept (s.modPort h.port (Port.subscribe kinds screens)) false [.flags p.kinds, .flags p.screens]

def execSubscribe (h : Header) (kinds screens : BitVec 16) (s : State) : Host.Outcome State Fault Refusal :=
  takeRequest (.subscribe h kinds screens) h 48 (actSubscribe h kinds screens) s

/-- The fields of PORT STATUS (11 R187). -/
def Port.statusFields (p : Port) : List Field :=
  [fieldNat 1 p.badFrames.toNat, fieldNat 1 p.overruns.toNat, fieldNat 1 p.discarded.toNat, fieldNat 1 p.queue.length,
   fieldNat 1 p.notices.length, fieldBool p.gap, .flags p.kinds, .flags p.screens]

/-- PORT STATUS (11 R187). -/
def actPortStatus (h : Header) (s : State) : Result := .accept s false (s.ports.get h.port).statusFields

def execPortStatus (h : Header) (s : State) : Host.Outcome State Fault Refusal :=
  takeRequest (.portStatus h) h 49 (actPortStatus h) s

/-- MARK SET (11 R187). -/
def actMarkSet (value : Nat) (s : State) : Result :=
  let v := settingNat 0 255 value
  .accept { s with mark := v.value } v.clamped []

def execMarkSet (h : Header) (value : Nat) (s : State) : Host.Outcome State Fault Refusal :=
  takeRequest (.markSet h value) h 50 (actMarkSet value) s

/-- MARK QUERY (11 R187). -/
def actMarkQuery (s : State) : Result := .accept s false [fieldNat 1 s.mark]

def execMarkQuery (h : Header) (s : State) : Host.Outcome State Fault Refusal :=
  takeRequest (.markQuery h) h 51 actMarkQuery s

/-- RESTART (11 R188): answered DONE; the part restarts when the last byte of the answer has been sent, which is
FRAME_SENT. -/
def actRestart (s : State) : Result := .ok s

def execRestart (h : Header) (s : State) : Host.Outcome State Fault Refusal := takeRequest (.restart h) h 52 actRestart s

end Sys2Proof.Machine
end

