-- ==== Sys2Proof/Machine/ExecScreens.lean ====
section
/-! DEFINITION. The meanings of the requests of the Screen Controller (01 R5 to R25). Each `act…` is the request's own
rule, from its first identifier check to its answer; each `exec…` puts it behind the Port Controller's checks. -/

namespace Sys2Proof.Machine

/-! ### Enabling and disabling -/

/-- The screen enters DARK with no holder (01 R5). -/
def enabled (n : Fin 12) (station : Fin 16) (s : State) : State :=
  ((s.modScreen n fun c => { c with state := .dark, holder := none }).notifyShow n .offline .request (some station))

/-- ENABLE (01 R5). -/
def actEnable (h : Header) (n : Fin 12) (s : State) : Result :=
  if (s.screens.get n).state = .offline then .ok (enabled n h.station s) else .refuse .state

def execEnable (h : Header) (screen : Nat) (s : State) : Host.Outcome State Fault Refusal :=
  takeRequest (.enable h screen) h 1 (onScreen screen (actEnable h)) s

/-- The runtime fields of a screen record at their reset values (01 R6). -/
def Screen.disable (c : Screen) : Screen := { Screen.reset with config := c.config }

/-- The alarm fields at DISABLE: all but the settings (06 R124). -/
def Alarms.disable (a : Alarms) : Alarms := { Alarms.reset with settings := a.settings }

/-- The grant record of a DARK screen at DISABLE (08 R150). -/
def Grant.disable (g : Grant) : Grant := { g with sheds := 0, suspends := 0, lastChange := none }

/-- The cue fields at DISABLE; the lists stay (09 R169). -/
def CueScreen.disable (c : CueScreen) : CueScreen := { c with clock := none, lastCall := 0, lastFired := 0 }

/-- An output of a screen that is disabled: histories 0 and the delay line silent (04 R69), and the running energy 0, so
that the next block close gives it the energy of silence (05 R105; DEDUCED, log 38). -/
def Output.disable (o : Output) : Output := { o.clearPath with running := 0 }

/-- Every output of a screen at DISABLE (04 R69, 05 R105). -/
def clearPaths (n : Fin 12) (s : State) : State :=
  { s with outputs := s.outputs.map fun o => if o.screen = some n then o.disable else o }

/-- The eight lines of a screen commanded OFF (09 R169). -/
def linesOff (n : Fin 12) (s : State) : State :=
  { s with booth := s.booth.modify n fun t => t.map fun l => (l.command false 0).form s.evac }

/-- The indication set of a screen emptied (06 R120). -/
def Port.emptyIndications (n : Fin 12) (p : Port) : Port :=
  { p with indications := p.indications.set n (.fill 7 false) }

/-- The route fields at DISABLE (03 R57, R68). -/
def Route.disable (r : Route) : Route := { r with source := .default, held := none }

/-- Every time entry of a screen returns to ARMED (09 R169). -/
def rearmAll (n : Fin 12) (s : State) : State := overList rearm (s.cues.get n).timeList s

/-- Every runtime field of the screen, in every block, at its reset value (01 R6). -/
def clearScreen (n : Fin 12) (s : State) : State :=
  let t := linesOff n (rearmAll n (clearPaths n (clearBase n s)))
  { t with
    screens := t.screens.modify n Screen.disable
    meters := t.meters.modify n Meter.disable
    alarms := t.alarms.modify n Alarms.disable
    grants := t.grants.modify n Grant.disable
    cues := t.cues.modify n CueScreen.disable
    routes := t.routes.modify n Route.disable
    ports := t.ports.map (Port.emptyIndications n) }

/-- The entry into OFFLINE: alarms are withdrawn, runtime fields reset, and the SHOW notice sent (01 R6, 06 R116; order
of the notices: DESIGN CHOICE, log 6). -/
def disabled (n : Fin 12) (station : Fin 16) (s : State) : State :=
  (clearScreen n (withdrawAlarms n s)).notifyShow n .dark .request (some station)

/-- DISABLE (01 R6). -/
def actDisable (h : Header) (n : Fin 12) (s : State) : Result :=
  if (s.screens.get n).state = .dark then .ok (disabled n h.station s) else .refuse .state

def execDisable (h : Header) (screen : Nat) (s : State) : Host.Outcome State Fault Refusal :=
  takeRequest (.disable h screen) h 2 (onScreen screen (actDisable h)) s

/-! ### Holding -/

/-- The lane check of HOLD: the lane delivers and its word names another server (01 R7). -/
def State.otherServer (s : State) (n : Fin 12) (station : Fin 16) : Bool :=
  (s.lanes.get (programLane n)).delivering && ((s.word n).map fun w => decide (w.server ≠ station.val)).getD false

/-- The screen becomes ARMED under the station (01 R7). -/
def heldBy (n : Fin 12) (station : Fin 16) (s : State) : State :=
  ((clearBase n (s.modScreen n fun c => { c with state := .armed, holder := some station })).notifyShow n .dark
    .request (some station))

/-- HOLD (01 R7). -/
def actHold (h : Header) (n : Fin 12) (s : State) : Result :=
  if (s.screens.get n).holder.isSome then .refuse .held
  else if (s.screens.get n).state ≠ .dark then .refuse .state
  else if roleOf h.station = .booth ∧ s.otherServer n h.station = true then .refuse .lane
  else .ok (heldBy n h.station s)

def execHold (h : Header) (screen : Nat) (s : State) : Host.Outcome State Fault Refusal :=
  takeRequest (.hold h screen) h 3 (onScreen screen (actHold h)) s

/-- CALIBRATE (01 R8). On acceptance the screen's alarms are withdrawn and its base current returns to 0 (06 R116,
04 R83; order of the notices: DESIGN CHOICE, log 6). -/
def actCalibrate (h : Header) (n : Fin 12) (s : State) : Result :=
  if (s.screens.get n).holder.isSome then .refuse .held
  else if (s.screens.get n).state ≠ .dark then .refuse .state
  else if s.evac then .refuse .evac
  else
    match enterDemand n .calibrating (some h.station) s with
    | none => .refuse .nopower
    | some t => .ok ((withdrawAlarms n (clearBase n t)).notifyShow n .dark .request (some h.station))

def execCalibrate (h : Header) (screen : Nat) (s : State) : Host.Outcome State Fault Refusal :=
  takeRequest (.calibrate h screen) h 4 (onScreen screen (actCalibrate h)) s

/-- FREE from the screen's holder (01 R9). -/
def freeByHolder (station : Fin 16) (n : Fin 12) (s : State) : Result :=
  match (s.screens.get n).state with
  | .armed => .ok (release n station s)
  | .calibrating => .ok (release n station s)
  | _ => .refuse .state

/-- FREE from a MANAGEMENT station that is not the holder (01 R9, R10). -/
def freeByManagement (station : Fin 16) (n : Fin 12) (s : State) : Result :=
  match (s.screens.get n).state with
  | .armed => .ok (release n station s)
  | .calibrating => .ok (release n station s)
  | .show => .ok (takeOver n station s)
  | .paused => .ok (takeOver n station s)
  | .ending => .ok (takeOver n station s)
  | .evacuated => .ok (takeOver n station s)
  | .offline => .refuse .state
  | .dark => .refuse .state

/-- FREE (01 R9, R10). -/
def actFree (h : Header) (n : Fin 12) (s : State) : Result :=
  if s.holds n h.station then freeByHolder h.station n s
  else if isManagement h.station then freeByManagement h.station n s
  else .refuse .held

def execFree (h : Header) (screen : Nat) (s : State) : Host.Outcome State Fault Refusal :=
  takeRequest (.free h screen) h 5 (onScreen screen (actFree h)) s

/-! ### The show -/

/-- A holder request: HELD from any other station (01 R4). -/
def ofHolder (h : Header) (act : Fin 12 → State → Result) (n : Fin 12) (s : State) : Result :=
  if s.holds n h.station then act n s else .refuse .held

/-- START on a screen of its holder (01 R12, R15). Its SHOW notice follows its POWER and CUE notices (DESIGN CHOICE,
log 6). -/
def startScreen (h : Header) (n : Fin 12) (s : State) : Result :=
  match (s.screens.get n).state with
  | .armed =>
    match judgeStart n s with
    | .inl why => .refuse why
    | .inr t => .ok (t.notifyShow n .armed .request (some h.station))
  | .ending => .refuse .busy
  | _ => .refuse .state

/-- START (01 R12). -/
def execStart (h : Header) (screen : Nat) (s : State) : Host.Outcome State Fault Refusal :=
  takeRequest (.start h screen) h 6 (onScreen screen (ofHolder h (startScreen h))) s

/-- A request moves the screen to a state, reports it, and fires the STATE entries of the transition
(01 R16, R17, R18). The SHOW notice goes before the CUE notices (DESIGN CHOICE, log 6). -/
def moveShow (n : Fin 12) (event : CueEvent) (station : Fin 16) (change : Screen → Screen) (s : State) : State :=
  fireState n event
    ((s.modScreen n change).notifyShow n (s.screens.get n).state .request (some station))

/-- PAUSE on a screen of its holder (01 R16). -/
def pauseScreen (h : Header) (n : Fin 12) (s : State) : Result :=
  match (s.screens.get n).state with
  | .show => .ok (moveShow n .pause h.station (fun c => { c with state := .paused }) s)
  | .ending => .refuse .busy
  | _ => .refuse .state

/-- PAUSE (01 R16). -/
def execPause (h : Header) (screen : Nat) (s : State) : Host.Outcome State Fault Refusal :=
  takeRequest (.pause h screen) h 7 (onScreen screen (ofHolder h (pauseScreen h))) s

/-- RESUME on a screen of its holder (01 R17). -/
def resumeScreen (h : Header) (n : Fin 12) (s : State) : Result :=
  match (s.screens.get n).state with
  | .paused => .ok (moveShow n .resume h.station (fun c => { c with state := .show }) s)
  | .ending => .refuse .busy
  | _ => .refuse .state

/-- RESUME (01 R17). -/
def execResume (h : Header) (screen : Nat) (s : State) : Host.Outcome State Fault Refusal :=
  takeRequest (.resume h screen) h 8 (onScreen screen (ofHolder h (resumeScreen h))) s

/-- The fade rate of an END: the carried one clamped, or the configured one (01 R18). -/
def endRate (c : Screen) (rate : Option Nat) : Setting Nat := selectNat 1 255 rate c.config.fadeRate

/-- The screen begins its fade, of which no house block has been taken (01 R18, R19). -/
def Screen.beginFade (rate : Nat) (c : Screen) : Screen :=
  { c with state := .ending, fadeAtt := 0, fadeCount := 0, rateInEffect := some rate, fadeTaken := false }

/-- END on a screen of its holder (01 R18). -/
def endScreen (h : Header) (rate : Option Nat) (n : Fin 12) (s : State) : Result :=
  let r := endRate (s.screens.get n) rate
  let began := Result.accept (moveShow n .endBegin h.station (Screen.beginFade r.value) s) r.clamped []
  match (s.screens.get n).state with
  | .show => began
  | .paused => began
  | .ending => .refuse .busy
  | _ => .refuse .state

/-- END (01 R18). -/
def execEnd (h : Header) (screen : Nat) (rate : Option Nat) (s : State) : Host.Outcome State Fault Refusal :=
  takeRequest (.endShow h screen rate) h 9 (onScreen screen (ofHolder h (endScreen h rate))) s

/-! ### House level, settings, query -/

/-- A request taken from the holder or from any MANAGEMENT station (01 R4). -/
def ofHolderOrManagement (h : Header) (act : Fin 12 → State → Result) (n : Fin 12) (s : State) : Result :=
  if s.mayCommand n h.station then act n s else .refuse .held

/-- The house level stored (01 R20). -/
def setLevel (value : Nat) (n : Fin 12) (s : State) : Result :=
  let v := settingNat 0 100 value
  .accept (s.modScreen n fun c => { c with level := v.value }) v.clamped []

/-- LEVEL (01 R20). -/
def execLevel (h : Header) (screen : Nat) (value : Nat) (s : State) : Host.Outcome State Fault Refusal :=
  takeRequest (.level h screen value) h 10 (onScreen screen (ofHolderOrManagement h (setLevel value))) s

/-- The configuration a SCREEN SET leaves, and whether any carried field was clamped, or the reduced draw lowered to
the full draw (01 R24). -/
def ScreenConfig.select (c : ScreenConfig) (sel : ScreenSel) : Setting ScreenConfig :=
  let priority := selectNat 0 3 sel.priority c.priority
  let full := selectNat 0 65535 sel.fullDraw c.fullDraw
  let reduced := selectNat 0 65535 sel.reducedDraw c.reducedDraw
  let shed := selectNat 0 48 sel.shedAtt c.shedAtt
  let rate := selectNat 1 255 sel.fadeRate c.fadeRate
  let lip := selectNat 0 4799 sel.lipSync c.lipSync
  let permit := selectBool sel.permit c.permit
  let laneLevel := selectBool sel.laneLevel c.laneLevel
  let layout := selectNat 0 15 sel.defaultLayout c.defaultLayout
  { value :=
      { priority := priority.value, fullDraw := full.value, reducedDraw := min reduced.value full.value,
        shedAtt := shed.value, fadeRate := rate.value, lipSync := lip.value, permit := permit.value,
        laneLevel := laneLevel.value, defaultLayout := layout.value }
    clamped :=
      priority.clamped || full.clamped || reduced.clamped || decide (full.value < reduced.value) || shed.clamped ||
        rate.clamped || lip.clamped || permit.clamped || laneLevel.clamped || layout.clamped }

/-- The screen is OFFLINE or DARK (01 R24, 03 R49). -/
def ShowState.idle : ShowState → Bool
  | .offline => true
  | .dark => true
  | _ => false

/-- The changes of effective delay that a lip-sync offset makes: every output of the screen, in ascending order
(04 R87). -/
def State.lipChanges (s : State) (n : Fin 12) (lip : Nat) : List Change :=
  (s.outputsOf n).map fun o => { output := o, delay := (s.outputs.get o).delay + lip }

/-- The refusal of a SCREEN SET, if any: a lip-sync offset that differs needs an OFFLINE or DARK screen and the
reallocation of its outputs (01 R24). -/
def State.setRefusal (s : State) (n : Fin 12) (c : ScreenConfig) : Option Reason :=
  let old := s.screens.get n
  if c.lipSync = old.config.lipSync then none
  else if !old.state.idle then some .state
  else s.reallocRefusal (s.lipChanges n c.lipSync)

/-- The new configuration changes priority or a draw (01 R24). -/
def ScreenConfig.moves (old new : ScreenConfig) : Bool :=
  decide (old.priority ≠ new.priority) || decide (old.fullDraw ≠ new.fullDraw) ||
    decide (old.reducedDraw ≠ new.reducedDraw)

/-- The effects of an accepted SCREEN SET (01 R24). -/
def applyConfig (n : Fin 12) (c : ScreenConfig) (s : State) : State :=
  let old := (s.screens.get n).config
  let t := if c.lipSync = old.lipSync then s else reallocate (s.lipChanges n c.lipSync) s
  let u := t.modScreen n fun x => { x with config := c }
  if old.moves c then recompute .settings u else u

/-- SCREEN SET (01 R24). -/
def actScreenSet (sel : ScreenSel) (n : Fin 12) (s : State) : Result :=
  let c := (s.screens.get n).config.select sel
  match s.setRefusal n c.value with
  | some why => .refuse why
  | none => .accept (applyConfig n c.value s) c.clamped []

def execScreenSet (h : Header) (screen : Nat) (sel : ScreenSel) (s : State) : Host.Outcome State Fault Refusal :=
  takeRequest (.screenSet h screen sel) h 11 (onScreen screen (actScreenSet sel)) s

/-- The fields of SCREEN QUERY, in the order of 01 R25 and of the tables of 01 R1. They are those that R25 lists: the fade
count, which R1's record holds and that list does not name, is left out (DESIGN CHOICE, log 41). -/
def Screen.queryFields (c : Screen) : List Field :=
  [fieldNat 1 c.config.priority, fieldNat 2 c.config.fullDraw, fieldNat 2 c.config.reducedDraw,
   fieldNat 1 c.config.shedAtt, fieldNat 1 c.config.fadeRate, fieldNat 2 c.config.lipSync, fieldBool c.config.permit,
   fieldBool c.config.laneLevel, fieldNat 1 c.config.defaultLayout, fieldNat 1 c.state.code,
   fieldOpt 1 (stationField c.holder), fieldNat 4 c.stamp, fieldNat 1 c.level, fieldNat 1 c.fadeAtt,
   fieldOpt 1 c.rateInEffect, fieldNat 1 c.lastLevel, fieldOpt 1 (c.lastRolling.map Bool.toNat)]

/-- SCREEN QUERY (01 R25). -/
def actScreenQuery (n : Fin 12) (s : State) : Result := .accept s false (s.screens.get n).queryFields

def execScreenQuery (h : Header) (screen : Nat) (s : State) : Host.Outcome State Fault Refusal :=
  takeRequest (.screenQuery h screen) h 12 (onScreen screen actScreenQuery) s

end Sys2Proof.Machine
end

