-- ==== Sys2Proof/Machine/ExecRouter.lean ====
section
/-! DEFINITION. The meanings of the requests of the Lane Receiver (02 R45, R46) and of the Decoder-Router (03 R49 to
R67). -/

namespace Sys2Proof.Machine

/-! ### Lanes -/

/-- A request on a lane: 1 to 12 for P1 to P12, 13 for PG, 14 for MS (02 R45). -/
def onLane (lane : Nat) (act : Fin 14 → State → Result) (s : State) : Result :=
  match ident 14 lane with
  | none => .refuse .range
  | some l => act l s

/-- LANE SET (02 R45). -/
def actLaneSet (mask : BitVec 16) (l : Fin 14) (s : State) : Result := .ok (s.modLane l fun x => { x with mask })

def execLaneSet (h : Header) (lane : Nat) (mask : BitVec 16) (s : State) : Host.Outcome State Fault Refusal :=
  takeRequest (.laneSet h lane mask) h 13 (onLane lane (actLaneSet mask)) s

/-- The fields of an accepted side word as carried, in the order of the table of 02 R28, preceded by its presence; zeros
follow the mark that it is absent (02 R46, 11 R180). The flags go as the one byte in which the word carries them, and not
as a set of flags in two bytes (DESIGN CHOICE, log 12). -/
def wordFields (w : Option SideWord) : List Field :=
  let v := w.getD
    { mark := 0, layout := 0, flags := 0, reel := 0, time := 0, level := 0, server := 0, cueCall := 0, check := 0 }
  [fieldBool w.isSome, fieldNat 1 v.mark, fieldNat 1 v.layout, fieldNat 1 v.flags, fieldNat 1 v.reel,
   fieldNat 3 v.time, fieldNat 1 v.level, fieldNat 1 v.server, fieldNat 1 v.cueCall, fieldNat 2 v.check]

/-- The count LANE QUERY reports with the sync state: the good count in PROBATION, the bad count in FLYWHEEL
(02 R46). -/
def Lane.count (l : Lane) : Option Nat :=
  match l.sync with
  | .probation => l.good
  | .flywheel => l.bad
  | _ => none

/-- The fields of LANE QUERY (02 R46). The good count and the bad count share one field, none outside PROBATION and
FLYWHEEL, and an answer on PG or MS has neither a side word's fields nor its presence byte (DESIGN CHOICE, log 12). -/
def State.laneFields (s : State) (l : Fin 14) : List Field :=
  let x := s.lanes.get l
  [fieldNat 1 x.sync.code, fieldOpt 1 x.count, fieldNat 1 x.store.length, fieldNat 1 x.slips.toNat,
   fieldNat 2 x.intervalSlips, fieldOpt 1 (x.lastSlip.map Slip.code), fieldNat 1 x.badBlocks.toNat,
   fieldOpt 1 x.skew, .flags x.mask] ++
  (if l.val < 12 then wordFields x.accepted else []) ++ [fieldNat 1 s.clock.code]

/-- LANE QUERY (02 R46). -/
def actLaneQuery (l : Fin 14) (s : State) : Result := .accept s false (s.laneFields l)

def execLaneQuery (h : Header) (lane : Nat) (s : State) : Host.Outcome State Fault Refusal :=
  takeRequest (.laneQuery h lane) h 14 (onLane lane actLaneQuery) s

/-! ### The output map -/

/-- The assignment an OUTPUT MAP carries, its identifiers checked: none when one is out of range (03 R49 check 1). -/
def readAssign : Option (Nat × Nat) → Option (Option (Fin 12 × Role))
  | none => some none
  | some (screen, role) =>
    match ident 12 screen, Role.ofCode role with
    | some n, some r => some (some (n, r))
    | _, _ => none

/-- A screen of the old or new place is in a state other than OFFLINE or DARK (03 R49 check 2). -/
def State.busyPlace (s : State) (place : Option (Fin 12 × Role)) : Bool :=
  (place.map fun p => !(s.screens.get p.1).state.idle).getD false

/-- The new screen differs from the old and owns its 32 outputs already (03 R49 check 3). -/
def State.screenFull (s : State) (old new : Option (Fin 12 × Role)) : Bool :=
  match new.map Prod.fst with
  | some n => decide (old.map Prod.fst ≠ some n) && decide (Config.screenOutputs ≤ (s.outputsOf n).length)
  | none => false

/-- The lip-sync offset of a place; 0 for none (03 R50). -/
def State.offsetAt (s : State) (place : Option (Fin 12 × Role)) : Nat :=
  (place.map fun p => (s.screens.get p.1).config.lipSync).getD 0

/-- The change of effective delay of an output moved to a place (03 R50). -/
def State.placeChange (s : State) (o : Fin 192) (place : Option (Fin 12 × Role)) : Change :=
  { output := o, delay := (s.outputs.get o).delay + s.offsetAt place }

/-- OUTPUT MAP after its identifiers (03 R49, R50). -/
def mapOutput (o : Fin 192) (new : Option (Fin 12 × Role)) (s : State) : Result :=
  let old := (s.outputs.get o).place
  let moved := fun t : State => t.modOutput o fun x => { x with place := new }
  if s.busyPlace old || s.busyPlace new then .refuse .state
  else if s.screenFull old new then .refuse .noroom
  else if s.offsetAt old = s.offsetAt new then .ok (moved s)
  else
    match s.reallocRefusal [s.placeChange o new] with
    | some why => .refuse why
    | none => .ok (moved (reallocate [s.placeChange o new] s))

/-- OUTPUT MAP (03 R49). -/
def actOutputMap (assign : Option (Nat × Nat)) (o : Fin 192) (s : State) : Result :=
  match readAssign assign with
  | none => .refuse .range
  | some new => mapOutput o new s

def execOutputMap (h : Header) (output : Nat) (assign : Option (Nat × Nat)) (s : State) :
    Host.Outcome State Fault Refusal :=
  takeRequest (.outputMap h output assign) h 15 (onOutput output (actOutputMap assign)) s

/-- The fields of OUTPUT QUERY (03 R51). The counts of its role are those judged at the latest house block (03 R59);
an unmapped output has no role, and both its counts are answered as 0 (DESIGN CHOICE, log 30). -/
def State.outputFields (s : State) (o : Fin 192) : List Field :=
  let x := s.outputs.get o
  let place : List Field :=
    match x.place with
    | some (n, r) => [fieldNat 1 1, fieldNat 1 (number n), fieldNat 1 r.code]
    | none => [fieldNat 1 0, fieldNat 1 0, fieldNat 1 0]
  let f := (x.place.map fun p => (s.routes.get p.1).figures.roles.get p.2.ix).getD RoleFigures.reset
  place ++
  [fieldNat 2 (s.effectiveDelay o), fieldNat 1 x.figures.kind.code,
   fieldCond 1 (x.figures.reason.map SilenceReason.code), fieldNat 1 x.figures.comp, fieldNat 1 f.mapped,
   fieldNat 1 f.inService]

/-- OUTPUT QUERY (03 R51). -/
def actOutputQuery (o : Fin 192) (s : State) : Result := .accept s false (s.outputFields o)

def execOutputQuery (h : Header) (output : Nat) (s : State) : Host.Outcome State Fault Refusal :=
  takeRequest (.outputQuery h output) h 16 (onOutput output actOutputQuery) s

/-! ### The layout table -/

/-- A request on a layout code: one outside 0 to 15 is refused with RANGE (03 R54, R55). -/
def onLayout (code : Nat) (act : Fin 16 → State → Result) (s : State) : Result :=
  match ident0 16 code with
  | none => .refuse .range
  | some c => act c s

def slotValid (slot : Nat) : Bool := decide (1 ≤ slot) && decide (slot ≤ 16)

/-- The slots of a source lie from 1 to 16 (03 R54). -/
def sourceValid : Source → Bool
  | .none => true
  | .one i _ => slotValid i
  | .two i _ j _ => slotValid i && slotValid j

/-- A source with its steps clamped into -24 to 0, and whether one was (03 R54). -/
def clampSource : Source → Setting Source
  | .none => { value := .none, clamped := false }
  | .one i g =>
    let x := settingInt (-24) 0 g
    { value := .one i x.value, clamped := x.clamped }
  | .two i gi j gj =>
    let x := settingInt (-24) 0 gi
    let y := settingInt (-24) 0 gj
    { value := .two i x.value j y.value, clamped := x.clamped || y.clamped }

/-- One source placed in a record (03 R54). -/
def placeSource (t : Tab Source 12) (r : RoleSource) : Tab Source 12 :=
  match Role.ofCode r.role with
  | some role => t.set role.ix (clampSource r.source).value
  | none => t

/-- The record of a LAYOUT SET: a role not carried takes NONE; of a role carried twice the later source stands
(03 R54, log 21). -/
def buildLayout (sources : List RoleSource) : Tab Source 12 := sources.foldl placeSource (.fill 12 .none)

/-- LAYOUT SET (03 R54). -/
def actLayoutSet (sources : List RoleSource) (c : Fin 16) (s : State) : Result :=
  if sources.all fun r => (Role.ofCode r.role).isSome && sourceValid r.source then
    .accept { s with layouts := s.layouts.set c (some (buildLayout sources)) }
      (sources.any fun r => (clampSource r.source).clamped) []
  else .refuse .range

def execLayoutSet (h : Header) (code : Nat) (sources : List RoleSource) (s : State) :
    Host.Outcome State Fault Refusal :=
  takeRequest (.layoutSet h code sources) h 17 (onLayout code (actLayoutSet sources)) s

/-- A source's form and its slots and steps (11 R180). -/
def sourceFields : Source → List Field
  | .none => [fieldNat 1 0]
  | .one i g => [fieldNat 1 1, fieldNat 1 i, .num 1 g]
  | .two i gi j gj => [fieldNat 1 2, fieldNat 1 i, .num 1 gi, fieldNat 1 j, .num 1 gj]

/-- The fields of LAYOUT QUERY (03 R55). The mark is 1 for a defined record and 0 for an undefined one (DEDUCED, log 11),
and the twelve sources go in role order without a count (DESIGN CHOICE, log 12). -/
def layoutFields : Layout → List Field
  | none => [fieldBool false]
  | some t => fieldBool true :: (t.items.map sourceFields).flatten

/-- LAYOUT QUERY (03 R55). -/
def actLayoutQuery (c : Fin 16) (s : State) : Result := .accept s false (layoutFields (s.layouts.get c))

def execLayoutQuery (h : Header) (code : Nat) (s : State) : Host.Outcome State Fault Refusal :=
  takeRequest (.layoutQuery h code) h 18 (onLayout code actLayoutQuery) s

/-! ### Paging step and route -/

/-- PAGING SET; without a value it answers the value in force (03 R66). -/
def actPagingSet (value : Option Int) (s : State) : Result :=
  match value with
  | some v => .accept { s with pagingStep := (settingInt (-40) 12 v).value } (settingInt (-40) 12 v).clamped []
  | none => .accept s false [.num 1 s.pagingStep]

def execPagingSet (h : Header) (value : Option Int) (s : State) : Host.Outcome State Fault Refusal :=
  takeRequest (.pagingSet h value) h 19 (actPagingSet value) s

/-- The fields of one role (03 R67). -/
def RoleFigures.fields (r : RoleFigures) : List Field :=
  [fieldNat 1 r.mapped, fieldNat 1 r.inService, fieldNat 1 r.service.code, fieldNat 1 r.comp] ++
  fieldList 1 (r.outputs.map fun o => [fieldNat 1 (number o)])

/-- The fields of ROUTE QUERY (03 R67). The roles that carry paging are sent as a list, empty off the route, and the
twelve roles in role order without a count (DESIGN CHOICE, log 12). -/
def RouteFigures.fields (f : RouteFigures) : List Field :=
  [fieldNat 1 f.layout, fieldNat 1 f.source.code, fieldOpt 1 f.held, fieldBool f.noLayout] ++
  (f.roles.items.map RoleFigures.fields).flatten ++
  (fieldBool f.onRoute :: fieldList 1 (f.pagingRoles.map fun r => [fieldNat 1 r.code]))

/-- ROUTE QUERY (03 R67). -/
def actRouteQuery (n : Fin 12) (s : State) : Result := .accept s false (s.routes.get n).figures.fields

def execRouteQuery (h : Header) (screen : Nat) (s : State) : Host.Outcome State Fault Refusal :=
  takeRequest (.routeQuery h screen) h 20 (onScreen screen actRouteQuery) s

end Sys2Proof.Machine
end

