-- ==== Sys2Proof/Machine/ExecTuning.lean ====
section
/-! DEFINITION. The meanings of the requests of the Equaliser and Delay Store (04 R70 to R72, R84, R90). -/

namespace Sys2Proof.Machine

/-- The station holds the output's screen (04 R70, R71). -/
def State.holdsOutput (s : State) (o : Fin 192) (station : Fin 16) : Bool :=
  ((s.outputs.get o).screen.map fun n => s.holds n station).getD false

/-- The output's screen is in SHOW, PAUSED, ENDING or EVACUATED (04 R70 check 3). -/
def State.inShow (s : State) (o : Fin 192) : Bool :=
  match (s.outputs.get o).screen with
  | none => false
  | some n =>
    match (s.screens.get n).state with
    | .show => true
    | .paused => true
    | .ending => true
    | .evacuated => true
    | _ => false

/-- The tuning record a TUNE LOAD leaves, its histories at 0 (04 R70). -/
def Output.tune (trim : Int) (inverted : Bool) (sections : List Section) (delay : Nat) (x : Output) : Output :=
  { x with trim, inverted, delay, path := sections.map fun c => { coef := c, hist := History.zero } }

/-- The change of effective delay that a tuning delay makes (04 R70). -/
def State.tuneChange (s : State) (o : Fin 192) (delay : Nat) : Change :=
  { output := o, delay := delay + s.offsetAt (s.outputs.get o).place }

/-- TUNE LOAD from its fifth check on (04 R70). -/
def loadTuning (o : Fin 192) (trim : Int) (polarity : Nat) (sections : List Section) (delay : Nat) (s : State) :
    Result :=
  let g := settingInt (-80) 24 trim
  let d := settingNat 0 9599 delay
  let change := s.tuneChange o d.value
  let loaded := fun t : State => t.modOutput o (Output.tune g.value (decide (polarity = 1)) sections d.value)
  if change.delay = s.effectiveDelay o then .accept (loaded s) (g.clamped || d.clamped) []
  else
    match s.reallocRefusal [change] with
    | some why => .refuse why
    | none => .accept (loaded (reallocate [change] s)) (g.clamped || d.clamped) []

/-- TUNE LOAD (04 R70). -/
def actTuneLoad (h : Header) (trim : Int) (polarity : Nat) (sections : List Section) (delay : Nat) (o : Fin 192)
    (s : State) : Result :=
  if 1 < polarity ∨ 8 < sections.length then .refuse .range
  else if !isManagement h.station && !s.holdsOutput o h.station then .refuse .held
  else if s.inShow o then .refuse .state
  else if s.selftest.running then .refuse .starting
  else loadTuning o trim polarity sections delay s

def execTuneLoad (h : Header) (output : Nat) (trim : Int) (polarity : Nat) (sections : List Section) (delay : Nat)
    (s : State) : Host.Outcome State Fault Refusal :=
  takeRequest (.tuneLoad h output trim polarity sections delay) h 21
    (onOutput output (actTuneLoad h trim polarity sections delay)) s

/-- TRIM (04 R71). -/
def actTrim (h : Header) (value : Int) (o : Fin 192) (s : State) : Result :=
  let v := settingInt (-80) 24 value
  if isManagement h.station || s.holdsOutput o h.station then
    .accept (s.modOutput o fun x => { x with trim := v.value }) v.clamped []
  else .refuse .held

def execTrim (h : Header) (output : Nat) (value : Int) (s : State) : Host.Outcome State Fault Refusal :=
  takeRequest (.trim h output value) h 22 (onOutput output (actTrim h value)) s

def Section.fields (c : Section) : List Field := [.num 3 c.b0, .num 3 c.b1, .num 3 c.b2, .num 3 c.a1, .num 3 c.a2]

/-- The fields of TUNE QUERY (04 R72). -/
def State.tuneFields (s : State) (start : Nat) (o : Fin 192) : List Field :=
  let x := s.outputs.get o
  [.num 1 x.trim, fieldBool x.inverted] ++ fieldList 1 (x.path.map fun p => Section.fields p.coef) ++
  [fieldNat 2 x.delay, fieldNat 2 (s.effectiveDelay o), fieldNat 1 x.pages.length] ++
  fieldList 1 (((x.pages.drop (start - 1)).take 32).map fun p => [fieldNat 2 p]) ++ [.opt 2 x.figures.step]

/-- TUNE QUERY (04 R72). -/
def actTuneQuery (start : Nat) (o : Fin 192) (s : State) : Result :=
  if start = 0 then .refuse .range else .accept s false (s.tuneFields start o)

def execTuneQuery (h : Header) (output start : Nat) (s : State) : Host.Outcome State Fault Refusal :=
  takeRequest (.tuneQuery h output start) h 23 (onOutput output (actTuneQuery start)) s

/-- The fields of GAIN QUERY (04 R84). -/
def GainFigures.fields (g : GainFigures) : List Field :=
  [fieldNat 1 g.target, fieldOpt 1 g.part.code?, fieldNat 1 g.current, fieldNat 1 g.fade, fieldNat 1 g.applied,
   fieldNat 1 g.level, fieldNat 1 g.muted]

/-- GAIN QUERY (04 R84). -/
def actGainQuery (n : Fin 12) (s : State) : Result := .accept s false (s.attenuations.get n).figures.fields

def execGainQuery (h : Header) (screen : Nat) (s : State) : Host.Outcome State Fault Refusal :=
  takeRequest (.gainQuery h screen) h 24 (onScreen screen actGainQuery) s

/-- The BAD pages in ascending order. -/
def State.badAscending (s : State) : List Nat := s.pagesIn .bad

/-- The fields of STORE QUERY (04 R90). Two pages are tested in each house block, so the pages tested are twice the
house blocks run, at most all of them. -/
def State.storeFields (s : State) (start : Nat) : List Field :=
  [fieldNat 2 s.freePages.length, fieldNat 2 (s.pagesIn .inUse).length, fieldNat 2 s.badAscending.length,
   fieldBool (!s.selftest.running),
   fieldCond 2 (if s.selftest.running then some (min Config.pageCount (2 * s.selftest.blocks)) else none)] ++
  fieldList 1 (((s.badAscending.drop (start - 1)).take 100).map fun p => [fieldNat 2 p])

/-- STORE QUERY (04 R90). -/
def actStoreQuery (start : Nat) (s : State) : Result :=
  if start = 0 then .refuse .range else .accept s false (s.storeFields start)

def execStoreQuery (h : Header) (start : Nat) (s : State) : Host.Outcome State Fault Refusal :=
  takeRequest (.storeQuery h start) h 25 (actStoreQuery start) s

end Sys2Proof.Machine
end

