-- ==== Sys2Proof/Machine/ExecMeter.lean ====
section
/-! DEFINITION. The meanings of the requests of the Level Meter (05 R99, R104) and of the Alarm Monitor (06 R121,
R122). -/

namespace Sys2Proof.Machine

/-- OFFSET SET; without a value it answers the offset in force (05 R99). -/
def actOffsetSet (value : Option Int) (n : Fin 12) (s : State) : Result :=
  match value with
  | some v =>
    .accept (s.modMeter n fun m => { m with offset := (settingInt (-128) 127 v).value })
      (settingInt (-128) 127 v).clamped []
  | none => .accept s false [.num 1 (s.meters.get n).offset]

def execOffsetSet (h : Header) (screen : Nat) (value : Option Int) (s : State) : Host.Outcome State Fault Refusal :=
  takeRequest (.offsetSet h screen value) h 26 (onScreen screen (actOffsetSet value)) s

/-- The screen's figures of LEVEL QUERY (05 R104). -/
def Meter.fields (m : Meter) : List Field :=
  [fieldNat 1 m.blockLevel, fieldNat 1 m.blockSpl, fieldNat 1 m.intervalLevel, fieldNat 1 m.intervalSpl,
   fieldNat 1 m.windowLevel, fieldNat 1 m.windowSpl, fieldNat 1 m.showMax, fieldNat 2 m.lastClips,
   fieldNat 2 m.clips, fieldNat 1 m.segmentFill, fieldNat 1 m.ring.length, .num 1 m.offset]

/-- The output's figures of LEVEL QUERY, when an output is named (05 R104). The block energy and its level go behind one
presence byte, which is 0, with nothing after it, when no output is named (DESIGN CHOICE, log 12). -/
def energyFields (energy : Option Nat) : List Field := condFields (energy.map fun e => [fieldNat 5 e, fieldNat 1 (lvl e)])

/-- LEVEL QUERY (05 R104). -/
def actLevelQuery (output : Option Nat) (n : Fin 12) (s : State) : Result :=
  match output with
  | none => .accept s false ((s.meters.get n).fields ++ energyFields none)
  | some k =>
    match ident 192 k with
    | none => .refuse .range
    | some o =>
      if (s.outputs.get o).screen = some n then
        .accept s false ((s.meters.get n).fields ++ energyFields (some (s.outputs.get o).energy))
      else .refuse .range

def execLevelQuery (h : Header) (screen : Nat) (output : Option Nat) (s : State) : Host.Outcome State Fault Refusal :=
  takeRequest (.levelQuery h screen output) h 27 (onScreen screen (actLevelQuery output)) s

/-- The settings an ALARM SET leaves, and whether any carried one was clamped (06 R106, R122). -/
def AlarmSettings.select (c : AlarmSettings) (sel : AlarmSel) : Setting AlarmSettings :=
  let peak := selectNat 0 255 sel.peakLimit c.peakLimit
  let loud := selectNat 0 255 sel.loudLimit c.loudLimit
  let floor := selectNat 0 255 sel.silenceFloor c.silenceFloor
  let run := selectNat 1 60 sel.silenceRun c.silenceRun
  let clip := selectNat 0 65535 sel.clipLimit c.clipLimit
  let raise := selectNat 0 15 sel.raiseHold c.raiseHold
  let clear := selectNat 1 15 sel.clearHold c.clearHold
  let auto := selectBool sel.autoTrim c.autoTrim
  let trim := selectNat 0 24 sel.trimMax c.trimMax
  { value :=
      { peakLimit := peak.value, loudLimit := loud.value, silenceFloor := floor.value, silenceRun := run.value,
        clipLimit := clip.value, raiseHold := raise.value, clearHold := clear.value, autoTrim := auto.value,
        trimMax := trim.value }
    clamped :=
      peak.clamped || loud.clamped || floor.clamped || run.clamped || clip.clamped || raise.clamped ||
        clear.clamped || auto.clamped || trim.clamped }

/-- The settings stored, and a loud trim above a lowered trim maximum lowered to it (06 R118, R122). -/
def Alarms.store (c : AlarmSettings) (a : Alarms) : Alarms :=
  { a with settings := c, loudTrim := min a.loudTrim c.trimMax }

/-- ALARM SET (06 R122). -/
def actAlarmSet (sel : AlarmSel) (n : Fin 12) (s : State) : Result :=
  let c := (s.alarms.get n).settings.select sel
  .accept (s.modAlarms n (Alarms.store c.value)) c.clamped []

def execAlarmSet (h : Header) (screen : Nat) (sel : AlarmSel) (s : State) : Host.Outcome State Fault Refusal :=
  takeRequest (.alarmSet h screen sel) h 28 (onScreen screen (actAlarmSet sel)) s

/-- The bytes of a kind's cause detail, as zeros when the record has none (11 R180; that a detail has one presence byte
is a DESIGN CHOICE, log 12). -/
def zeroDetail : AlarmKind → List Field
  | .peak => [fieldNat 1 0]
  | .loud => [fieldNat 1 0]
  | .silent => [fieldNat 1 0]
  | .clip => [fieldNat 2 0]
  | .lane => [fieldNat 1 0, fieldNat 2 0, fieldOpt 1 none]
  | .speaker => [fieldNat 1 0, fieldNat 1 0]
  | .power => [fieldNat 1 0]

/-- The fields of one record (06 R121). -/
def AlarmRecord.fields (k : AlarmKind) (r : AlarmRecord) : List Field :=
  [fieldNat 1 r.state.code, fieldNat 1 r.phase, fieldNat 1 r.raises.toNat, fieldOpt 3 r.lastShow,
   fieldBool r.detail.isSome] ++ ((r.detail.map AlarmDetail.fields).getD (zeroDetail k))

/-- The fields of the settings, in the order of 06 R106. -/
def AlarmSettings.fields (c : AlarmSettings) : List Field :=
  [fieldNat 1 c.peakLimit, fieldNat 1 c.loudLimit, fieldNat 1 c.silenceFloor, fieldNat 1 c.silenceRun,
   fieldNat 2 c.clipLimit, fieldNat 1 c.raiseHold, fieldNat 1 c.clearHold, fieldBool c.autoTrim, fieldNat 1 c.trimMax]

/-- A set of alarm kinds as flags (11 R180). -/
def indicationFlags (t : Tab Bool 7) : BitVec 16 :=
  AlarmKind.all.foldl (fun b k => if t.get k.ix then b ||| (1#16 <<< k.ix.val) else b) 0#16

/-- The fields of ALARM QUERY (06 R121). The seven records go in the order of their kinds without a count (DESIGN CHOICE,
log 12). -/
def State.alarmFields (s : State) (port : Fin 4) (n : Fin 12) : List Field :=
  let a := s.alarms.get n
  (AlarmKind.all.map fun k => (a.records.get k.ix).fields k).flatten ++
  [fieldNat 1 a.silenceRun, fieldNat 1 a.loudTrim, fieldBool a.attention] ++ a.settings.fields ++
  [.flags (indicationFlags ((s.ports.get port).indications.get n))]

/-- ALARM QUERY: the screen's indication set on the port of the query is emptied (06 R121). -/
def actAlarmQuery (h : Header) (n : Fin 12) (s : State) : Result :=
  .accept (s.modPort h.port (Port.emptyIndications n)) false (s.alarmFields h.port n)

def execAlarmQuery (h : Header) (screen : Nat) (s : State) : Host.Outcome State Fault Refusal :=
  takeRequest (.alarmQuery h screen) h 29 (onScreen screen (actAlarmQuery h)) s

end Sys2Proof.Machine
end

