-- ==== Sys2Proof/Machine/ExecSense.lean ====
section
/-! DEFINITION. The meanings of the requests of the Line Sense Unit (07 R130, R134, R135, R138) and of the Power Manager
(08 R142, R149). -/

namespace Sys2Proof.Machine

/-! ### Line sense -/

/-- The thresholds put in order (07 R130). -/
def orderThresholds (t : Thresholds) : Thresholds :=
  let low := max t.lowDrift (t.shortMax + 1)
  let high := max t.highDrift low
  { shortMax := t.shortMax, lowDrift := low, highDrift := high, openMin := max t.openMin (high + 1) }

/-- The thresholds a SENSE SET leaves, and whether any value was changed by the clamp or by the ordering (07 R130). -/
def Thresholds.select (t : Thresholds) (sel : SenseSel) : Setting Thresholds :=
  let short := selectNat 0 4092 sel.shortMax t.shortMax
  let low := selectNat 1 4093 sel.lowDrift t.lowDrift
  let high := selectNat 1 4094 sel.highDrift t.highDrift
  let open' := selectNat 2 4095 sel.openMin t.openMin
  let raw : Thresholds :=
    { shortMax := short.value, lowDrift := low.value, highDrift := high.value, openMin := open'.value }
  { value := orderThresholds raw
    clamped := short.clamped || low.clamped || high.clamped || open'.clamped || decide (orderThresholds raw ≠ raw) }

/-- SENSE SET (07 R130). -/
def actSenseSet (sel : SenseSel) (o : Fin 192) (s : State) : Result :=
  let t := (s.outputs.get o).thresholds.select sel
  .accept (s.modOutput o fun x => { x with thresholds := t.value }) t.clamped []

def execSenseSet (h : Header) (output : Nat) (sel : SenseSel) (s : State) : Host.Outcome State Fault Refusal :=
  takeRequest (.senseSet h output sel) h 30 (onOutput output (actSenseSet sel)) s

/-- A health record put in a state with nothing settled and nothing counted (07 R134, R135). -/
def HealthRecord.restate (health : Health) (r : HealthRecord) : HealthRecord :=
  { r with health, settled := none, candidate := none, count := 0 }

/-- The output becomes EXCLUDED (07 R134). -/
def excluded (o : Fin 192) (station : Fin 16) (s : State) : State :=
  healthChanged o (s.outputs.get o).sense.health .exclude none (some station)
    (s.modOutput o fun x => { x with sense := x.sense.restate .excluded })

/-- EXCLUDE (07 R134). -/
def actExclude (h : Header) (o : Fin 192) (s : State) : Result :=
  if (s.outputs.get o).sense.health = .excluded then .ok s else .ok (excluded o h.station s)

def execExclude (h : Header) (output : Nat) (s : State) : Host.Outcome State Fault Refusal :=
  takeRequest (.exclude h output) h 31 (onOutput output (actExclude h)) s

/-- The output becomes UNKNOWN with its drive on (07 R135). -/
def included (o : Fin 192) (station : Fin 16) (s : State) : State :=
  healthChanged o (s.outputs.get o).sense.health .incl none (some station)
    (s.modOutput o fun x => { x with sense := x.sense.restate .unknown, driveOn := true })

/-- INCLUDE (07 R135). -/
def actInclude (h : Header) (o : Fin 192) (s : State) : Result :=
  match (s.outputs.get o).sense.health with
  | .excluded => .ok (included o h.station s)
  | .failedShort => .ok (included o h.station s)
  | _ => .refuse .state

def execInclude (h : Header) (output : Nat) (s : State) : Host.Outcome State Fault Refusal :=
  takeRequest (.includeOutput h output) h 32 (onOutput output (actInclude h)) s

/-- The last fault record, zeros when there is none (07 R138, log 12). Its class goes by the order of 07 R136 (DESIGN
CHOICE, log 40). -/
def lastFaultFields (f : Option LastFault) : List Field :=
  match f with
  | some x =>
    [fieldBool true, fieldNat 1 x.cls.faultCode, fieldNat 2 x.z16, fieldOpt 1 (x.state.map ShowState.code),
     fieldOpt 3 x.time]
  | none => [fieldBool false, fieldNat 1 0, fieldNat 2 0, fieldOpt 1 none, fieldOpt 3 none]

def Thresholds.fields (t : Thresholds) : List Field :=
  [fieldNat 2 t.shortMax, fieldNat 2 t.lowDrift, fieldNat 2 t.highDrift, fieldNat 2 t.openMin]

/-- LOCKED and UNLOCKED in the order of 07 R127. -/
def ReturnLane.fields (r : ReturnLane) : List Field :=
  [fieldNat 1 (if r.locked then 0 else 1), fieldNat 1 r.run, fieldNat 1 r.malformed.toNat]

/-- The fields of HEALTH QUERY (07 R138). The settled class and the candidate go by the order of 07 R131 (DESIGN CHOICE,
log 40). -/
def State.healthFields (s : State) (o : Fin 192) : List Field :=
  let x := s.outputs.get o
  [fieldNat 1 x.sense.health.code, fieldOpt 1 (x.sense.settled.map LineClass.code),
   fieldOpt 1 (x.sense.candidate.map LineClass.code), fieldNat 1 x.sense.count, fieldOpt 2 x.sense.lastZ,
   fieldNat 1 x.sense.openFaults.toNat, fieldNat 1 x.sense.shortFaults.toNat, fieldNat 1 x.sense.lowFaults.toNat,
   fieldNat 1 x.sense.highFaults.toNat] ++ lastFaultFields x.sense.lastFault ++
  [fieldBool x.driveOn, fieldBool x.figures.pilot] ++ x.thresholds.fields ++ (s.returnLanes.get (returnLaneOf o)).fields

/-- HEALTH QUERY (07 R138). -/
def actHealthQuery (o : Fin 192) (s : State) : Result := .accept s false (s.healthFields o)

def execHealthQuery (h : Header) (output : Nat) (s : State) : Host.Outcome State Fault Refusal :=
  takeRequest (.healthQuery h output) h 33 (onOutput output actHealthQuery) s

/-! ### Power -/

/-- The banks and the reserve a BUDGET SET leaves (08 R142). -/
def Budget.select (b : Budget) (sel : BudgetSel) : Setting Budget :=
  let mains := selectNat 0 65535 sel.mains b.mains
  let generator := selectNat 0 65535 sel.generator b.generator
  let battery := selectNat 0 65535 sel.battery b.battery
  let low := selectNat 0 65535 sel.batteryLow b.batteryLow
  let reserve := selectNat 0 65535 sel.reserve b.reserve
  { value :=
      { b with
        mains := mains.value, generator := generator.value, battery := battery.value, batteryLow := low.value,
        reserve := reserve.value }
    clamped := mains.clamped || generator.clamped || battery.clamped || low.clamped || reserve.clamped }

/-- The values are stored, and the grants computed again when A changes (08 R142). -/
def setBudget (b : Budget) (s : State) : State :=
  let t := { s with budget := b }
  if b.available = s.budget.available then t else recompute .budget t

/-- BUDGET SET (08 R142). -/
def actBudgetSet (sel : BudgetSel) (s : State) : Result :=
  let b := s.budget.select sel
  .accept (setBudget b.value s) b.clamped []

def execBudgetSet (h : Header) (sel : BudgetSel) (s : State) : Host.Outcome State Fault Refusal :=
  takeRequest (.budgetSet h sel) h 34 (actBudgetSet sel) s

/-- The place of a screen in the rank, 1 for the first demander (08 R149). -/
def State.place (s : State) (n : Fin 12) : Option Nat :=
  (s.ranked.findIdx? fun d => decide (d.screen = n)).map fun i => i + 1

/-- The last change record, zeros when there is none (08 R149, log 12). -/
def lastChangeFields (c : Option LastChange) : List Field :=
  match c with
  | some x => [fieldBool true, fieldNat 1 x.status.code, fieldNat 1 x.supply.code, fieldNat 2 x.available]
  | none => [fieldBool false, fieldNat 1 0, fieldNat 1 0, fieldNat 2 0]

/-- The fields of one screen (08 R149). -/
def State.grantFields (s : State) (n : Fin 12) : List Field :=
  let g := s.grants.get n
  let c := s.screens.get n
  [fieldNat 1 g.status.code, fieldNat 2 g.draw, fieldNat 1 c.config.priority, fieldNat 2 c.config.fullDraw,
   fieldNat 2 c.config.reducedDraw, fieldNat 4 c.stamp, fieldOpt 1 (s.place n), fieldNat 1 g.sheds.toNat,
   fieldNat 1 g.suspends.toNat] ++ lastChangeFields g.lastChange

/-- The sum of all grants (08 R149). -/
def State.grantSum (s : State) : Nat := (s.grants.items.map Grant.draw).sum

/-- The fields of POWER QUERY (08 R149). The twelve screens go in ascending order without a count (DESIGN CHOICE,
log 12). -/
def State.powerFields (s : State) : List Field :=
  let b := s.budget
  [fieldBool b.supply1, fieldBool b.supply2, fieldNat 1 b.supply.code, fieldNat 2 b.mains, fieldNat 2 b.generator,
   fieldNat 2 b.battery, fieldNat 2 b.batteryLow, fieldNat 2 b.reserve, fieldNat 2 b.available, fieldNat 2 s.grantSum,
   fieldNat 2 (b.available - s.grantSum)] ++ ((List.finRange 12).map s.grantFields).flatten

/-- POWER QUERY (08 R149). -/
def actPowerQuery (s : State) : Result := .accept s false s.powerFields

def execPowerQuery (h : Header) (s : State) : Host.Outcome State Fault Refusal :=
  takeRequest (.powerQuery h) h 35 actPowerQuery s

end Sys2Proof.Machine
end

