-- ==== Sys2Proof/Machine/ExecCues.lean ====
section
/-! DEFINITION. The meanings of the requests of the Cue Engine (09 R154 to R157) and of the Booth Line Driver
(09 R167). -/

namespace Sys2Proof.Machine

/-! ### Cues -/

/-- The trigger a CUE ADD carries: none when a value is outside its list; a late show time is clamped
(09 R154 checks 3 and 4). -/
def readCueTrigger : RawTrigger → Option (Setting Trigger)
  | .time t => some { value := .time (min t Config.maxShowTime), clamped := decide (Config.maxShowTime < t) }
  | .state c => (CueEvent.all[c]?).map fun e => { value := .state e, clamped := false }
  | .alarm c => (AlarmKind.all[c]?).map fun k => { value := .alarm k, clamped := false }
  | .call n => if 1 ≤ n ∧ n ≤ 255 then some { value := .call n, clamped := false } else none

/-- The action a CUE ADD carries: none when its line is outside 1 to 8; a length and a level are clamped
(09 R154 checks 3 and 4). -/
def readCueAction : RawAction → Option (Setting Action)
  | .lineOn l => (ident 8 l).map fun x => { value := .lineOn x, clamped := false }
  | .lineOff l => (ident 8 l).map fun x => { value := .lineOff x, clamped := false }
  | .linePulse l length =>
    (ident 8 l).map fun x =>
      { value := .linePulse x (settingNat 1 65535 length).value, clamped := (settingNat 1 65535 length).clamped }
  | .houseLevel v =>
    some { value := .houseLevel (settingNat 0 100 v).value, clamped := (settingNat 0 100 v).clamped }
  | .noticeOnly => some { value := .noticeOnly, clamped := false }

/-- A label of at most 12 characters from 0x20 to 0x7E (09 R152). -/
def labelValid (label : List Byte) : Bool :=
  decide (label.length ≤ 12) && label.all fun b => decide (0x20 ≤ b.toNat) && decide (b.toNat ≤ 0x7E)

/-- The chase flag: off or on, and on for a TIME trigger alone (09 R154 check 3, log 13). -/
def chaseValid (chase : Nat) (trigger : Trigger) : Bool := decide (chase = 0) || (decide (chase = 1) && trigger.isTime)

/-- The state in which a new entry enters (09 R154). -/
def State.entryState (s : State) (n : Fin 12) (trigger : Trigger) : Option CueState :=
  match trigger with
  | .time t =>
    let passed := ((s.cues.get n).clock.map fun c => decide (t ≤ c)).getD false
    match (s.screens.get n).state with
    | .show => some (if passed then .skipped else .armed)
    | .paused => some (if passed then .skipped else .armed)
    | _ => some .armed
  | _ => none

/-- An entry taken from the free set, filled, and placed in its list (09 R153, R154). -/
def addCue (e : Fin 512) (c : Cue) (s : State) : State :=
  let t := s.setCue e c
  t.modCues c.screen fun x =>
    match c.trigger with
    | .time time => { x with timeList := placeByTime t time e x.timeList }
    | _ => { x with eventList := x.eventList ++ [e] }

/-- CUE ADD once its trigger, action, chase flag and label are read (09 R154 check 5 and acceptance). -/
def placeCue (n : Fin 12) (trigger : Setting Trigger) (action : Setting Action) (chase : Bool) (label : List Byte)
    (s : State) : Result :=
  match s.freeCues with
  | [] => .refuse .noroom
  | e :: _ =>
    let c : Cue :=
      { screen := n, trigger := trigger.value, action := action.value, chase, label,
        state := s.entryState n trigger.value }
    .accept (addCue e c s) (trigger.clamped || action.clamped)
      [fieldNat 2 (number e), fieldCond 1 (c.state.map CueState.code)]

/-- CUE ADD from its third check on (09 R154). -/
def addCueChecked (trigger : RawTrigger) (action : RawAction) (chase : Nat) (label : List Byte) (n : Fin 12)
    (s : State) : Result :=
  match readCueTrigger trigger, readCueAction action with
  | some t, some a =>
    if labelValid label && chaseValid chase t.value then placeCue n t a (decide (chase = 1)) label s
    else .refuse .range
  | _, _ => .refuse .range

/-- CUE ADD (09 R154). -/
def execCueAdd (h : Header) (screen : Nat) (trigger : RawTrigger) (action : RawAction) (chase : Nat)
    (label : List Byte) (s : State) : Host.Outcome State Fault Refusal :=
  takeRequest (.cueAdd h screen trigger action chase label) h 36
    (onScreen screen (ofHolderOrManagement h (addCueChecked trigger action chase label))) s

/-- The entry is in one of the screen's lists (09 R155). -/
def State.listed (s : State) (n : Fin 12) (e : Fin 512) : Bool :=
  (s.cues.get n).timeList.contains e || (s.cues.get n).eventList.contains e

/-- CUE REMOVE after its holder check (09 R155). -/
def removeCue (entry : Nat) (n : Fin 12) (s : State) : Result :=
  match ident 512 entry with
  | none => .refuse .range
  | some e => if s.listed n e then .ok (freeCue n e s) else .refuse .range

/-- CUE REMOVE (09 R155). -/
def execCueRemove (h : Header) (screen entry : Nat) (s : State) : Host.Outcome State Fault Refusal :=
  takeRequest (.cueRemove h screen entry) h 37 (onScreen screen (ofHolderOrManagement h (removeCue entry))) s

/-- The entries of a screen in list order: the time list, then the event list (09 R157). -/
def CueScreen.entries (c : CueScreen) : List (Fin 512) := c.timeList ++ c.eventList

/-- Both lists emptied (09 R156). -/
def clearCues (n : Fin 12) (s : State) : State :=
  { s with
    pool := s.pool.update fun e c => if (s.cues.get n).entries.contains e then none else c
    cues := s.cues.modify n fun x => { x with timeList := [], eventList := [] } }

/-- CUE CLEAR after its holder check (09 R156). -/
def clearCueLists (n : Fin 12) (s : State) : Result :=
  if (s.screens.get n).state = .show then .refuse .state
  else .accept (clearCues n s) false [fieldNat 2 (s.cues.get n).entries.length]

/-- CUE CLEAR (09 R156). -/
def execCueClear (h : Header) (screen : Nat) (s : State) : Host.Outcome State Fault Refusal :=
  takeRequest (.cueClear h screen) h 38 (onScreen screen (ofHolderOrManagement h clearCueLists)) s

/-- The fields of one entry (09 R157). -/
def State.cueFields (s : State) (e : Fin 512) : List Field :=
  match s.pool.get e with
  | some c =>
    fieldNat 2 (number e) :: c.trigger.fields ++ c.action.fields ++ (fieldBool c.chase :: labelFields c.label) ++
      [fieldCond 1 (c.state.map CueState.code)]
  | none => []

/-- The entries of one answer, from a start position (09 R157, log 22). -/
def CueScreen.page (c : CueScreen) (start : Nat) : List (Fin 512) := (c.entries.drop (start - 1)).take 6

/-- The position after the entries of one answer, none when the lists are done (09 R157). -/
def CueScreen.nextPosition (c : CueScreen) (start : Nat) : Option Nat :=
  if max start 1 + 6 ≤ c.entries.length then some (max start 1 + 6) else none

/-- The fields of CUE QUERY (09 R157). -/
def State.cueQueryFields (s : State) (start : Nat) (n : Fin 12) : List Field :=
  let c := s.cues.get n
  fieldList 1 ((c.page start).map s.cueFields) ++
  [fieldOpt 2 (c.nextPosition start), fieldNat 2 c.timeList.length, fieldNat 2 c.eventList.length,
   fieldNat 2 s.freeCues.length, fieldOpt 3 c.clock, fieldNat 1 c.lastCall, fieldNat 2 c.lastFired]

/-- CUE QUERY (09 R157). -/
def actCueQuery (start : Nat) (n : Fin 12) (s : State) : Result := .accept s false (s.cueQueryFields start n)

def execCueQuery (h : Header) (screen start : Nat) (s : State) : Host.Outcome State Fault Refusal :=
  takeRequest (.cueQuery h screen start) h 39 (onScreen screen (actCueQuery start)) s

/-! ### Booth lines -/

/-- A request on a line, after its holder check: a number outside 1 to 8 is refused with RANGE (09 R167). -/
def onLine (line : Nat) (act : Fin 8 → State → Result) (s : State) : Result :=
  match ident 8 line with
  | none => .refuse .range
  | some l => act l s

/-- The length of a LINE SET's pulse, clamped; 0 for ON and OFF (09 R167). -/
def commandLength : LineCommand → Setting Nat
  | .on => { value := 0, clamped := false }
  | .off => { value := 0, clamped := false }
  | .pulse length => settingNat 1 65535 length

/-- The value a LINE SET commands (09 R165). -/
def commandValue : LineCommand → Bool
  | .on => true
  | .off => false
  | .pulse _ => true

/-- LINE SET on a line (09 R165, R167). -/
def setLine (command : LineCommand) (n : Fin 12) (l : Fin 8) (s : State) : Result :=
  .accept (s.modLine n l (BoothLine.command (commandValue command) (commandLength command).value))
    (commandLength command).clamped []

/-- LINE SET: the screen, the holder check of 01 R4, then the line (09 R167). -/
def execLineSet (h : Header) (screen line : Nat) (command : LineCommand) (s : State) :
    Host.Outcome State Fault Refusal :=
  takeRequest (.lineSet h screen line command) h 40
    (onScreen screen (ofHolderOrManagement h fun n => onLine line (setLine command n))) s

/-- LINE EVAC SET on a line (09 R167). -/
def setLineEvac (setting : Nat) (n : Fin 12) (l : Fin 8) (s : State) : Result :=
  match EvacSetting.ofCode setting with
  | none => .refuse .range
  | some e => .ok (s.modLine n l fun x => { x with setting := e })

/-- LINE EVAC SET (09 R167). -/
def execLineEvacSet (h : Header) (screen line setting : Nat) (s : State) : Host.Outcome State Fault Refusal :=
  takeRequest (.lineEvacSet h screen line setting) h 41
    (onScreen screen fun n => onLine line (setLineEvac setting n)) s

/-- The four fields of a line (09 R165). -/
def BoothLine.fields (l : BoothLine) : List Field :=
  [fieldBool l.commanded, fieldNat 2 l.pulse, fieldNat 1 l.setting.code, fieldBool l.output]

/-- LINE QUERY (09 R167). The eight lines go in order without a count (DESIGN CHOICE, log 12). -/
def actLineQuery (n : Fin 12) (s : State) : Result :=
  .accept s false (((s.booth.get n).items.map BoothLine.fields).flatten ++ [fieldBool s.evac])

def execLineQuery (h : Header) (screen : Nat) (s : State) : Host.Outcome State Fault Refusal :=
  takeRequest (.lineQuery h screen) h 42 (onScreen screen actLineQuery) s

end Sys2Proof.Machine
end

