-- ==== Sys2Proof/Machine/ExecCalibration.lean ====
section
/-! DEFINITION. The meanings of the requests of the Calibration Unit (10 R171, R172, R176, R177). -/

namespace Sys2Proof.Machine

/-- The target a request names on a screen: one of its outputs, or REFERENCE; none when out of range (10 R171,
R172). -/
def State.readTarget (s : State) (n : Fin 12) (target : Option Nat) : Option Target :=
  match target with
  | none => some .reference
  | some k =>
    match ident 192 k with
    | none => none
    | some o => if (s.outputs.get o).screen = some n then some (.output o) else none

/-- A request on a target of a screen (10 R171, R172). -/
def onTarget (target : Option Nat) (act : Target → Fin 12 → State → Result) (n : Fin 12) (s : State) : Result :=
  match s.readTarget n target with
  | none => .refuse .range
  | some t => act t n s

/-- The gain a TONE leaves: the carried one clamped into -40 to 0, or the one in force (10 R171). -/
def toneGainOf (carried : Option Int) (kept : Int) : Setting Int :=
  match carried with
  | some g => settingInt (-40) 0 g
  | none => { value := kept, clamped := false }

/-- TONE from its holder check on (10 R171). -/
def setTone (h : Header) (on : Bool) (gain : Option Int) (t : Target) (n : Fin 12) (s : State) : Result :=
  if !s.holds n h.station then .refuse .held
  else if (s.screens.get n).state ≠ .calibrating then .refuse .state
  else if s.evac then .refuse .evac
  else if s.context.onScreen n then .refuse .busy
  else
    let g := toneGainOf gain s.toneGain
    .accept { setTones (s.targetOutputs n t) on s with toneGain := g.value } g.clamped []

/-- TONE: SET is 0 and CLEAR 1; another code names nothing (10 R171, log 13). -/
def actTone (h : Header) (target : Option Nat) (action : Nat) (gain : Option Int) (n : Fin 12) (s : State) : Result :=
  onTarget target
    (fun t n s => if 1 < action then .refuse .range else setTone h (decide (action = 0)) gain t n s) n s

def execTone (h : Header) (screen : Nat) (target : Option Nat) (action : Nat) (gain : Option Int) (s : State) :
    Host.Outcome State Fault Refusal :=
  takeRequest (.tone h screen target action gain) h 43 (onScreen screen (actTone h target action gain)) s

/-- The target is out of service (10 R172 check 9). -/
def State.targetOut (s : State) (n : Fin 12) (t : Target) : Bool :=
  (s.targetOutputs n t).isEmpty || (s.targetOutputs n t).any fun o => !(s.outputs.get o).inService

/-- The context of an accepted MEASURE (10 R172). -/
def Context.begin (n : Fin 12) (t : Target) (station : Fin 16) : Context :=
  { phase := .wait, screen := some n, target := some t, station := some station, count := 0, micSum := 0,
    targetSum := 0, background := none }

/-- MEASURE from its holder check on (10 R172). No interval event of the new measurement has been taken (log 2). -/
def beginMeasure (h : Header) (t : Target) (n : Fin 12) (s : State) : Result :=
  if !s.holds n h.station then .refuse .held
  else if (s.screens.get n).state ≠ .calibrating then .refuse .state
  else if s.context.inFlight then .refuse .busy
  else if s.evac then .refuse .evac
  else if (s.lanes.get measurementLane).sync ≠ .locked then .refuse .lane
  else if (s.grants.get n).status = .suspended then .refuse .nopower
  else if s.targetOut n t then .refuse .state
  else .ok { clearTones n s with context := Context.begin n t h.station, measureStepped := false }

/-- MEASURE (10 R172). -/
def execMeasure (h : Header) (screen : Nat) (target : Option Nat) (s : State) : Host.Outcome State Fault Refusal :=
  takeRequest (.measure h screen target) h 44 (onScreen screen (onTarget target (beginMeasure h))) s

/-- ABORT (10 R176). -/
def actAbort (h : Header) (n : Fin 12) (s : State) : Result :=
  if !s.holds n h.station then .refuse .held
  else if s.context.onScreen n then .ok (abortMeasurement .abort s)
  else .refuse .state

def execAbort (h : Header) (screen : Nat) (s : State) : Host.Outcome State Fault Refusal :=
  takeRequest (.abort h screen) h 45 (onScreen screen (actAbort h)) s

/-- MIC SET; without a value it answers the offset in force (10 R176). -/
def actMicSet (value : Option Int) (s : State) : Result :=
  match value with
  | some v => .accept { s with micOffset := (settingInt (-128) 127 v).value } (settingInt (-128) 127 v).clamped []
  | none => .accept s false [.num 1 s.micOffset]

def execMicSet (h : Header) (value : Option Int) (s : State) : Host.Outcome State Fault Refusal :=
  takeRequest (.micSet h value) h 46 (actMicSet value) s

/-- The context's target: a presence byte for none, and within it the target (10 R172, log 12). -/
def targetFields (t : Option Target) : List Field :=
  [fieldBool t.isSome, (t.map Target.field).getD (fieldOpt 1 none)]

/-- The fields of the context (10 R172). -/
def Context.fields (c : Context) : List Field :=
  [fieldNat 1 c.phase.code, fieldOpt 1 (c.screen.map number)] ++ targetFields c.target ++
  [fieldOpt 1 (stationField c.station), fieldNat 1 c.count, fieldNat 6 c.micSum, fieldNat 7 c.targetSum,
   fieldOpt 1 c.background]

/-- The tone flag and the measured sensitivity of each output of a screen, in ascending order of output number and
without the numbers (10 R177; order and form are a DESIGN CHOICE, log 12). A set flag is 1 and a clear one 0 (DEDUCED,
log 11). -/
def State.sensitivityFields (s : State) (n : Fin 12) : List Field :=
  fieldList 1
    ((s.outputsOf n).map fun o => [fieldBool (s.outputs.get o).toneFlag, .opt 1 (s.outputs.get o).sensitivity])

/-- The fields of CALIBRATION QUERY (10 R177). -/
def State.calibrationFields (s : State) (n : Option (Fin 12)) : List Field :=
  s.context.fields ++
  [.num 1 s.toneGain, .num 1 s.micOffset, fieldNat 1 (s.lanes.get measurementLane).sync.code] ++
  condFields (n.map s.sensitivityFields)

/-- CALIBRATION QUERY (10 R177). -/
def actCalibrationQuery (screen : Option Nat) (s : State) : Result :=
  match screen with
  | none => .accept s false (s.calibrationFields none)
  | some k =>
    match ident 12 k with
    | none => .refuse .range
    | some n => .accept s false (s.calibrationFields (some n))

def execCalibrationQuery (h : Header) (screen : Option Nat) (s : State) : Host.Outcome State Fault Refusal :=
  takeRequest (.calibrationQuery h screen) h 47 (actCalibrationQuery screen) s

end Sys2Proof.Machine
end

