-- ==== Sys2Proof/Machine/Dispatch.lean ====
section
/-! DEFINITION. `exec`: the meaning of every command, one arm for each row of spec/opcode_table.json. -/

namespace Sys2Proof.Machine

def exec (i : Instr) (s : State) : Host.Outcome State Fault Refusal :=
  match i with
  | .powerOnReset lines => Sys2Proof.Machine.execPowerOnReset lines s
  | .evacAsserted => Sys2Proof.Machine.execEvacAsserted s
  | .evacReleased => Sys2Proof.Machine.execEvacReleased s
  | .houseBlock inp => Sys2Proof.Machine.execHouseBlock inp s
  | .referenceLost inp => Sys2Proof.Machine.execReferenceLost inp s
  | .referenceRegained => Sys2Proof.Machine.execReferenceRegained s
  | .intervalEvent => Sys2Proof.Machine.execIntervalEvent s
  | .fadeStep screen => Sys2Proof.Machine.execFadeStep screen s
  | .fadeCompletion screen => Sys2Proof.Machine.execFadeCompletion screen s
  | .pulseEnd screen line => Sys2Proof.Machine.execPulseEnd screen line s
  | .selftestCompletion fault0 fault1 => Sys2Proof.Machine.execSelftestCompletion fault0 fault1 s
  | .activityLost lane => Sys2Proof.Machine.execActivityLost lane s
  | .activitySeen lane => Sys2Proof.Machine.execActivitySeen lane s
  | .blockFound lane block position sinceHouse => Sys2Proof.Machine.execBlockFound lane block position sinceHouse s
  | .laneBlockEvent lane block sinceHouse screensLast => Sys2Proof.Machine.execLaneBlockEvent lane block sinceHouse screensLast s
  | .automaticStart event => Sys2Proof.Machine.execAutomaticStart event s
  | .measurePhaseEnd => Sys2Proof.Machine.execMeasurePhaseEnd s
  | .measurementResult => Sys2Proof.Machine.execMeasurementResult s
  | .returnBlockEvent lane aux => Sys2Proof.Machine.execReturnBlockEvent lane aux s
  | .frameReceived port bytes => Sys2Proof.Machine.execFrameReceived port bytes s
  | .frameSent port supply1 supply2 => Sys2Proof.Machine.execFrameSent port supply1 supply2 s
  | .unknownRequest h kind => Sys2Proof.Machine.execUnknownRequest h kind s
  | .enable h screen => Sys2Proof.Machine.execEnable h screen s
  | .disable h screen => Sys2Proof.Machine.execDisable h screen s
  | .hold h screen => Sys2Proof.Machine.execHold h screen s
  | .calibrate h screen => Sys2Proof.Machine.execCalibrate h screen s
  | .free h screen => Sys2Proof.Machine.execFree h screen s
  | .start h screen => Sys2Proof.Machine.execStart h screen s
  | .pause h screen => Sys2Proof.Machine.execPause h screen s
  | .resume h screen => Sys2Proof.Machine.execResume h screen s
  | .endShow h screen rate => Sys2Proof.Machine.execEnd h screen rate s
  | .level h screen value => Sys2Proof.Machine.execLevel h screen value s
  | .screenSet h screen sel => Sys2Proof.Machine.execScreenSet h screen sel s
  | .screenQuery h screen => Sys2Proof.Machine.execScreenQuery h screen s
  | .laneSet h lane mask => Sys2Proof.Machine.execLaneSet h lane mask s
  | .laneQuery h lane => Sys2Proof.Machine.execLaneQuery h lane s
  | .outputMap h output assign => Sys2Proof.Machine.execOutputMap h output assign s
  | .outputQuery h output => Sys2Proof.Machine.execOutputQuery h output s
  | .layoutSet h code sources => Sys2Proof.Machine.execLayoutSet h code sources s
  | .layoutQuery h code => Sys2Proof.Machine.execLayoutQuery h code s
  | .pagingSet h value => Sys2Proof.Machine.execPagingSet h value s
  | .routeQuery h screen => Sys2Proof.Machine.execRouteQuery h screen s
  | .tuneLoad h output trim polarity sections delay => Sys2Proof.Machine.execTuneLoad h output trim polarity sections delay s
  | .trim h output value => Sys2Proof.Machine.execTrim h output value s
  | .tuneQuery h output start => Sys2Proof.Machine.execTuneQuery h output start s
  | .gainQuery h screen => Sys2Proof.Machine.execGainQuery h screen s
  | .storeQuery h start => Sys2Proof.Machine.execStoreQuery h start s
  | .offsetSet h screen value => Sys2Proof.Machine.execOffsetSet h screen value s
  | .levelQuery h screen output => Sys2Proof.Machine.execLevelQuery h screen output s
  | .alarmSet h screen sel => Sys2Proof.Machine.execAlarmSet h screen sel s
  | .alarmQuery h screen => Sys2Proof.Machine.execAlarmQuery h screen s
  | .senseSet h output sel => Sys2Proof.Machine.execSenseSet h output sel s
  | .exclude h output => Sys2Proof.Machine.execExclude h output s
  | .includeOutput h output => Sys2Proof.Machine.execInclude h output s
  | .healthQuery h output => Sys2Proof.Machine.execHealthQuery h output s
  | .budgetSet h sel => Sys2Proof.Machine.execBudgetSet h sel s
  | .powerQuery h => Sys2Proof.Machine.execPowerQuery h s
  | .cueAdd h screen trigger action chase label => Sys2Proof.Machine.execCueAdd h screen trigger action chase label s
  | .cueRemove h screen entry => Sys2Proof.Machine.execCueRemove h screen entry s
  | .cueClear h screen => Sys2Proof.Machine.execCueClear h screen s
  | .cueQuery h screen start => Sys2Proof.Machine.execCueQuery h screen start s
  | .lineSet h screen line command => Sys2Proof.Machine.execLineSet h screen line command s
  | .lineEvacSet h screen line setting => Sys2Proof.Machine.execLineEvacSet h screen line setting s
  | .lineQuery h screen => Sys2Proof.Machine.execLineQuery h screen s
  | .tone h screen target action gain => Sys2Proof.Machine.execTone h screen target action gain s
  | .measure h screen target => Sys2Proof.Machine.execMeasure h screen target s
  | .abort h screen => Sys2Proof.Machine.execAbort h screen s
  | .micSet h value => Sys2Proof.Machine.execMicSet h value s
  | .calibrationQuery h screen => Sys2Proof.Machine.execCalibrationQuery h screen s
  | .subscribe h kinds screens => Sys2Proof.Machine.execSubscribe h kinds screens s
  | .portStatus h => Sys2Proof.Machine.execPortStatus h s
  | .markSet h value => Sys2Proof.Machine.execMarkSet h value s
  | .markQuery h => Sys2Proof.Machine.execMarkQuery h s
  | .restart h => Sys2Proof.Machine.execRestart h s

end Sys2Proof.Machine
end

