-- ==== Sys2Proof/Machine/Step.lean ====
section
/-! DEFINITION. `step`: the command at the front of the queue, run on the state with the rest of the queue; on an empty
queue the block idles (log 1). -/

namespace Sys2Proof.Machine

/-- One step of the block (log 1). -/
def step (s : State) : Host.Outcome State Fault Refusal :=
  match s.pending with
  | [] => .next s
  | c :: rest => exec c { s with pending := rest }

/-- The command that a word of the table spells, put at the front of the queue; no row of this table has bits, so no
word spells one. -/
def State.withFetchWord (s : State) (nbits w : Nat) : State :=
  match decodeTableWord nbits w with
  | some c => { s with pending := c :: s.pending }
  | none => s

end Sys2Proof.Machine
end

