-- ==== Sys2Proof/Safety.lean ====
section
/-! DEFINITION. The bytes in which a request is sent, the laws of the part that the spec's rules own, as properties of a
state, and the words in which the statements about requests are made. -/

namespace Sys2Proof

open Machine

/-! ### Requests as bytes (11 R180) -/

/-- A part of a request's body (11 R180): bytes that stand as they are, the presence byte of a field that may be omitted
or whose value may be a mark, and the count of a list. -/
inductive Part where
  | plain (bytes : List Byte)
  | presence (there : Bool)
  | count (n : Nat)
deriving DecidableEq, Repr

def Part.bytes : Part → List Byte
  | .plain l => l
  | .presence true => [1#8]
  | .presence false => [0#8]
  | .count n => beBytes 1 n

/-- The bytes of a body's parts in their order. -/
def bodyOf (parts : List Part) : List Byte := (parts.map Part.bytes).flatten

/-- A field of `n` bytes that every body of the request carries (11 R180). -/
def fixed (n : Nat) (v : Int) : List Part := [.plain (beBytes n v)]

/-- A field that a request may carry or omit, of `n` bytes (11 R180). -/
def omittable (n : Nat) : Option Int → List Part
  | some v => [.presence true, .plain (beBytes n v)]
  | none => [.presence false]

/-- A number that a request may carry or omit. -/
def omittableNat (n : Nat) (v : Option Nat) : List Part := omittable n (v.map Int.ofNat)

/-- A list of items after its count (11 R180). -/
def counted {α : Type} (item : α → List Byte) (l : List α) : List Part := [.count l.length, .plain (l.map item).flatten]

/-- The source of a role: its code, its form and the slots and steps of the form (11 R180). -/
def RoleSource.body (r : RoleSource) : List Byte :=
  beBytes 1 r.role ++
    match r.source with
    | .none => [0#8]
    | .one i g => 1#8 :: (beBytes 1 i ++ beBytes 1 g)
    | .two i gi j gj => 2#8 :: (beBytes 1 i ++ beBytes 1 gi ++ beBytes 1 j ++ beBytes 1 gj)

def Section.body (c : Section) : List Byte :=
  beBytes 3 c.b0 ++ beBytes 3 c.b1 ++ beBytes 3 c.b2 ++ beBytes 3 c.a1 ++ beBytes 3 c.a2

/-- A trigger: its form and the value the form needs (09 R152, log 12). -/
def RawTrigger.body : RawTrigger → List Byte
  | .time t => 0#8 :: beBytes 3 t
  | .state c => 1#8 :: beBytes 1 c
  | .alarm c => 2#8 :: beBytes 1 c
  | .call n => 3#8 :: beBytes 1 n

/-- An action: its form and the values the form needs (09 R152, log 12). -/
def RawAction.body : RawAction → List Byte
  | .lineOn l => 0#8 :: beBytes 1 l
  | .lineOff l => 1#8 :: beBytes 1 l
  | .linePulse l n => 2#8 :: (beBytes 1 l ++ beBytes 2 n)
  | .houseLevel v => 3#8 :: beBytes 1 v
  | .noticeOnly => [4#8]

def LineCommand.body : LineCommand → List Byte
  | .on => [0#8]
  | .off => [1#8]
  | .pulse n => 2#8 :: beBytes 2 n

/-- A target of TONE or MEASURE: an output, or the mark REFERENCE and a zero byte (11 R180). -/
def targetParts : Option Nat → List Part
  | some o => .presence true :: fixed 1 o
  | none => [.presence false, .plain [0#8]]

/-- The body of a request as a station sends it: its fields in the order in which its rule names them, by 11 R180
(widths and orders: logs 11 and 12). An event has none. -/
def Instr.parts : Instr → List Part
  | .enable _ n => fixed 1 n
  | .disable _ n => fixed 1 n
  | .hold _ n => fixed 1 n
  | .calibrate _ n => fixed 1 n
  | .free _ n => fixed 1 n
  | .start _ n => fixed 1 n
  | .pause _ n => fixed 1 n
  | .resume _ n => fixed 1 n
  | .endShow _ n rate => fixed 1 n ++ omittableNat 1 rate
  | .level _ n v => fixed 1 n ++ fixed 1 v
  | .screenSet _ n c =>
    fixed 1 n ++ omittableNat 1 c.priority ++ omittableNat 2 c.fullDraw ++ omittableNat 2 c.reducedDraw ++
      omittableNat 1 c.shedAtt ++ omittableNat 1 c.fadeRate ++ omittableNat 2 c.lipSync ++ omittableNat 1 c.permit ++
      omittableNat 1 c.laneLevel ++ omittableNat 1 c.defaultLayout
  | .screenQuery _ n => fixed 1 n
  | .laneSet _ l mask => fixed 1 l ++ fixed 2 mask.toNat
  | .laneQuery _ l => fixed 1 l
  | .outputMap _ o assign =>
    fixed 1 o ++
      match assign with
      | some (n, r) => .presence true :: (fixed 1 n ++ fixed 1 r)
      | none => [.presence false, .plain [0#8, 0#8]]
  | .outputQuery _ o => fixed 1 o
  | .layoutSet _ c sources => fixed 1 c ++ counted RoleSource.body sources
  | .layoutQuery _ c => fixed 1 c
  | .pagingSet _ v => omittable 1 v
  | .routeQuery _ n => fixed 1 n
  | .tuneLoad _ o g p sections delay =>
    fixed 1 o ++ fixed 1 g ++ fixed 1 p ++ counted Section.body sections ++ fixed 2 delay
  | .trim _ o v => fixed 1 o ++ fixed 1 v
  | .tuneQuery _ o p => fixed 1 o ++ fixed 1 p
  | .gainQuery _ n => fixed 1 n
  | .storeQuery _ p => fixed 2 p
  | .offsetSet _ n v => fixed 1 n ++ omittable 1 v
  | .levelQuery _ n o => fixed 1 n ++ omittableNat 1 o
  | .alarmSet _ n c =>
    fixed 1 n ++ omittableNat 1 c.peakLimit ++ omittableNat 1 c.loudLimit ++ omittableNat 1 c.silenceFloor ++
      omittableNat 1 c.silenceRun ++ omittableNat 2 c.clipLimit ++ omittableNat 1 c.raiseHold ++
      omittableNat 1 c.clearHold ++ omittableNat 1 c.autoTrim ++ omittableNat 1 c.trimMax
  | .alarmQuery _ n => fixed 1 n
  | .senseSet _ o c =>
    fixed 1 o ++ omittableNat 2 c.shortMax ++ omittableNat 2 c.lowDrift ++ omittableNat 2 c.highDrift ++
      omittableNat 2 c.openMin
  | .exclude _ o => fixed 1 o
  | .includeOutput _ o => fixed 1 o
  | .healthQuery _ o => fixed 1 o
  | .budgetSet _ c =>
    omittableNat 2 c.mains ++ omittableNat 2 c.generator ++ omittableNat 2 c.battery ++ omittableNat 2 c.batteryLow ++
      omittableNat 2 c.reserve
  | .powerQuery _ => [.plain [0#8]]
  | .cueAdd _ n trigger action chase label =>
    fixed 1 n ++ [.plain trigger.body, .plain action.body] ++ fixed 1 chase ++ counted (fun b => [b]) label
  | .cueRemove _ n e => fixed 1 n ++ fixed 2 e
  | .cueClear _ n => fixed 1 n
  | .cueQuery _ n p => fixed 1 n ++ fixed 2 p
  | .lineSet _ n l command => fixed 1 n ++ fixed 1 l ++ [.plain command.body]
  | .lineEvacSet _ n l setting => fixed 1 n ++ fixed 1 l ++ fixed 1 setting
  | .lineQuery _ n => fixed 1 n
  | .tone _ n target action gain => fixed 1 n ++ targetParts target ++ fixed 1 action ++ omittable 1 gain
  | .measure _ n target => fixed 1 n ++ targetParts target
  | .abort _ n => fixed 1 n
  | .micSet _ v => omittable 1 v
  | .calibrationQuery _ n => omittableNat 1 n
  | .subscribe _ kinds screens => fixed 2 kinds.toNat ++ fixed 2 screens.toNat
  | .portStatus _ => [.plain [0#8]]
  | .markSet _ v => fixed 1 v
  | .markQuery _ => [.plain [0#8]]
  | .restart _ => [.plain [0#8]]
  | _ => []

/-- The bytes of a request's body (11 R180). -/
def Instr.body (i : Instr) : List Byte := bodyOf i.parts

end Sys2Proof

namespace Sys2Proof.Machine

/-! ### Requests -/

/-- The header of a request and its kind, the position in the rights table of 11 R184; none for an event and for
UNKNOWN_REQUEST. -/
def requestOf : Instr → Option (Header × Nat)
  | .enable h _ => some (h, 1)
  | .disable h _ => some (h, 2)
  | .hold h _ => some (h, 3)
  | .calibrate h _ => some (h, 4)
  | .free h _ => some (h, 5)
  | .start h _ => some (h, 6)
  | .pause h _ => some (h, 7)
  | .resume h _ => some (h, 8)
  | .endShow h _ _ => some (h, 9)
  | .level h _ _ => some (h, 10)
  | .screenSet h _ _ => some (h, 11)
  | .screenQuery h _ => some (h, 12)
  | .laneSet h _ _ => some (h, 13)
  | .laneQuery h _ => some (h, 14)
  | .outputMap h _ _ => some (h, 15)
  | .outputQuery h _ => some (h, 16)
  | .layoutSet h _ _ => some (h, 17)
  | .layoutQuery h _ => some (h, 18)
  | .pagingSet h _ => some (h, 19)
  | .routeQuery h _ => some (h, 20)
  | .tuneLoad h _ _ _ _ _ => some (h, 21)
  | .trim h _ _ => some (h, 22)
  | .tuneQuery h _ _ => some (h, 23)
  | .gainQuery h _ => some (h, 24)
  | .storeQuery h _ => some (h, 25)
  | .offsetSet h _ _ => some (h, 26)
  | .levelQuery h _ _ => some (h, 27)
  | .alarmSet h _ _ => some (h, 28)
  | .alarmQuery h _ => some (h, 29)
  | .senseSet h _ _ => some (h, 30)
  | .exclude h _ => some (h, 31)
  | .includeOutput h _ => some (h, 32)
  | .healthQuery h _ => some (h, 33)
  | .budgetSet h _ => some (h, 34)
  | .powerQuery h => some (h, 35)
  | .cueAdd h _ _ _ _ _ => some (h, 36)
  | .cueRemove h _ _ => some (h, 37)
  | .cueClear h _ => some (h, 38)
  | .cueQuery h _ _ => some (h, 39)
  | .lineSet h _ _ _ => some (h, 40)
  | .lineEvacSet h _ _ _ => some (h, 41)
  | .lineQuery h _ => some (h, 42)
  | .tone h _ _ _ _ => some (h, 43)
  | .measure h _ _ => some (h, 44)
  | .abort h _ => some (h, 45)
  | .micSet h _ => some (h, 46)
  | .calibrationQuery h _ => some (h, 47)
  | .subscribe h _ _ => some (h, 48)
  | .portStatus h => some (h, 49)
  | .markSet h _ => some (h, 50)
  | .markQuery h => some (h, 51)
  | .restart h => some (h, 52)
  | _ => none

/-- The Port Controller hands the request to its owner: its port takes it, the station's role is allowed its kind, and
its body fits (11 R182, R183). -/
def State.ready (s : State) (i : Instr) (h : Header) (kind : Nat) : Prop :=
  (s.ports.get h.port).canTake i = true ∧ allowed kind h.station = true ∧ h.fits = true

/-- The state with the request in hand on its port (11 R182). -/
def State.taking (s : State) (i : Instr) (h : Header) : State := s.modPort h.port (Port.hold i)

/-- The state once the answer is formed and handed to the port's transmitter (11 R182). -/
def State.answering (s : State) (h : Header) (a : Answer) : State := s.modPort h.port (Port.answerWith a)

/-- The answer DONE with a CLAMPED flag and fields (11 R180, R183). -/
def doneAnswer (h : Header) (kind : Nat) (clamped : Bool) (fields : List Field) : Answer :=
  { station := h.station, tag := h.tag, kind, outcome := .done, clamped, fields }

/-- The answer that refuses: the reason, a flags byte of 0 and no fields (11 R183). -/
def refusalAnswer (h : Header) (kind : Nat) (why : Reason) : Answer :=
  { station := h.station, tag := h.tag, kind, outcome := why, clamped := false, fields := [] }

/-- A request answered with no other change of state. -/
def State.replying (s : State) (i : Instr) (h : Header) (a : Answer) : State := (s.taking i h).answering h a

/-- A request refused: nothing changes but its port's answer (11 R183). -/
def State.refusing (s : State) (i : Instr) (h : Header) (kind : Nat) (why : Reason) : State :=
  s.replying i h (refusalAnswer h kind why)

/-- The SHOW notice of a request (01 R26). -/
def requestNotice (n : Fin 12) (state previous : ShowState) (holder : Option (Fin 16)) (cause : ShowCause)
    (station : Fin 16) : Notice :=
  .showN n state previous holder cause (some station) none none

/-- Notices handed to every port, one after the other (11 R185). -/
def tell (notices : List Notice) (ports : Tab Port 4) : Tab Port 4 :=
  notices.foldl (fun t n => t.map (Port.offer n)) ports

/-- The WITHDRAWN ALARM notices of a screen's alarms, one for each kind that is RAISED or CLEARING, in the order of the
kinds (06 R116). -/
def withdrawals (n : Fin 12) (a : Alarms) : List Notice :=
  AlarmKind.all.filterMap fun k =>
    let r := a.records.get k.ix
    if r.state = .raised ∨ r.state = .clearing then
      some (.alarm n k .withdrawn .clear r.state r.raises r.lastShow r.detail false)
    else none

/-- The Decoder-Router's part of an accepted word: a defined layout becomes the one the lane holds (03 R56). -/
def routed (n : Fin 12) (w : SideWord) (s : State) : State :=
  if (s.layoutRecord w.layout).isSome = true then s.modRoute n fun a => { a with source := .lane, held := some w.layout } else s

/-- The Screen Controller's part of a word accepted on Pn that makes no automatic start be attempted: the last rolling
field takes its flag, the level request is judged, and its byte is stored (01 R13, R21). -/
def Screen.tookWord (w : SideWord) (c : Screen) : Screen :=
  { c with
    lastRolling := some (decide (w.flags % 2 = 1)), lastLevel := w.level,
    level :=
      if c.config.laneLevel = true ∧ (c.state = .show ∨ c.state = .paused) ∧ w.level ≤ 100 ∧ w.level ≠ c.lastLevel then
        w.level
      else c.level }

/-- A word makes an automatic start on the screen be attempted: a rolling edge, on an ARMED screen with the standing permit
(01 R13, R14). -/
def Screen.rolls (w : SideWord) (c : Screen) : Prop :=
  w.flags % 2 = 1 ∧ c.lastRolling ≠ some true ∧ c.state = .armed ∧ c.config.permit = true

/-- `r` is what the Screen Controller makes of `x` with an accepted word on Pn, at the acceptance itself (01 R13, R14, R15,
R21; the notice of a start that was refused is log 23's, and that the SHOW notice of a start follows its POWER and CUE
notices log 6's). -/
def ScreenTakes (n : Fin 12) (w : SideWord) (x r : State) : Prop :=
  (¬(x.screens.get n).rolls w → r = x.modScreen n (Screen.tookWord w)) ∧
  ((x.screens.get n).rolls w → ∀ why,
    (x.evac = true ∧ why = .evac ∨ x.evac = false ∧ (x.lanes.get (programLane n)).delivering = false ∧ why = .lane ∨
      x.evac = false ∧ (x.lanes.get (programLane n)).delivering = true ∧
        ((candidate n .show (x.screens.get n).holder x).allot.get n).status = .suspended ∧ why = .nopower) →
    r = (x.notify (.showN n .armed .armed (x.screens.get n).holder .auto none (some why) none)).modScreen n
      (Screen.tookWord w)) ∧
  ((x.screens.get n).rolls w → x.evac = false → (x.lanes.get (programLane n)).delivering = true →
    ((candidate n .show (x.screens.get n).holder x).allot.get n).status ≠ .suspended →
    r = ((startCues n
        { recompute .demand (candidate n .show (x.screens.get n).holder x) with
          meters := x.meters.modify n fun m =>
            { m with
              segmentSum := 0, segmentFill := 0, ring := [], windowSum := 0, windowLevel := 0, windowSpl := 0, showMax := 0 }
          alarms := x.alarms.modify n fun a =>
            { a with records := a.records.map fun k => { k with phase := 0 }, silenceRun := 0, loudTrim := 0 }
          routes := x.routes.modify n fun a => { a with source := .default } }).notify
        (.showN n .show .armed (x.screens.get n).holder .auto none none none)).modScreen n (Screen.tookWord w))

/-- `r` is what the acceptance of a good side word on lane l makes of `x`, in one event: on Pn the word is the lane's
accepted word; the Screen Controller takes it, the Decoder-Router takes its layout code where the record is defined, and the
Cue Engine takes it; with `screensLast` the Screen Controller comes after the other two. PG and MS accept none (02 R35, R40,
03 R56, 09 R158; the order of the readers is log 7's, that of their notices logs 6's and 7's, and the notice of a start that
was refused log 23's). -/
def Accepts (l : Fin 14) (side : List Byte) (screensLast : Bool) (x r : State) : Prop :=
  (laneScreen l = none → r = x) ∧
  ∀ n w y, laneScreen l = some n → w = readSideWord side → y = x.modLane l (fun a => { a with accepted := some w }) →
    (screensLast = false → ∃ z, ScreenTakes n w y z ∧ r = takeWord n w (routed n w z)) ∧
    (screensLast = true → ScreenTakes n w (takeWord n w (routed n w y)) r)

/-- A port's transmitter holds, or is to send, this answer (11 R182). -/
def Port.hasAnswer (p : Port) (a : Answer) : Prop := p.answer = some a ∨ p.tx = some (.answer a)

/-- The state and phase count of an alarm record after a run of judgements of its condition (06 R113). -/
def alarmAfter (raiseHold clearHold : Nat) (x : AlarmState × Nat) (conds : List Bool) : AlarmState × Nat :=
  conds.foldl (fun y b =>
    ((alarmStep raiseHold clearHold b y.1 y.2).1, (alarmStep raiseHold clearHold b y.1 y.2).2.1)) x

/-- The grants are those of the computation of 08 R144 on the state as it stands. -/
def State.granted (s : State) : Prop :=
  ∀ n, (s.grants.get n).status = (s.allot.get n).status ∧ (s.grants.get n).draw = (s.allot.get n).draw

/-! ### Laws -/

/-- 01 R3 for one screen. -/
def Screen.heldRightly (c : Screen) : Prop :=
  match c.state with
  | .offline => c.holder = none
  | .dark => c.holder = none
  | .calibrating => ∃ h, c.holder = some h ∧ roleOf h = .service
  | _ => ∃ h, c.holder = some h ∧ roleOf h ≠ .service

/-- The law of holding (01 R3). -/
def HoldingLaw (s : State) : Prop := ∀ n, (s.screens.get n).heldRightly

/-- While EVAC is active, no screen is in SHOW, PAUSED or ENDING (01 R22). -/
def EvacLaw (s : State) : Prop := s.evac = true → ∀ n, (s.screens.get n).state.playing = false

/-- Stamps: a screen holds one exactly while it demands, none exceeds the counter, and no two screens hold the same
(01 R11, 08 R143). -/
def StampLaw (s : State) : Prop :=
  s.stampCounter ≤ Config.maxStamp ∧
  (∀ n, (s.screens.get n).stamp ≠ 0 ↔ (s.screens.get n).state.demands = true) ∧
  (∀ n, (s.screens.get n).stamp ≤ s.stampCounter) ∧
  (∀ n m, (s.screens.get n).stamp ≠ 0 → (s.screens.get n).stamp = (s.screens.get m).stamp → n = m)

/-- The grants fit the available draw, and a screen outside SHOW, PAUSED, ENDING and CALIBRATING has grant 0
(08 R144). -/
def PowerLaw (s : State) : Prop :=
  s.grantSum ≤ s.budget.available ∧
  ∀ n, (s.screens.get n).state.demands = false → (s.grants.get n).draw = 0

/-- Every booth line sends the value it is to show: while EVAC is active, its evacuation setting when that is not
NONE, and otherwise its commanded value (09 R166). -/
def BoothLaw (s : State) : Prop := ∀ n l, (s.line n l).output = (s.line n l).shown s.evac

/-- Notice queues hold at most 32 and receive queues at most 4 (11 R182, R186). -/
def QueueLaw (s : State) : Prop := ∀ p, (s.ports.get p).notices.length ≤ 32 ∧ (s.ports.get p).queue.length ≤ 4

/-- The show time of a TIME entry, 0 for another. -/
def State.cueTime (s : State) (e : Fin 512) : Nat := ((s.timeEntry e).map Prod.fst).getD 0

/-- Every entry in use stands once in the one list that its screen and trigger give it, every list entry is in use, and
every time list is ordered by show time (09 R151). -/
def CueLaw (s : State) : Prop :=
  (∀ n e, e ∈ (s.cues.get n).timeList ↔ ∃ c, s.pool.get e = some c ∧ c.screen = n ∧ c.trigger.isTime = true) ∧
  (∀ n e, e ∈ (s.cues.get n).eventList ↔ ∃ c, s.pool.get e = some c ∧ c.screen = n ∧ c.trigger.isTime = false) ∧
  (∀ n, (s.cues.get n).timeList.Nodup ∧ (s.cues.get n).eventList.Nodup) ∧
  (∀ n, (s.cues.get n).timeList.Pairwise fun a b => s.cueTime a ≤ s.cueTime b)

/-- Every page list holds ceil(effective delay / 128) pages of the store that are not BAD, each page once and in one
list alone, and every delay line holds the effective delay. While the self-test runs no page is in a list and none is
BAD. The BAD pages, and the faults found by a self-test that has tested two pages in each of its house blocks, are
pages of the store, each once (04 R75, R85, R88). -/
def PageLaw (s : State) : Prop :=
  (∀ o, (s.outputs.get o).pages.length = pagesFor (s.effectiveDelay o)) ∧
  (∀ o, (s.outputs.get o).line.length = s.effectiveDelay o) ∧
  (∀ o, (s.outputs.get o).pages.Nodup) ∧
  (∀ o p, p ∈ (s.outputs.get o).pages → p < Config.pageCount ∧ p ∉ s.badPages) ∧
  (∀ o o' p, p ∈ (s.outputs.get o).pages → p ∈ (s.outputs.get o').pages → o = o') ∧
  (s.selftest.running = true →
    s.badPages = [] ∧ s.selftest.blocks < Config.selftestBlocks ∧ ∀ o, (s.outputs.get o).pages = []) ∧
  s.badPages.Nodup ∧ (∀ p ∈ s.badPages, p < Config.pageCount) ∧
  s.selftest.faults.Nodup ∧ (∀ p ∈ s.selftest.faults, p < 2 * s.selftest.blocks)

/-- The measurement in flight, if any, is on a CALIBRATING screen, on an output of it or its reference group; an idle
context holds its reset values; a set tone flag stands on an output of a CALIBRATING screen (10 R171, R172). -/
def CalibrationLaw (s : State) : Prop :=
  (s.context.inFlight = false → s.context = Context.reset) ∧
  (s.context.inFlight = true →
    ∃ n t, s.context.screen = some n ∧ s.context.target = some t ∧ (s.screens.get n).state = .calibrating ∧
      ∀ o, t = .output o → (s.outputs.get o).screen = some n) ∧
  (∀ o, (s.outputs.get o).toneFlag = true →
    ∃ n, (s.outputs.get o).screen = some n ∧ (s.screens.get n).state = .calibrating)

/-- What a lane holds in each sync state (the tables before 02 R30, and 02 R30 to R37). `program` is true for P1 to
P12. -/
def Lane.lawful (program : Bool) (x : Lane) : Prop :=
  match x.sync with
  | .nosignal =>
    x.alignment = none ∧ x.good = none ∧ x.bad = none ∧ x.skew = none ∧ x.store = [] ∧ x.accepted = none
  | .hunt => x.alignment = none ∧ x.good = none ∧ x.bad = none ∧ x.skew = none ∧ x.store = [] ∧ x.accepted = none
  | .probation =>
    x.alignment.isSome = true ∧ (x.good = some 1 ∨ x.good = some 2) ∧ x.bad = none ∧ x.skew.isSome = true ∧
      x.store = [] ∧ x.accepted = none
  | .locked =>
    x.alignment.isSome = true ∧ x.good = none ∧ x.bad = none ∧ x.skew.isSome = true ∧ x.store.length ≤ 4 ∧
      x.accepted.isSome = program
  | .flywheel =>
    x.alignment.isSome = true ∧ x.good = none ∧ (∃ k, x.bad = some k ∧ 1 ≤ k ∧ k ≤ 4) ∧ x.skew.isSome = true ∧
      x.store.length ≤ 4 ∧ x.accepted.isSome = program

/-- Every lane holds what its sync state allows (02 R30 to R37). -/
def LaneLaw (s : State) : Prop := ∀ l, (s.lanes.get l).lawful (laneScreen l).isSome

/-- The thresholds of every output stand in order and range, an output that is FAILED SHORT or has the settled class
SHORT has its drive enable off, and a health record counts reports exactly while it has a candidate, up to 3
(07 R129, R131, R132). -/
def SenseLaw (s : State) : Prop :=
  ∀ o, (s.outputs.get o).thresholds.shortMax < (s.outputs.get o).thresholds.lowDrift ∧
    (s.outputs.get o).thresholds.lowDrift ≤ (s.outputs.get o).thresholds.highDrift ∧
    (s.outputs.get o).thresholds.highDrift < (s.outputs.get o).thresholds.openMin ∧
    (s.outputs.get o).thresholds.openMin ≤ 4095 ∧
    (((s.outputs.get o).sense.health = .failedShort ∨ (s.outputs.get o).sense.settled = some .short) →
      (s.outputs.get o).driveOn = false) ∧
    ((s.outputs.get o).sense.candidate = none ↔ (s.outputs.get o).sense.count = 0) ∧
    (s.outputs.get o).sense.count ≤ 3

/-- The largest energy of a block of 48 samples, each of whose upper 16 bits are squared (05 R91). -/
def maxEnergy : Nat := 48 * 2 ^ 30

/-- The largest block sum: 32 outputs of the largest energy, which is 1.5 × 2^40 (03 R48, 05 R94). -/
def maxBlockSum : Nat := 32 * maxEnergy

/-- The largest interval sum, of 1024 blocks (05 R95). -/
def maxIntervalSum : Nat := 1024 * maxBlockSum

/-- The sums, levels and SPL codes of one screen's meter, with the blocks it has closed in the interval
(05 R94 to R100). -/
def Meter.lawful (closed : Nat) (m : Meter) : Prop :=
  (m.blockSum ≤ maxBlockSum ∧ m.intervalSum ≤ closed * maxBlockSum) ∧
  (m.segmentFill ≤ 31 ∧ m.segmentSum ≤ m.segmentFill * maxIntervalSum) ∧
  (m.ring.length ≤ 16 ∧ (∀ x ∈ m.ring, x ≤ 32 * maxIntervalSum) ∧ m.windowSum ≤ 512 * maxIntervalSum) ∧
  (m.blockLevel ≤ 245 ∧ m.intervalLevel ≤ 245 ∧ m.windowLevel ≤ 245) ∧
  (m.blockSpl ≤ 255 ∧ m.intervalSpl ≤ 255 ∧ m.windowSpl ≤ 255 ∧ m.showMax ≤ 255) ∧
  -128 ≤ m.offset ∧ m.offset ≤ 127

/-- Every level code is from 0 to 245 and every SPL code from 0 to 255 (05 R98), with what that rests on: blocks of 48
frames, at most 32 outputs of a screen (03 R48) when its block began and now, the bounds of the energies and sums, and
the count of the blocks closed in the interval (02 R42). The waiting commands are those the outside world can form. -/
def MeterLaw (s : State) : Prop :=
  (∀ i ∈ s.pending, i.wellFormed = true) ∧
  (∀ l, ∀ b ∈ (s.lanes.get l).store, b.length = 48) ∧
  (∀ n, (s.outputsOf n).length ≤ Config.screenOutputs) ∧
  (∀ n, ((List.finRange 192).filter fun o => decide ((s.outputs.get o).blockScreen = some n)).length ≤
    Config.screenOutputs) ∧
  (∀ o, (s.outputs.get o).energy ≤ maxEnergy ∧ (s.outputs.get o).running ≤ maxEnergy) ∧
  (s.blockClosed = true → ∀ o, (s.outputs.get o).running = 0) ∧
  (s.intervalTaken = true → s.blockClosed = true) ∧
  s.blockCount < Config.intervalBlocks ∧
  ∀ n, (s.meters.get n).lawful
    (s.blockCount + if s.blockClosed = true ∧ s.intervalTaken = false then 1 else 0)

end Sys2Proof.Machine
end

