-- ==== Sys2Proof/Certificates/Slice0/Obligations.lean ====
section
/-! DEFINITION. The statements about the model, one `Obligations.<Name>` each. `State.ready` says that the port takes the
request, the station's role is allowed it and its body fits; `State.replying` is a request answered with no other change;
`State.taking` and `State.answering` are its first and last moments around the owner's effects. -/

open Sys2Proof Sys2Proof.Machine

/-! ### The queue of commands and the Port Controller -/

/-- A step takes the command at the front of the queue and runs it on the state with the rest of the queue. -/
def Obligations.StepRunsFrontCommand : Prop :=
  ∀ (c : Instr) (rest : List Instr) (s : State),
    step { s with pending := c :: rest } = exec c { s with pending := rest }

/-- No command stops the part, and none changes the queue of waiting commands. On an empty queue the block idles (the
model's choice, log 1). -/
def Obligations.EveryCommandGoesOn : Prop :=
  (∀ (c : Instr) (s : State), ∃ t, exec c s = .next t ∧ t.pending = s.pending) ∧
  (∀ s : State, s.pending = [] → step s = .next s)

/-- A request that its port cannot take joins the receive queue; at a queue of 4 it is discarded unanswered and the
overrun count rises (11 R182; when a port can take a request is log 4's). -/
def Obligations.RequestsWaitTheirTurn : Prop :=
  ∀ (i : Instr) (h : Header) (kind : Nat) (s : State), requestOf i = some (h, kind) →
    (s.ports.get h.port).canTake i = false →
    exec i s = .next (s.modPort h.port fun p =>
      if p.queue.length < 4 then { p with queue := p.queue ++ [{ request := i, answered := false }] }
      else { p with overruns := p.overruns + 1 })

/-- Before its own rule is looked at, a request from a station whose role is not allowed it is refused with ROLE, and
one whose body does not fit with RANGE. A kind outside 1 to 52 is refused with UNKNOWN, whatever the station and the
body, when it comes to an empty queue or waits at the head of its port's queue; else it waits or overruns as any request
does. Nothing changes but the port's answer. Each kind is allowed the roles that the rights table marks, with stations 0
and 1 MANAGEMENT, 2 to 13 BOOTH, and 14 and 15 SERVICE (00, 11 R182, R183 checks 1 to 3, R184; when a port can take a
request is log 4's). -/
def Obligations.RefusedBeforeTheOwner : Prop :=
  (∀ st : Fin 16, roleOf st =
    if st.val ≤ 1 then .management else if st.val ≤ 13 then .booth else .service) ∧
  -- ENABLE, DISABLE, SCREEN SET, LANE SET, OUTPUT MAP, LAYOUT SET, PAGING SET, OFFSET SET, ALARM SET, BUDGET SET,
  -- LINE EVAC SET, MARK SET, RESTART
  (∀ kind ∈ [1, 2, 11, 13, 15, 17, 19, 26, 28, 34, 41, 50, 52], ∀ st,
    (allowed kind st = true ↔ roleOf st = .management)) ∧
  -- HOLD, START, PAUSE, RESUME, END, LEVEL, CUE ADD, CUE REMOVE, CUE CLEAR
  (∀ kind ∈ [3, 6, 7, 8, 9, 10, 36, 37, 38], ∀ st,
    (allowed kind st = true ↔ roleOf st = .management ∨ roleOf st = .booth)) ∧
  -- CALIBRATE, TONE, MEASURE, ABORT, MIC SET
  (∀ kind ∈ [4, 43, 44, 45, 46], ∀ st, (allowed kind st = true ↔ roleOf st = .service)) ∧
  -- TUNE LOAD, SENSE SET, EXCLUDE, INCLUDE
  (∀ kind ∈ [21, 30, 31, 32], ∀ st,
    (allowed kind st = true ↔ roleOf st = .management ∨ roleOf st = .service)) ∧
  -- FREE, TRIM, LINE SET, SUBSCRIBE, PORT STATUS, MARK QUERY and the queries
  (∀ kind ∈ [5, 12, 14, 16, 18, 20, 22, 23, 24, 25, 27, 29, 33, 35, 39, 40, 42, 47, 48, 49, 51], ∀ st,
    allowed kind st = true) ∧
  (∀ (i : Instr) (h : Header) (kind : Nat) (s : State), requestOf i = some (h, kind) →
    (s.ports.get h.port).canTake i = true →
    (allowed kind h.station = false → exec i s = .next (s.refusing i h kind .role)) ∧
    (allowed kind h.station = true → h.fits = false → exec i s = .next (s.refusing i h kind .range))) ∧
  (∀ (h : Header) (k : Nat) (s : State), (k = 0 ∨ 52 < k) →
    ((s.ports.get h.port).canTake (.unknownRequest h k) = true →
      exec (.unknownRequest h k) s = .next (s.refusing (.unknownRequest h k) h k .unknown)) ∧
    ((s.ports.get h.port).queue = [] → (s.ports.get h.port).canTake (.unknownRequest h k) = true) ∧
    (∀ rest, (s.ports.get h.port).queue = { request := .unknownRequest h k, answered := false } :: rest →
      exec (.unknownRequest h k) s = .next (s.refusing (.unknownRequest h k) h k .unknown)) ∧
    ((s.ports.get h.port).canTake (.unknownRequest h k) = false →
      exec (.unknownRequest h k) s = .next (s.modPort h.port fun p =>
        if p.queue.length < 4 then
          { p with queue := p.queue ++ [{ request := .unknownRequest h k, answered := false }] }
        else { p with overruns := p.overruns + 1 })))

/-- SUBSCRIBE replaces the masks of its port and answers the old ones; PORT STATUS and MARK QUERY answer and change
nothing else; MARK SET stores the mark; RESTART is answered DONE, and nothing is restarted before the answer has been
sent. PORT STATUS carries the port's three counts, the requests and the notices that wait, the gap mark and the masks.
The fields of every notice are those of its kind's table, in the order of its rows: a field that is not always present
is headed by a presence byte, and a code is the position of its value in the table that lists it (01 R26, 02 R44, 06
R123, 07 R137, 08 R148, 09 R168, 10 R177, 11 R180, R185, R187, R188; mask flags that name nothing are dropped, log 28;
a code for each value is log 11's, or log 40's where several tables list it, line classes among them; and the fields'
widths and order are log 12's). -/
def Obligations.PortRequestsAnswered : Prop :=
  -- the fields of PORT STATUS
  (∀ p : Port, p.statusFields =
    [.num 1 p.badFrames.toNat, .num 1 p.overruns.toNat, .num 1 p.discarded.toNat, .num 1 p.queue.length,
      .num 1 p.notices.length, .num 1 p.gap.toNat, .flags p.kinds, .flags p.screens]) ∧
  -- codes are positions
  [ShowState.offline, .dark, .armed, .show, .paused, .ending, .calibrating, .evacuated].map ShowState.code =
    List.range 8 ∧
  [Sync.nosignal, .hunt, .probation, .locked, .flywheel].map Sync.code = List.range 5 ∧
  [Slip.underrun, .overrun].map Slip.code = [0, 1] ∧ [Clock.locked, .free].map Clock.code = [0, 1] ∧
  [Supply.mains, .generator, .battery, .batteryLow].map Supply.code = List.range 4 ∧
  [GrantStatus.none, .full, .shed, .suspended].map GrantStatus.code = List.range 4 ∧
  Role.all.map Role.code = List.range' 1 12 ∧
  [SourceKind.silence, .program, .paging, .tone].map SourceKind.code = List.range 4 ∧
  [SilenceReason.unmapped, .outOfService, .noProgram, .paused, .noTone, .suspended, .lane, .evacOther].map
    SilenceReason.code = List.range 8 ∧
  [LayoutSource.default, .lane].map LayoutSource.code = [0, 1] ∧
  [RoleService.unmapped, .inService, .out].map RoleService.code = List.range 3 ∧
  [BasePart.none, .shed, .loud].map BasePart.code? = [none, some 0, some 1] ∧
  [LineClass.good, .low, .high, .open, .short].map LineClass.code = List.range 5 ∧
  [LineClass.open, .short, .low, .high].map LineClass.faultCode = List.range 4 ∧
  [Health.unknown, .good, .suspect, .driftingLow, .driftingHigh, .failedOpen, .failedShort, .excluded,
    .unsensed].map Health.code = List.range 9 ∧
  [AlarmKind.peak, .loud, .silent, .clip, .lane, .speaker, .power].map (fun k => k.ix.val) = List.range 7 ∧
  [AlarmState.clear, .pending, .raised, .clearing].map AlarmState.code = List.range 4 ∧
  [CueEvent.start, .pause, .resume, .endBegin, .endDone].map CueEvent.code = List.range 5 ∧
  [CueState.armed, .fired, .skipped].map CueState.code = List.range 3 ∧
  [EvacSetting.none, .on, .off].map EvacSetting.code = List.range 3 ∧
  [Phase.idle, .wait, .quiet, .settle, .measure].map Phase.code = List.range 5 ∧
  [ShowCause.request, .auto, .takeover, .fade, .evac, .release].map ShowCause.code = List.range 6 ∧
  [AlarmCause.raise, .clear, .withdrawn].map AlarmCause.code = List.range 3 ∧
  [HealthCause.report, .laneLost, .laneFound, .exclude, .incl].map HealthCause.code = List.range 5 ∧
  [PowerCause.supply, .budget, .settings, .demand].map PowerCause.code = List.range 4 ∧
  [LaneCause.lost, .activity, .found, .good, .bad, .expired].map LaneCause.code = List.range 6 ∧
  [AbortCause.abort, .freed, .evac, .power, .excluded, .failed, .lane].map AbortCause.code = List.range 7 ∧
  -- the fields of the notices
  (∀ (n : Fin 12) st prev holder cause station refusal mx,
    (Notice.showN n st prev holder cause station refusal mx).fields =
      [.num 1 (n.val + 1 : Nat), .num 1 st.code, .num 1 prev.code, .opt 1 (holder.map fun h => Int.ofNat h.val),
        .num 1 cause.code, .cond 1 (station.map fun h => Int.ofNat h.val),
        .cond 1 (refusal.map fun x => Int.ofNat x.code), .cond 1 (mx.map Int.ofNat)]) ∧
  (∀ (n : Fin 12) k cause st prev raises time detail attention,
    (Notice.alarm n k cause st prev raises time detail attention).fields =
      ([.num 1 (n.val + 1 : Nat), .num 1 k.ix.val, .num 1 cause.code, .num 1 st.code, .num 1 prev.code,
        .num 1 raises.toNat, .opt 3 (time.map Int.ofNat)] : List Field) ++ ((detail.map AlarmDetail.fields).getD []) ++
      ([.num 1 attention.toNat] : List Field)) ∧
  (∀ level, (AlarmDetail.spl level).fields = [.num 1 level]) ∧ (∀ k, (AlarmDetail.clips k).fields = [.num 2 k]) ∧
  (∀ x k slip, (AlarmDetail.lane x k slip).fields =
    [.num 1 x.code, .num 2 k, .opt 1 (slip.map fun y => Int.ofNat y.code)]) ∧
  (∀ o short, (AlarmDetail.speaker o short).fields = [.num 1 (o.val + 1 : Nat), .num 1 short.toNat]) ∧
  (∀ x, (AlarmDetail.power x).fields = [.num 1 x.code]) ∧
  (∀ t, (Trigger.time t).fields = [.num 1 0, .num 3 t]) ∧ (∀ e, (Trigger.state e).fields = [.num 1 1, .num 1 e.code]) ∧
  (∀ k, (Trigger.alarm k).fields = [.num 1 2, .num 1 k.ix.val]) ∧ (∀ k, (Trigger.call k).fields = [.num 1 3, .num 1 k]) ∧
  (∀ l, (Action.lineOn l).fields = [.num 1 0, .num 1 (l.val + 1 : Nat)] ∧
    (Action.lineOff l).fields = [.num 1 1, .num 1 (l.val + 1 : Nat)] ∧
    ∀ k, (Action.linePulse l k).fields = [.num 1 2, .num 1 (l.val + 1 : Nat), .num 2 k]) ∧
  (∀ v, (Action.houseLevel v).fields = [.num 1 3, .num 1 v]) ∧ Action.noticeOnly.fields = [.num 1 4] ∧
  (∀ label, labelFields label = .num 1 label.length :: label.map fun b => .num 1 b.toNat) ∧
  (∀ (n : Fin 12) (e : Fin 512) (c : Cue) time (change : CueChange) (code : Int),
    (change = .fired e c ∧ code = 0 ∨ change = .skipped e c ∧ code = 1) →
    (Notice.cue n change time).fields =
      ([.num 1 (n.val + 1 : Nat), .num 1 code, .cond 2 (some (e.val + 1 : Nat))] : List Field) ++
      (Field.num 1 1 :: c.trigger.fields) ++ (Field.num 1 1 :: c.action.fields) ++ (Field.num 1 1 :: labelFields c.label) ++
      ([.num 3 (time.getD 0 : Nat), .cond 3 none, .cond 3 none, .cond 2 none] : List Field)) ∧
  (∀ (n : Fin 12) (old new count : Nat) time, (Notice.cue n (.rearmed old new count) time).fields =
    [.num 1 (n.val + 1 : Nat), .num 1 2, .cond 2 none, .cond 1 none, .cond 1 none, .cond 1 none,
      .num 3 (time.getD 0 : Nat), .cond 3 (some old), .cond 3 (some new), .cond 2 (some count)]) ∧
  (∀ (o : Fin 192) (n : Option (Fin 12)) st prev cause z station,
    (Notice.health o n st prev cause z station).fields =
      [.num 1 (o.val + 1 : Nat), .opt 1 (n.map fun x => Int.ofNat (x.val + 1)), .num 1 st.code, .num 1 prev.code,
        .num 1 cause.code, .cond 2 (z.map Int.ofNat), .cond 1 (station.map fun h => Int.ofNat h.val)]) ∧
  (∀ (n : Fin 12) st prev (grant : Nat) supply (available : Nat) cause,
    (Notice.power n st prev grant supply available cause).fields =
      [.num 1 (n.val + 1 : Nat), .num 1 st.code, .num 1 prev.code, .num 2 grant, .num 1 supply.code,
        .num 2 available, .num 1 cause.code]) ∧
  (∀ (l : Fin 14) st prev cause slips, (Notice.lane l st prev cause slips).fields =
    [.num 1 (l.val + 1 : Nat), .num 1 st.code, .num 1 prev.code, .num 1 cause.code, .num 1 slips.toNat]) ∧
  (∀ st prev, (Notice.site (.clock st prev)).fields = [.num 1 0, .num 1 st.code, .num 1 prev.code, .cond 2 none]) ∧
  (∀ st prev (a : Nat), (Notice.site (.supply st prev a)).fields =
    [.num 1 1, .num 1 st.code, .num 1 prev.code, .cond 2 (some a)]) ∧
  (∀ st prev, (Notice.site (.evac st prev)).fields =
    [.num 1 2, .num 1 st.toNat, .num 1 prev.toNat, .cond 2 none]) ∧
  (∀ (n : Fin 12) g e (rest : List Field),
    ((∃ (b m o spl : Nat) (x : Int), e = .ok b m o spl x ∧ rest =
        [.num 1 0, .cond 1 none, .cond 1 none, .cond 1 (some b), .cond 1 (some m), .cond 1 (some o), .cond 1 (some spl),
          .cond 1 (some x)]) ∨
      (∃ b m o : Nat, e = .noisy b m o ∧ rest =
        [.num 1 1, .cond 1 none, .cond 1 none, .cond 1 (some b), .cond 1 (some m), .cond 1 (some o), .cond 1 none,
          .cond 1 none]) ∨
      ∃ cause phase b, e = .aborted cause phase b ∧ rest =
        [.num 1 2, .cond 1 (some cause.code), .cond 1 (some phase.code), .cond 1 (b.map Int.ofNat), .cond 1 none,
          .cond 1 none, .cond 1 none, .cond 1 none]) →
    (Notice.measure n g e).fields = .num 1 (n.val + 1 : Nat) :: g.field :: rest) ∧
  (∀ o, (Target.output o).field = .opt 1 (some (o.val + 1 : Nat))) ∧ Target.reference.field = .opt 1 none ∧
  (∀ good bad : Nat, (Notice.selftest good bad).fields = [.num 2 good, .num 2 bad]) ∧
  ∀ (h : Header) (s : State),
    (∀ kinds screens, s.ready (.subscribe h kinds screens) h 48 →
      exec (.subscribe h kinds screens) s =
        .next (((s.taking (.subscribe h kinds screens) h).modPort h.port fun p =>
            { p with kinds := kinds &&& 0x01FF#16, screens := screens &&& 0x0FFF#16 }).answering h
          (doneAnswer h 48 false [.flags (s.ports.get h.port).kinds, .flags (s.ports.get h.port).screens]))) ∧
    (s.ready (.portStatus h) h 49 →
      exec (.portStatus h) s =
        .next (s.replying (.portStatus h) h
          (doneAnswer h 49 false ((s.taking (.portStatus h) h).ports.get h.port).statusFields))) ∧
    (∀ v, v ≤ 255 → s.ready (.markSet h v) h 50 →
      exec (.markSet h v) s =
        .next (({ s.taking (.markSet h v) h with mark := v } : State).answering h (doneAnswer h 50 false []))) ∧
    (s.ready (.markQuery h) h 51 →
      exec (.markQuery h) s = .next (s.replying (.markQuery h) h (doneAnswer h 51 false [.num 1 s.mark]))) ∧
    (s.ready (.restart h) h 52 →
      exec (.restart h) s = .next (s.replying (.restart h) h (doneAnswer h 52 false [])))

/-- FRAME_RECEIVED: bytes join those gathered, and a hunting receiver passes over all but a start mark; a frame not yet
whole is gathered; a whole good request frame joins the queue or overruns it; a bad length, a bad check and a frame of
another type are counted, and the hunt goes on from the byte after the start mark; the bytes behind a frame are taken
as those of the next, and so is whatever follows, until none is left. FRAME_SENT: on an idle transmitter it changes
nothing; a sent notice leaves it, a sent answer takes its request from the queue, and a sent DONE of a RESTART restarts
the part, keeping the self-test and the BAD pages. A notice that a port's masks admit joins its queue, of which a full
one of 32 first loses its oldest, counts it and sets the gap mark; the next notice sent carries the mark and clears it;
an idle transmitter begins the waiting answer, or, while no request waits for its answer, the oldest notice. A frame is
good when every byte came with a good stop bit and its last two are the CRC (LaneSearch) of those between the start
mark and them; its request has the station, the tag, the kind and the fields that its bytes spell, every request having
its body. No body fits that ends before its fields, goes on after them, has a presence byte above 1 before a field that
may be omitted or be a mark, or counts a list otherwise than it is. A byte travels as a start bit, eight data bits,
least significant first, and a stop bit. A sent frame is its start mark, length, type with the station for an answer,
tag, kind, body and check; an answer's body is the outcome's code, the flags byte and the fields, a notice's its gap
mark as the flags byte, and the fields (11 R179, R180, R181, R182, R183, R185, R186, R188). The model's are: the
fields' widths and order (logs 11 and 12), the list that gives a value its code where several name it (log 40), a too
long answer's length byte, a free value (log 15), the start and stop bits' levels (log 39), that a frame waits to be
taken (log 4), when an idle transmitter begins (log 5), the hunt after another type (log 16), the frames that a bad
stop bit spoils (log 17), and that a RESTART resets every port and keeps EVAC as held (log 32). -/
def Obligations.FramesReceivedAndSent : Prop :=
  -- bytes on the line
  (∀ (x : LineByte) (k : Nat), k < 8 → x.val.getLsbD k = x.bits.getLsbD (k + 1)) ∧
  (∀ x : LineByte, x.stop = x.bits.getLsbD 9) ∧
  (∀ b : Byte, (sentByte b).bits.getLsbD 0 = false ∧ (sentByte b).val = b ∧ (sentByte b).stop = true) ∧
  (∀ (port : Fin 4) (bytes : List LineByte), (Instr.frameReceived port bytes).wellFormed = true ↔
    bytes ≠ [] ∧ ∀ x ∈ bytes, x.bits.getLsbD 0 = false) ∧
  (∀ f : TxFrame, f.line = f.bytes.map sentByte) ∧
  -- sent frames
  (∀ (f : TxFrame) (second tag kind : Byte) (body : List Byte),
    (∀ a, f = .answer a → second.toNat = 16 + a.station.val ∧ tag = a.tag ∧ kind = BitVec.ofNat 8 a.kind ∧
      body = BitVec.ofNat 8 a.outcome.code :: (if a.clamped = true then 1#8 else 0#8) ::
        (a.fields.map Field.bytes).flatten) →
    (∀ n gap, f = .notice n gap → second = 0x20#8 ∧ tag = 0 ∧ kind = BitVec.ofNat 8 n.kind ∧
      body = (if gap = true then 1#8 else 0#8) :: (n.fields.map Field.bytes).flatten) →
    ∃ length hi lo : Byte, f.bytes = 0x7E#8 :: (length :: second :: tag :: kind :: body) ++ [hi, lo] ∧
      (body.length ≤ 247 → length.toNat = body.length + 3) ∧
      (crc (length :: second :: tag :: kind :: body)).toNat = 256 * hi.toNat + lo.toNat) ∧
  [Reason.done, .role, .held, .state, .range, .noroom, .nopower, .busy, .starting, .evac, .lane, .unknown].map
    Reason.code = List.range 12 ∧
  (∀ n : Notice, n.kind = match n with
    | .showN .. => 1 | .alarm .. => 2 | .cue .. => 3 | .health .. => 4 | .power .. => 5 | .lane .. => 6
    | .site .. => 7 | .measure .. => 8 | .selftest .. => 9) ∧
  (∀ k v, (Field.num k v).bytes = beBytes k v ∧ (Field.opt k (some v)).bytes = 1#8 :: beBytes k v ∧
    (Field.opt k none).bytes = 0#8 :: List.replicate k 0#8 ∧ (Field.cond k (some v)).bytes = 1#8 :: beBytes k v ∧
    (Field.cond k none).bytes = [0#8]) ∧
  (∀ m : BitVec 16, (Field.flags m).bytes = [m.extractLsb' 8 8, m.extractLsb' 0 8]) ∧
  -- a whole frame and its request
  (∀ (start : Byte) (body : List Byte) (hi lo : Byte) (f : List LineByte), f.map LineByte.val = start :: body ++ [hi, lo] →
    (frameHolds f = true ↔ (∀ x ∈ f, x.stop = true) ∧ (crc body).toNat = 256 * hi.toNat + lo.toNat)) ∧
  (∀ (port : Fin 4) (station : Fin 16) (start length second tag kind hi lo : Byte) (body : List Byte) (f : List LineByte),
    f.map LineByte.val = start :: length :: second :: tag :: kind :: body ++ [hi, lo] → second.toNat = station.val →
    frameRequest port f = readRequest { port, station, tag, fits := true } kind.toNat body) ∧
  (∀ (h : Header) (kind : Nat) (body : List Byte), (kind = 0 ∨ 52 < kind) →
    readRequest h kind body = .unknownRequest h kind) ∧
  (∀ (i : Instr) (h : Header) (kind : Nat), requestOf i = some (h, kind) → h.fits = true → i.wellFormed = true →
    readRequest h kind i.body = i ∧
    ∀ front back : List Byte, back ≠ [] → (i.body = front ++ back ∨ front = i.body ++ back) →
      ∃ g, requestOf (readRequest h kind front) = some (g, kind) ∧ g = { h with fits := false }) ∧
  (∀ i : Instr, i.body = (i.parts.map Part.bytes).flatten) ∧
  (∀ (i : Instr) (h : Header) (kind : Nat) (front back : List Part) (part : Part) (b : Byte),
    requestOf i = some (h, kind) → h.fits = true → i.wellFormed = true → i.parts = front ++ part :: back →
    ((∃ there, part = .presence there) ∧ 1 < b.toNat ∨ (∃ k, part = .count k ∧ b.toNat ≠ k)) →
    requestOf (readRequest h kind ((front.map Part.bytes).flatten ++ b :: (back.map Part.bytes).flatten)) =
      some ({ h with fits := false }, kind)) ∧
  (∀ l : List Byte, (Part.plain l).bytes = l) ∧
  (Part.presence true).bytes = [1#8] ∧ (Part.presence false).bytes = [0#8] ∧
  (∀ k, (Part.count k).bytes = beBytes 1 k) ∧
  (∀ v, beBytes 0 v = []) ∧
  (∀ n v, beBytes (n + 1) v = BitVec.ofInt 8 (v / 256 ^ n) :: beBytes n v) ∧
  -- the receiver and the transmitter
  (∀ (i : Instr) (p : Port), p.receive i =
    if p.queue.length < 4 then { p with queue := p.queue ++ [{ request := i, answered := false }] }
    else { p with overruns := p.overruns + 1 }) ∧
  (∀ (port : Fin 4) (s : State), (s.ports.get port).gathered = [] → exec (.frameReceived port []) s = .next s) ∧
  (∀ (port : Fin 4) (bytes : List LineByte) (s : State), (s.ports.get port).gathered = [] →
    4 ≤ byteAt (bytes.map LineByte.val) 1 → byteAt (bytes.map LineByte.val) 1 ≤ 250 →
    bytes.length = byteAt (bytes.map LineByte.val) 1 + 4 → byteAt (bytes.map LineByte.val) 0 = 0x7E →
    (frameHolds bytes = true → byteAt (bytes.map LineByte.val) 2 < 16 →
      exec (.frameReceived port bytes) s =
        .next (s.modPort port fun p => { p.receive (frameRequest port bytes) with gathered := [] }) ∧
      ∀ behind : List LineByte, exec (.frameReceived port (bytes ++ behind)) s =
        exec (.frameReceived port behind) (s.modPort port (Port.receive (frameRequest port bytes)))) ∧
    ((frameHolds bytes = false ∨ 16 ≤ byteAt (bytes.map LineByte.val) 2) →
      ∀ behind : List LineByte, exec (.frameReceived port (bytes ++ behind)) s =
        exec (.frameReceived port (bytes.drop 1 ++ behind))
          (s.modPort port fun p => { p with badFrames := p.badFrames + 1 }))) ∧
  (∀ (port : Fin 4) (bytes : List LineByte) (s : State),
    exec (.frameReceived port bytes) s =
      exec (.frameReceived port ((s.ports.get port).gathered ++ bytes))
        (s.modPort port fun p => { p with gathered := [] })) ∧
  (∀ (port : Fin 4) (b : LineByte) (rest : List LineByte) (s : State), (s.ports.get port).gathered = [] → b.val ≠ 0x7E#8 →
    exec (.frameReceived port (b :: rest)) s = exec (.frameReceived port rest) s) ∧
  (∀ (port : Fin 4) (bytes : List LineByte) (s : State), (s.ports.get port).gathered = [] →
    4 ≤ byteAt (bytes.map LineByte.val) 1 → byteAt (bytes.map LineByte.val) 1 ≤ 250 → 2 ≤ bytes.length →
    bytes.length < byteAt (bytes.map LineByte.val) 1 + 4 → byteAt (bytes.map LineByte.val) 0 = 0x7E →
    exec (.frameReceived port bytes) s = .next (s.modPort port fun p => { p with gathered := bytes })) ∧
  (∀ (port : Fin 4) (start : LineByte) (s : State), (s.ports.get port).gathered = [] → start.val = 0x7E#8 →
    exec (.frameReceived port [start]) s =
      .next (s.modPort port fun p => { p with gathered := [start] })) ∧
  (∀ (port : Fin 4) (start len : LineByte) (rest : List LineByte) (s : State), (s.ports.get port).gathered = [] →
    start.val = 0x7E#8 → (len.val.toNat < 4 ∨ 250 < len.val.toNat) →
    exec (.frameReceived port (start :: len :: rest)) s =
      exec (.frameReceived port (len :: rest)) (s.modPort port fun p => { p with badFrames := p.badFrames + 1 })) ∧
  (∀ (port : Fin 4) (start len : LineByte) (s : State), (s.ports.get port).gathered = [] → start.val = 0x7E#8 →
    len.val ≠ 0x7E#8 → (len.val.toNat < 4 ∨ 250 < len.val.toNat) →
    exec (.frameReceived port [start, len]) s =
      .next (s.modPort port fun p => { p with badFrames := p.badFrames + 1, gathered := [] })) ∧
  (∀ (port : Fin 4) (a b : Bool) (s : State), (s.ports.get port).tx = none →
    exec (.frameSent port a b) s = .next s) ∧
  (∀ (port : Fin 4) (a b : Bool) (n : Notice) (g : Bool) (s : State),
    (s.ports.get port).tx = some (.notice n g) →
    exec (.frameSent port a b) s = .next (s.modPort port fun p => { p with tx := none }.pump)) ∧
  (∀ (port : Fin 4) (a b : Bool) (x : Answer) (s : State), (s.ports.get port).tx = some (.answer x) →
    ¬(x.kind = 52 ∧ x.outcome = .done) →
    exec (.frameSent port a b) s =
      .next (s.modPort port fun p => { p with tx := none, queue := p.queue.drop 1 }.pump)) ∧
  (∀ (port : Fin 4) (a b : Bool) (x : Answer) (s : State), (s.ports.get port).tx = some (.answer x) →
    x.kind = 52 → x.outcome = .done →
    exec (.frameSent port a b) s =
      .next { State.powerOn { evac := s.evac, supply1 := a, supply2 := b } with
        badPages := s.badPages, selftest := s.selftest, pending := s.pending, lateDraws := s.lateDraws }) ∧
  (∀ (n : Notice) (s : State) (port : Fin 4),
    s.notify n = { s with ports := (s.notify n).ports } ∧
    (s.notify n).ports.get port = (s.ports.get port).offer n) ∧
  (∀ (n : Notice) (p : Port),
    (p.admits n = true ↔
      p.kinds.getLsbD (n.kind - 1) = true ∧ ∀ k, n.screen = some k → p.screens.getLsbD k.val = true) ∧
    (p.admits n = false → p.offer n = p) ∧
    (p.admits n = true → p.notices.length < 32 → p.offer n = { p with notices := p.notices ++ [n] }.pump) ∧
    (p.admits n = true → 32 ≤ p.notices.length →
      p.offer n = { p with notices := p.notices.drop 1 ++ [n], discarded := p.discarded + 1, gap := true }.pump)) ∧
  (∀ p : Port,
    (p.tx ≠ none → p.pump = p) ∧
    (∀ a, p.tx = none → p.answer = some a → p.pump = { p with answer := none, tx := some (.answer a) }) ∧
    (p.tx = none → p.answer = none → (∃ q rest, p.queue = q :: rest ∧ q.answered = false) → p.pump = p) ∧
    (p.tx = none → p.answer = none → (∀ q rest, p.queue = q :: rest → q.answered = true) →
      (p.notices = [] → p.pump = p) ∧
      (∀ n rest, p.notices = n :: rest →
        p.pump = { p with notices := rest, tx := some (.notice n p.gap), gap := false })))

/-- POWER_ON_RESET leaves every block at its power-on values: the values here are those that the spec's reset tables and
reset rules give, block by block; the lines' levels are the operand's. Every output is sent zeros from the reset on, as
an unmapped one is (07 R125; the sample periods of the block in progress are a register of the model's own, log 25). -/
def Obligations.PowerOnResetValues : Prop :=
  ∀ (lines : SiteLines) (s : State), ∃ t, exec (.powerOnReset lines) s = .next t ∧
    (∀ n, t.screens.get n =
      { config :=
          { priority := 2, fullDraw := 0, reducedDraw := 0, shedAtt := 12, fadeRate := 50, lipSync := 0,
            permit := false, laneLevel := false, defaultLayout := 0 },
        state := .offline, holder := none, stamp := 0, level := 80, fadeAtt := 0, rateInEffect := none,
        fadeCount := 0, lastLevel := 255, lastRolling := none, fadeTaken := false }) ∧
    t.stampCounter = 0 ∧ t.clock = .free ∧ t.blockCount = 0 ∧ t.mark = 0 ∧ t.pagingStep = 0 ∧ t.evac = lines.evac ∧
    (∀ l, (t.lanes.get l).sync = .nosignal ∧ (t.lanes.get l).store = [] ∧ (t.lanes.get l).accepted = none ∧
      (t.lanes.get l).mask = 0 ∧ (t.lanes.get l).slips = 0 ∧ (t.lanes.get l).intervalSlips = 0 ∧
      (t.lanes.get l).badBlocks = 0 ∧ (t.lanes.get l).lastSlip = none ∧ (t.lanes.get l).skew = none ∧
      (t.lanes.get l).alignment = none ∧ (t.lanes.get l).good = none ∧ (t.lanes.get l).bad = none) ∧
    (∀ o, (t.outputs.get o).place = none ∧ (t.outputs.get o).trim = 0 ∧ (t.outputs.get o).inverted = false ∧
      (t.outputs.get o).path = [] ∧ (t.outputs.get o).delay = 0 ∧ (t.outputs.get o).pages = [] ∧
      (t.outputs.get o).running = 0 ∧ (t.outputs.get o).energy = 0 ∧ (t.outputs.get o).driveOn = true ∧
      (t.outputs.get o).line = [] ∧ (t.outputs.get o).drive = List.replicate 48 0 ∧ (t.outputs.get o).late = [] ∧
      (t.outputs.get o).sense =
        { health := .unknown, settled := none, candidate := none, count := 0, lastZ := none, openFaults := 0,
          shortFaults := 0, lowFaults := 0, highFaults := 0, lastFault := none } ∧
      (t.outputs.get o).thresholds = { shortMax := 24, lowDrift := 96, highDrift := 192, openMin := 960 } ∧
      (t.outputs.get o).toneFlag = false ∧ (t.outputs.get o).sensitivity = none) ∧
    t.layouts.get 0 = some ⟨[.one 1 0, .one 3 0, .one 2 0, .none, .none, .one 4 0, .one 5 0, .one 6 0, .none, .none,
      .none, .none], rfl⟩ ∧
    (∀ c, c ≠ 0 → t.layouts.get c = none) ∧
    (∀ n, (t.routes.get n).source = .default ∧ (t.routes.get n).held = none) ∧
    (∀ n, (t.attenuations.get n).current = 0) ∧
    t.selftest = { running := true, blocks := 0, faults := [] } ∧ t.badPages = [] ∧
    (∀ n, t.meters.get n =
      { blockSum := 0, blockLevel := 0, blockSpl := 0, intervalSum := 0, intervalLevel := 0, intervalSpl := 0,
        clips := 0, lastClips := 0, segmentSum := 0, segmentFill := 0, ring := [], windowSum := 0, windowLevel := 0,
        windowSpl := 0, showMax := 0, offset := 0 }) ∧
    t.micRunning = 0 ∧ t.micEnergy = 0 ∧
    (∀ n, (t.alarms.get n).settings =
      { peakLimit := 210, loudLimit := 170, silenceFloor := 60, silenceRun := 5, clipLimit := 48, raiseHold := 2,
        clearHold := 3, autoTrim := false, trimMax := 12 } ∧
      (∀ k, (t.alarms.get n).records.get k =
        { state := .clear, phase := 0, raises := 0, lastShow := none, detail := none }) ∧
      (t.alarms.get n).silenceRun = 0 ∧ (t.alarms.get n).loudTrim = 0 ∧ (t.alarms.get n).attention = false) ∧
    (∀ p n k, ((t.ports.get p).indications.get n).get k = false) ∧
    (∀ l, t.returnLanes.get l = { locked := false, run := 0, malformed := 0 }) ∧
    t.budget =
      { supply1 := lines.supply1, supply2 := lines.supply2, supply := supplyOf lines.supply1 lines.supply2,
        mains := 4000, generator := 2400, battery := 600, batteryLow := 200, reserve := 150 } ∧
    (∀ n, t.grants.get n = { status := .none, draw := 0, sheds := 0, suspends := 0, lastChange := none }) ∧
    (∀ e, t.pool.get e = none) ∧
    (∀ n, t.cues.get n = { timeList := [], eventList := [], clock := none, lastCall := 0, lastFired := 0 }) ∧
    (∀ n l, (t.line n l).commanded = false ∧ (t.line n l).pulse = 0 ∧ (t.line n l).setting = .none ∧
      (t.line n l).output = false) ∧
    t.noise = BitVec.allOnes 23 ∧ t.blockPeriods = 0 ∧ t.toneGain = -20 ∧ t.micOffset = 0 ∧
    t.context =
      { phase := .idle, screen := none, target := none, station := none, count := 0, micSum := 0, targetSum := 0,
        background := none } ∧
    (∀ p, (t.ports.get p).gathered = [] ∧ (t.ports.get p).queue = [] ∧ (t.ports.get p).notices = [] ∧
      (t.ports.get p).kinds = 0 ∧ (t.ports.get p).screens = 0 ∧ (t.ports.get p).gap = false ∧
      (t.ports.get p).badFrames = 0 ∧ (t.ports.get p).overruns = 0 ∧ (t.ports.get p).discarded = 0 ∧
      (t.ports.get p).answer = none ∧ (t.ports.get p).tx = none)

/-! ### Queries -/

/-- SCREEN QUERY, LANE QUERY, OUTPUT QUERY, LAYOUT QUERY and ROUTE QUERY answer DONE with their fields and change
nothing else; an identifier out of range, screen, lane, output or layout code, is refused with RANGE. The fields are
those that each rule lists: the configuration and runtime fields of the screen; the state, count, store, slips, skew,
mask and accepted word of the lane, with the house clock; the place, delay, source, reason, compensation and role counts
of the output; the record's sources; and the layout in use, the roles, the paging route and its roles (01 R25, 02 R46,
03 R51, R55, R67; the widths and the order of the fields are logs 11 and 12, the code of a source kind is log 40's, the
counts of an unmapped output in OUTPUT QUERY are log 30's, and that SCREEN QUERY leaves out the fade count, which its
list does not name, is log 41's). -/
def Obligations.SiteQueriesAnswered : Prop :=
  (∀ h screen n s, ident 12 screen = some n → s.ready (.screenQuery h screen) h 12 →
    exec (.screenQuery h screen) s =
      .next (s.replying (.screenQuery h screen) h (doneAnswer h 12 false (s.screens.get n).queryFields))) ∧
  (∀ h lane l s, ident 14 lane = some l → s.ready (.laneQuery h lane) h 14 →
    exec (.laneQuery h lane) s =
      .next (s.replying (.laneQuery h lane) h (doneAnswer h 14 false (s.laneFields l)))) ∧
  (∀ h output o s, ident 192 output = some o → s.ready (.outputQuery h output) h 16 →
    exec (.outputQuery h output) s =
      .next (s.replying (.outputQuery h output) h (doneAnswer h 16 false (s.outputFields o)))) ∧
  (∀ h code c s, ident0 16 code = some c → s.ready (.layoutQuery h code) h 18 →
    exec (.layoutQuery h code) s =
      .next (s.replying (.layoutQuery h code) h (doneAnswer h 18 false (layoutFields (s.layouts.get c))))) ∧
  (∀ h screen n s, ident 12 screen = some n → s.ready (.routeQuery h screen) h 20 →
    exec (.routeQuery h screen) s =
      .next (s.replying (.routeQuery h screen) h (doneAnswer h 20 false (s.routes.get n).figures.fields))) ∧
  (∀ h screen s, (screen = 0 ∨ 12 < screen) → s.ready (.screenQuery h screen) h 12 →
    exec (.screenQuery h screen) s =
      .next (s.refusing (.screenQuery h screen) h 12 .range)) ∧
  (∀ h lane s, (lane = 0 ∨ 14 < lane) → s.ready (.laneQuery h lane) h 14 →
    exec (.laneQuery h lane) s = .next (s.refusing (.laneQuery h lane) h 14 .range)) ∧
  (∀ h output s, (output = 0 ∨ 192 < output) → s.ready (.outputQuery h output) h 16 →
    exec (.outputQuery h output) s = .next (s.refusing (.outputQuery h output) h 16 .range)) ∧
  (∀ h code s, 15 < code → s.ready (.layoutQuery h code) h 18 →
    exec (.layoutQuery h code) s = .next (s.refusing (.layoutQuery h code) h 18 .range)) ∧
  (∀ h screen s, (screen = 0 ∨ 12 < screen) → s.ready (.routeQuery h screen) h 20 →
    exec (.routeQuery h screen) s = .next (s.refusing (.routeQuery h screen) h 20 .range)) ∧
  (∀ (count k : Nat) (i : Fin count), ident count k = some i ↔ k = i.val + 1) ∧
  (∀ (count k : Nat) (i : Fin count), ident0 count k = some i ↔ k = i.val) ∧
  -- the fields
  (∀ c : Screen, c.queryFields =
    [.num 1 c.config.priority, .num 2 c.config.fullDraw, .num 2 c.config.reducedDraw, .num 1 c.config.shedAtt,
      .num 1 c.config.fadeRate, .num 2 c.config.lipSync, .num 1 c.config.permit.toNat, .num 1 c.config.laneLevel.toNat,
      .num 1 c.config.defaultLayout, .num 1 c.state.code, .opt 1 (c.holder.map fun h => Int.ofNat h.val), .num 4 c.stamp,
      .num 1 c.level, .num 1 c.fadeAtt, .opt 1 (c.rateInEffect.map Int.ofNat), .num 1 c.lastLevel,
      .opt 1 (c.lastRolling.map fun b => Int.ofNat b.toNat)]) ∧
  (∀ (s : State) (l : Fin 14) (x : Lane) (count : Option Nat) (word : List Field), x = s.lanes.get l →
    count = (if x.sync = .probation then x.good else if x.sync = .flywheel then x.bad else none) →
    (l.val < 12 → (x.accepted = none → word =
        [.num 1 0, .num 1 0, .num 1 0, .num 1 0, .num 1 0, .num 3 0, .num 1 0, .num 1 0, .num 1 0, .num 2 0]) ∧
      ∀ w, x.accepted = some w → word =
        [.num 1 1, .num 1 w.mark, .num 1 w.layout, .num 1 w.flags, .num 1 w.reel, .num 3 w.time, .num 1 w.level,
          .num 1 w.server, .num 1 w.cueCall, .num 2 w.check]) →
    (12 ≤ l.val → word = []) →
    s.laneFields l =
      ([.num 1 x.sync.code, .opt 1 (count.map Int.ofNat), .num 1 x.store.length, .num 1 x.slips.toNat,
        .num 2 x.intervalSlips, .opt 1 (x.lastSlip.map fun y => Int.ofNat y.code), .num 1 x.badBlocks.toNat,
        .opt 1 (x.skew.map Int.ofNat), .flags x.mask] : List Field) ++ word ++ ([.num 1 s.clock.code] : List Field)) ∧
  (∀ (s : State) (o : Fin 192) (x : Output) (place : List Field) (f : RoleFigures), x = s.outputs.get o →
    (x.place = none → place = [.num 1 0, .num 1 0, .num 1 0] ∧ f.mapped = 0 ∧ f.inService = 0) →
    (∀ n r, x.place = some (n, r) →
      place = [.num 1 1, .num 1 (n.val + 1 : Nat), .num 1 r.code] ∧ f = (s.routes.get n).figures.roles.get r.ix) →
    s.outputFields o = place ++
      ([.num 2 (s.effectiveDelay o), .num 1 x.figures.kind.code,
        .cond 1 (x.figures.reason.map fun y => Int.ofNat y.code), .num 1 x.figures.comp, .num 1 f.mapped,
        .num 1 f.inService] : List Field)) ∧
  layoutFields none = [.num 1 0] ∧
  (∀ t : Tab Source 12, layoutFields (some t) = .num 1 1 :: (Role.all.map fun r => sourceFields (t.get r.ix)).flatten) ∧
  sourceFields .none = [.num 1 0] ∧
  (∀ (i : Nat) (g : Int), sourceFields (.one i g) = [.num 1 1, .num 1 i, .num 1 g]) ∧
  (∀ (i : Nat) (gi : Int) (j : Nat) (gj : Int),
    sourceFields (.two i gi j gj) = [.num 1 2, .num 1 i, .num 1 gi, .num 1 j, .num 1 gj]) ∧
  (∀ f : RouteFigures, f.fields =
    ([.num 1 f.layout, .num 1 f.source.code, .opt 1 (f.held.map Int.ofNat), .num 1 f.noLayout.toNat] : List Field) ++
    (Role.all.map fun r => (f.roles.get r.ix).fields).flatten ++
    ([.num 1 f.onRoute.toNat, .num 1 f.pagingRoles.length] : List Field) ++ f.pagingRoles.map fun r => .num 1 r.code) ∧
  (∀ f : RoleFigures, f.fields =
    ([.num 1 f.mapped, .num 1 f.inService, .num 1 f.service.code, .num 1 f.comp, .num 1 f.outputs.length] : List Field) ++
    f.outputs.map fun o => .num 1 (o.val + 1 : Nat))

/-- TUNE QUERY, GAIN QUERY, STORE QUERY and LEVEL QUERY answer DONE with their fields and change nothing else; a start
position of 0, a screen or an output out of range, and an output that is not mapped to the named screen, are refused
with RANGE. The fields are those that each rule lists: the tuning, the delays and the page list from the start
position, with the net step; the base target and its part, the attenuations, the level and the muted outputs; the
counts of free, used and BAD pages, the self-test and the BAD pages from the start position; and the screen's levels,
SPL codes, clips, segment, window and offset, with an output's energy and its level (the widths and the order of the
fields are logs 11 and 12, with the presence bytes of LEVEL QUERY's output figures and of STORE QUERY's pages tested,
and equal parts of GAIN QUERY's base target read SHED by log 30). -/
def Obligations.SoundQueriesAnswered : Prop :=
  (∀ h output start o s, ident 192 output = some o → start ≠ 0 → s.ready (.tuneQuery h output start) h 23 →
    exec (.tuneQuery h output start) s =
      .next (s.replying (.tuneQuery h output start) h (doneAnswer h 23 false (s.tuneFields start o)))) ∧
  (∀ h output o s, ident 192 output = some o → s.ready (.tuneQuery h output 0) h 23 →
    exec (.tuneQuery h output 0) s =
      .next (s.refusing (.tuneQuery h output 0) h 23 .range)) ∧
  (∀ h screen n s, ident 12 screen = some n → s.ready (.gainQuery h screen) h 24 →
    exec (.gainQuery h screen) s =
      .next (s.replying (.gainQuery h screen) h (doneAnswer h 24 false (s.attenuations.get n).figures.fields))) ∧
  (∀ h start s, start ≠ 0 → s.ready (.storeQuery h start) h 25 →
    exec (.storeQuery h start) s =
      .next (s.replying (.storeQuery h start) h (doneAnswer h 25 false (s.storeFields start)))) ∧
  (∀ h s, s.ready (.storeQuery h 0) h 25 →
    exec (.storeQuery h 0) s = .next (s.refusing (.storeQuery h 0) h 25 .range)) ∧
  (∀ h screen n s, ident 12 screen = some n → s.ready (.levelQuery h screen none) h 27 →
    exec (.levelQuery h screen none) s =
      .next (s.replying (.levelQuery h screen none) h
        (doneAnswer h 27 false ((s.meters.get n).fields ++ energyFields none)))) ∧
  (∀ h screen n output o s, ident 12 screen = some n → ident 192 output = some o →
    s.ready (.levelQuery h screen (some output)) h 27 →
    exec (.levelQuery h screen (some output)) s =
      .next (s.replying (.levelQuery h screen (some output)) h
        (if (s.outputs.get o).screen = some n then
          doneAnswer h 27 false ((s.meters.get n).fields ++ energyFields (some (s.outputs.get o).energy))
        else refusalAnswer h 27 .range))) ∧
  (∀ h output start s, (output = 0 ∨ 192 < output) → s.ready (.tuneQuery h output start) h 23 →
    exec (.tuneQuery h output start) s = .next (s.refusing (.tuneQuery h output start) h 23 .range)) ∧
  (∀ h screen s, (screen = 0 ∨ 12 < screen) → s.ready (.gainQuery h screen) h 24 →
    exec (.gainQuery h screen) s = .next (s.refusing (.gainQuery h screen) h 24 .range)) ∧
  (∀ h screen output s, (screen = 0 ∨ 12 < screen ∨ ∃ k, output = some k ∧ (k = 0 ∨ 192 < k)) →
    s.ready (.levelQuery h screen output) h 27 →
    exec (.levelQuery h screen output) s = .next (s.refusing (.levelQuery h screen output) h 27 .range)) ∧
  -- the fields
  (∀ (s : State) (start : Nat) (o : Fin 192) (x : Output), x = s.outputs.get o →
    s.tuneFields start o =
      ([.num 1 x.trim, .num 1 x.inverted.toNat, .num 1 x.path.length] : List Field) ++
      (x.path.map fun p =>
        [Field.num 3 p.coef.b0, .num 3 p.coef.b1, .num 3 p.coef.b2, .num 3 p.coef.a1, .num 3 p.coef.a2]).flatten ++
      ([.num 2 x.delay, .num 2 (s.effectiveDelay o), .num 1 x.pages.length,
        .num 1 (min 32 (x.pages.length - (start - 1)) : Nat)] : List Field) ++
      (((x.pages.drop (start - 1)).take 32).map fun p : Nat => Field.num 2 p) ++ ([.opt 2 x.figures.step] : List Field)) ∧
  (∀ g : GainFigures, g.fields =
    [.num 1 g.target, .opt 1 (g.part.code?.map Int.ofNat), .num 1 g.current, .num 1 g.fade, .num 1 g.applied,
      .num 1 g.level, .num 1 g.muted]) ∧
  (∀ (s : State) (start : Nat) (bad : List Nat),
    bad = (List.range 4096).filter (fun p => decide (s.pageState p = .bad)) →
    s.storeFields start =
      ([.num 2 s.freePages.length,
        .num 2 ((List.range 4096).filter fun p => decide (s.pageState p = .inUse)).length, .num 2 bad.length,
        .num 1 (!s.selftest.running).toNat,
        .cond 2 (if s.selftest.running = true then some (min 4096 (2 * s.selftest.blocks) : Nat) else none),
        .num 1 (min 100 (bad.length - (start - 1)) : Nat)] : List Field) ++
      ((bad.drop (start - 1)).take 100).map fun p : Nat => Field.num 2 p) ∧
  (∀ (s : State) (p : Nat), (s.pageState p = .bad ↔ p ∈ s.badPages) ∧
    (s.pageState p = .inUse ↔ p ∉ s.badPages ∧ ∃ o, p ∈ (s.outputs.get o).pages)) ∧
  (∀ s : State, s.freePages = (List.range 4096).filter fun p => decide (s.pageState p = .free)) ∧
  (∀ m : Meter, m.fields =
    [.num 1 m.blockLevel, .num 1 m.blockSpl, .num 1 m.intervalLevel, .num 1 m.intervalSpl, .num 1 m.windowLevel,
      .num 1 m.windowSpl, .num 1 m.showMax, .num 2 m.lastClips, .num 2 m.clips, .num 1 m.segmentFill,
      .num 1 m.ring.length, .num 1 m.offset]) ∧
  energyFields none = [.num 1 0] ∧
  (∀ e : Nat, energyFields (some e) = [.num 1 1, .num 5 e, .num 1 (lvl e)])

/-- HEALTH QUERY, POWER QUERY, CUE QUERY, LINE QUERY and CALIBRATION QUERY answer DONE with their fields and change
nothing else. ALARM QUERY answers the records, the settings and the screen's indication set of its own port, and empties
that set alone: the sets of the other ports, and its own port's sets for other screens, are kept. The fields are those
that each rule lists, CUE QUERY's a page of six entries of both lists and the next position, POWER QUERY's the budget
with each screen's grant and its place in rank, at which its own demand stands, CALIBRATION QUERY's the context with the
tone flags and sensitivities of the screen carried. An output or a screen out of range is refused with RANGE (06 R120,
R121; that CUE QUERY answers a start position of 0, as it does 1, is the model's, log 22; the widths and the order of
the fields are logs 11 and 12; the codes of the settled class, the candidate and the last fault's class, of a status and
of a phase go by the lists that log 40 chooses). -/
def Obligations.UnitQueriesAnswered : Prop :=
  (∀ h output o s, ident 192 output = some o → s.ready (.healthQuery h output) h 33 →
    exec (.healthQuery h output) s =
      .next (s.replying (.healthQuery h output) h (doneAnswer h 33 false (s.healthFields o)))) ∧
  (∀ h s, s.ready (.powerQuery h) h 35 →
    exec (.powerQuery h) s = .next (s.replying (.powerQuery h) h (doneAnswer h 35 false s.powerFields))) ∧
  (∀ h screen start n s, ident 12 screen = some n → s.ready (.cueQuery h screen start) h 39 →
    exec (.cueQuery h screen start) s =
      .next (s.replying (.cueQuery h screen start) h (doneAnswer h 39 false (s.cueQueryFields start n)))) ∧
  (∀ h screen n s, ident 12 screen = some n → s.ready (.lineQuery h screen) h 42 →
    exec (.lineQuery h screen) s =
      .next (s.replying (.lineQuery h screen) h
        (doneAnswer h 42 false
          (((s.booth.get n).items.map BoothLine.fields).flatten ++ [fieldBool s.evac])))) ∧
  (∀ h s, s.ready (.calibrationQuery h none) h 47 →
    exec (.calibrationQuery h none) s =
      .next (s.replying (.calibrationQuery h none) h (doneAnswer h 47 false (s.calibrationFields none)))) ∧
  (∀ h screen n s, ident 12 screen = some n → s.ready (.calibrationQuery h (some screen)) h 47 →
    exec (.calibrationQuery h (some screen)) s =
      .next (s.replying (.calibrationQuery h (some screen)) h
        (doneAnswer h 47 false (s.calibrationFields (some n))))) ∧
  (∀ h screen n s, ident 12 screen = some n → s.ready (.alarmQuery h screen) h 29 →
    exec (.alarmQuery h screen) s =
      .next (((s.taking (.alarmQuery h screen) h).modPort h.port fun p =>
          { p with indications := p.indications.set n (.fill 7 false) }).answering h
        (doneAnswer h 29 false (s.alarmFields h.port n)))) ∧
  (∀ h output s, (output = 0 ∨ 192 < output) → s.ready (.healthQuery h output) h 33 →
    exec (.healthQuery h output) s = .next (s.refusing (.healthQuery h output) h 33 .range)) ∧
  (∀ h screen s, (screen = 0 ∨ 12 < screen) →
    (∀ start, s.ready (.cueQuery h screen start) h 39 →
      exec (.cueQuery h screen start) s = .next (s.refusing (.cueQuery h screen start) h 39 .range)) ∧
    (s.ready (.lineQuery h screen) h 42 →
      exec (.lineQuery h screen) s = .next (s.refusing (.lineQuery h screen) h 42 .range)) ∧
    (s.ready (.calibrationQuery h (some screen)) h 47 →
      exec (.calibrationQuery h (some screen)) s =
        .next (s.refusing (.calibrationQuery h (some screen)) h 47 .range)) ∧
    (s.ready (.alarmQuery h screen) h 29 →
      exec (.alarmQuery h screen) s = .next (s.refusing (.alarmQuery h screen) h 29 .range))) ∧
  -- the fields
  (∀ (s : State) (o : Fin 192) (x : Output) (r : HealthRecord) (fault : List Field) (lane : ReturnLane),
    x = s.outputs.get o → r = x.sense → (lane = s.returnLanes.get ⟨o.val / 16, by omega⟩) →
    (r.lastFault = none → fault = [.num 1 0, .num 1 0, .num 2 0, .opt 1 none, .opt 3 none]) →
    (∀ f, r.lastFault = some f → fault =
      [.num 1 1, .num 1 f.cls.faultCode, .num 2 f.z16, .opt 1 (f.state.map fun y => Int.ofNat y.code),
        .opt 3 (f.time.map Int.ofNat)]) →
    s.healthFields o =
      ([.num 1 r.health.code, .opt 1 (r.settled.map fun y => Int.ofNat y.code),
        .opt 1 (r.candidate.map fun y => Int.ofNat y.code), .num 1 r.count, .opt 2 (r.lastZ.map Int.ofNat),
        .num 1 r.openFaults.toNat, .num 1 r.shortFaults.toNat, .num 1 r.lowFaults.toNat,
        .num 1 r.highFaults.toNat] : List Field) ++ fault ++
      ([.num 1 x.driveOn.toNat, .num 1 x.figures.pilot.toNat, .num 2 x.thresholds.shortMax, .num 2 x.thresholds.lowDrift,
        .num 2 x.thresholds.highDrift, .num 2 x.thresholds.openMin, .num 1 (if lane.locked = true then 0 else 1),
        .num 1 lane.run, .num 1 lane.malformed.toNat] : List Field)) ∧
  (∀ (s : State) (b : Budget) (granted : Nat), b = s.budget →
    granted = ((List.finRange 12).map fun n => (s.grants.get n).draw).sum →
    s.powerFields =
      ([.num 1 b.supply1.toNat, .num 1 b.supply2.toNat, .num 1 b.supply.code, .num 2 b.mains, .num 2 b.generator,
        .num 2 b.battery, .num 2 b.batteryLow, .num 2 b.reserve, .num 2 b.available, .num 2 granted,
        .num 2 (b.available - granted : Nat)] : List Field) ++ ((List.finRange 12).map s.grantFields).flatten) ∧
  (∀ (s : State) (n : Fin 12) (g : Grant) (c : Screen) (change : List Field), g = s.grants.get n →
    c = s.screens.get n →
    (g.lastChange = none → change = [.num 1 0, .num 1 0, .num 1 0, .num 2 0]) →
    (∀ x, g.lastChange = some x →
      change = [.num 1 1, .num 1 x.status.code, .num 1 x.supply.code, .num 2 x.available]) →
    s.grantFields n =
      ([.num 1 g.status.code, .num 2 g.draw, .num 1 c.config.priority, .num 2 c.config.fullDraw,
        .num 2 c.config.reducedDraw, .num 4 c.stamp, .opt 1 ((s.place n).map Int.ofNat), .num 1 g.sheds.toNat,
        .num 1 g.suspends.toNat] : List Field) ++ change) ∧
  (∀ (s : State) (n : Fin 12), (s.place n = none ↔ (s.screens.get n).demand n = none) ∧
    ∀ k, s.place n = some (k + 1) → ∃ d, s.ranked[k]? = some d ∧ d.screen = n) ∧
  (∀ (s : State) (n : Fin 12), s.place n ≠ some 0) ∧
  (∀ (s : State) (start : Nat) (n : Fin 12) (c : CueScreen) (all page : List (Fin 512)), c = s.cues.get n →
    all = c.timeList ++ c.eventList → page = (all.drop (start - 1)).take 6 →
    s.cueQueryFields start n =
      (Field.num 1 page.length :: (page.map s.cueFields).flatten) ++
      ([.opt 2 (if max start 1 + 6 ≤ all.length then some (max start 1 + 6 : Nat) else none), .num 2 c.timeList.length,
        .num 2 c.eventList.length, .num 2 ((List.finRange 512).filter fun e => (s.pool.get e).isNone).length,
        .opt 3 (c.clock.map Int.ofNat), .num 1 c.lastCall, .num 2 c.lastFired] : List Field)) ∧
  (∀ (s : State) (e : Fin 512) (c : Cue), s.pool.get e = some c →
    s.cueFields e = (Field.num 2 (e.val + 1 : Nat) :: c.trigger.fields) ++ c.action.fields ++
      (Field.num 1 c.chase.toNat :: .num 1 c.label.length :: c.label.map fun b => .num 1 b.toNat) ++
      ([.cond 1 (c.state.map fun y => Int.ofNat y.code)] : List Field)) ∧
  (∀ x : BoothLine, x.fields = [.num 1 x.commanded.toNat, .num 2 x.pulse, .num 1 x.setting.code, .num 1 x.output.toNat]) ∧
  (∀ (s : State) (c : Context) (n : Option (Fin 12)) (target screen : List Field), c = s.context →
    (c.target = none → target = [.num 1 0, .opt 1 none]) → (∀ g, c.target = some g → target = [.num 1 1, g.field]) →
    (n = none → screen = [.num 1 0]) →
    (∀ k, n = some k → screen = .num 1 1 :: .num 1 (s.outputsOf k).length ::
      ((s.outputsOf k).map fun o =>
        [Field.num 1 (s.outputs.get o).toneFlag.toNat, .opt 1 (s.outputs.get o).sensitivity]).flatten) →
    s.calibrationFields n =
      ([.num 1 c.phase.code, .opt 1 (c.screen.map fun x => Int.ofNat (x.val + 1))] : List Field) ++ target ++
      ([.opt 1 (c.station.map fun h => Int.ofNat h.val), .num 1 c.count, .num 6 c.micSum, .num 7 c.targetSum,
        .opt 1 (c.background.map Int.ofNat), .num 1 s.toneGain, .num 1 s.micOffset,
        .num 1 (s.lanes.get 13).sync.code] : List Field) ++ screen) ∧
  (∀ (s : State) (n : Fin 12), s.outputsOf n =
    (List.finRange 192).filter fun o => decide ((s.outputs.get o).screen = some n)) ∧
  (∀ (s : State) (port : Fin 4) (n : Fin 12) (a : Alarms) (c : AlarmSettings) (flags : BitVec 16),
    a = s.alarms.get n → c = a.settings →
    (∀ i : Fin 16, flags.getLsbD i.val = if h : i.val < 7 then ((s.ports.get port).indications.get n).get ⟨i.val, h⟩
      else false) →
    s.alarmFields port n =
      (AlarmKind.all.map fun k => (a.records.get k.ix).fields k).flatten ++
      ([.num 1 a.silenceRun, .num 1 a.loudTrim, .num 1 a.attention.toNat, .num 1 c.peakLimit, .num 1 c.loudLimit,
        .num 1 c.silenceFloor, .num 1 c.silenceRun, .num 2 c.clipLimit, .num 1 c.raiseHold, .num 1 c.clearHold,
        .num 1 c.autoTrim.toNat, .num 1 c.trimMax, .flags flags] : List Field)) ∧
  (∀ (k : AlarmKind) (r : AlarmRecord), r.fields k =
    ([.num 1 r.state.code, .num 1 r.phase, .num 1 r.raises.toNat, .opt 3 (r.lastShow.map Int.ofNat),
      .num 1 r.detail.isSome.toNat] : List Field) ++
    (match r.detail, k with
      | some d, _ => d.fields
      | none, .clip => [.num 2 0]
      | none, .lane => [.num 1 0, .num 2 0, .opt 1 none]
      | none, .speaker => [.num 1 0, .num 1 0]
      | none, _ => [.num 1 0]))

/-! ### Screens and shows -/

/-- ENABLE makes an OFFLINE screen DARK with no holder, tells it with a SHOW notice and is answered DONE. DISABLE on a
DARK screen: the runtime fields of the screen return to their reset values in every block, and the configuration, the
cue lists, the page lists, the tunings and the SPL offset are kept; a WITHDRAWN ALARM notice goes for each of its alarms
that was RAISED or CLEARING, then its SHOW notice. In any other state each is refused with STATE, and on a screen out of
range with RANGE (01 R4, R5, R6, R26, 03 R68, 04 R69, 05 R105, 06 R116, R124, 08 R150, 09 R169; that the running
energies of the screen's outputs return to 0 is the model's reading, log 38, and the order of the notices log 6's). -/
def Obligations.EnableAndDisable : Prop :=
  (∀ (h : Header) (screen : Nat) (s : State), (screen = 0 ∨ 12 < screen) →
    (s.ready (.enable h screen) h 1 →
      exec (.enable h screen) s = .next (s.refusing (.enable h screen) h 1 .range)) ∧
    (s.ready (.disable h screen) h 2 →
      exec (.disable h screen) s = .next (s.refusing (.disable h screen) h 2 .range))) ∧
  ∀ (h : Header) (screen : Nat) (n : Fin 12) (s : State), ident 12 screen = some n →
    (s.ready (.enable h screen) h 1 →
      ((s.screens.get n).state = .offline →
        exec (.enable h screen) s =
          .next ((((s.taking (.enable h screen) h).modScreen n fun c => { c with state := .dark, holder := none }).notify
            (requestNotice n .dark .offline none .request h.station)).answering h (doneAnswer h 1 false []))) ∧
      ((s.screens.get n).state ≠ .offline → exec (.enable h screen) s = .next (s.refusing (.enable h screen) h 1 .state))) ∧
    (s.ready (.disable h screen) h 2 →
      ((s.screens.get n).state ≠ .dark → exec (.disable h screen) s = .next (s.refusing (.disable h screen) h 2 .state)) ∧
      ((s.screens.get n).state = .dark → ∃ t, exec (.disable h screen) s = .next t ∧
        t = { s with
          ports := t.ports, screens := t.screens, outputs := t.outputs, routes := t.routes,
          attenuations := t.attenuations, meters := t.meters, alarms := t.alarms, grants := t.grants, pool := t.pool,
          cues := t.cues, booth := t.booth } ∧
        t.screens = s.screens.set n
          { config := (s.screens.get n).config, state := .offline, holder := none, stamp := 0, level := 80, fadeAtt := 0,
            rateInEffect := none, fadeCount := 0, lastLevel := 255, lastRolling := none, fadeTaken := false } ∧
        (∀ o, t.outputs.get o =
          if (s.outputs.get o).screen = some n then
            { s.outputs.get o with
              path := (s.outputs.get o).path.map fun p => { p with hist := { x1 := 0, x2 := 0, y1 := 0, y2 := 0 } },
              line := (s.outputs.get o).line.map fun _ => 0, running := 0 }
          else s.outputs.get o) ∧
        t.routes = s.routes.modify n (fun r => { r with source := .default, held := none }) ∧
        t.attenuations = s.attenuations.modify n (fun a => { a with current := 0 }) ∧
        t.meters = s.meters.modify n (fun m => { Meter.reset with offset := m.offset }) ∧
        t.alarms = s.alarms.modify n (fun a => { Alarms.reset with settings := a.settings }) ∧
        t.grants = s.grants.modify n (fun g => { g with sheds := 0, suspends := 0, lastChange := none }) ∧
        (∀ e, t.pool.get e =
          if e ∈ (s.cues.get n).timeList then (s.pool.get e).map fun c => { c with state := some .armed }
          else s.pool.get e) ∧
        t.cues = s.cues.modify n (fun c => { c with clock := none, lastCall := 0, lastFired := 0 }) ∧
        (∀ m l, t.line m l =
          if m = n then
            { s.line n l with
              commanded := false, pulse := 0, output := s.evac && decide ((s.line n l).setting = .on) }
          else s.line m l) ∧
        (∀ p, (t.ports.get p).indications = (s.ports.get p).indications.set n (.fill 7 false)) ∧
        t.ports = (tell [requestNotice n .offline .dark none .request h.station]
          ((tell (withdrawals n (s.alarms.get n)) (s.taking (.disable h screen) h).ports).map fun p =>
            { p with indications := p.indications.set n (.fill 7 false) })).modify h.port
          (Port.answerWith (doneAnswer h 2 false [])) ∧
        (t.ports.get h.port).hasAnswer (doneAnswer h 2 false [])))

/-- HOLD claims a DARK screen for its station and makes it ARMED. A screen out of range is refused with RANGE, one with
a holder with HELD, an OFFLINE one with STATE, and, for a BOOTH station alone, a delivering lane whose server id is
another station's with LANE (01 R4, R7). -/
def Obligations.HoldClaims : Prop :=
  (∀ (h : Header) (screen : Nat) (s : State), (screen = 0 ∨ 12 < screen) → s.ready (.hold h screen) h 3 →
    exec (.hold h screen) s = .next (s.refusing (.hold h screen) h 3 .range)) ∧
  ∀ (h : Header) (screen : Nat) (n : Fin 12) (s : State), ident 12 screen = some n →
    s.ready (.hold h screen) h 3 →
    ((s.screens.get n).holder ≠ none → exec (.hold h screen) s = .next (s.refusing (.hold h screen) h 3 .held)) ∧
    ((s.screens.get n).holder = none → (s.screens.get n).state ≠ .dark →
      exec (.hold h screen) s = .next (s.refusing (.hold h screen) h 3 .state)) ∧
    (∀ w, (s.screens.get n).holder = none → (s.screens.get n).state = .dark → roleOf h.station = .booth →
      (s.lanes.get (programLane n)).delivering = true → (s.lanes.get (programLane n)).accepted = some w →
      w.server ≠ h.station.val → exec (.hold h screen) s = .next (s.refusing (.hold h screen) h 3 .lane)) ∧
    ((s.screens.get n).holder = none → (s.screens.get n).state = .dark →
      (roleOf h.station = .booth → (s.lanes.get (programLane n)).delivering = true →
        ∀ w, (s.lanes.get (programLane n)).accepted = some w → w.server = h.station.val) →
      exec (.hold h screen) s =
        .next (((((s.taking (.hold h screen) h).modScreen n fun c =>
            { c with state := .armed, holder := some h.station }).modAttenuation n fun a =>
            { a with current := 0 }).notify
          (requestNotice n .armed .dark (some h.station) .request h.station)).answering h (doneAnswer h 3 false [])))

/-- CALIBRATE: RANGE, HELD, STATE, EVAC and NOPOWER in this order; on acceptance the screen is CALIBRATING under the
station with the next start stamp, the grants are those of the admission, and its alarms and base current are cleared;
after the recompute's notices go a WITHDRAWN ALARM notice for each alarm that was RAISED or CLEARING, and the SHOW
notice (01 R8, R11, R26, 08 R146, 06 R116, 04 R83; candidate and stamps: StampLawKept; recompute: PowerLawKept; the
order of the notices is log 6's). -/
def Obligations.CalibrateClaims : Prop :=
  (∀ (h : Header) (screen : Nat) (s : State), (screen = 0 ∨ 12 < screen) → s.ready (.calibrate h screen) h 4 →
    exec (.calibrate h screen) s = .next (s.refusing (.calibrate h screen) h 4 .range)) ∧
  ∀ (h : Header) (screen : Nat) (n : Fin 12) (s : State), ident 12 screen = some n →
    s.ready (.calibrate h screen) h 4 →
    ((s.screens.get n).holder ≠ none →
      exec (.calibrate h screen) s = .next (s.refusing (.calibrate h screen) h 4 .held)) ∧
    ((s.screens.get n).holder = none → (s.screens.get n).state ≠ .dark →
      exec (.calibrate h screen) s = .next (s.refusing (.calibrate h screen) h 4 .state)) ∧
    ((s.screens.get n).holder = none → (s.screens.get n).state = .dark → s.evac = true →
      exec (.calibrate h screen) s = .next (s.refusing (.calibrate h screen) h 4 .evac)) ∧
    ((s.screens.get n).holder = none → (s.screens.get n).state = .dark → s.evac = false →
      ((candidate n .calibrating (some h.station) s).allot.get n).status = .suspended →
      exec (.calibrate h screen) s = .next (s.refusing (.calibrate h screen) h 4 .nopower)) ∧
    ((s.screens.get n).holder = none → (s.screens.get n).state = .dark → s.evac = false →
      ((candidate n .calibrating (some h.station) s).allot.get n).status ≠ .suspended →
      ∃ t, exec (.calibrate h screen) s = .next t ∧
        t = { s with
          ports := t.ports, screens := t.screens, stampCounter := t.stampCounter, outputs := t.outputs,
          attenuations := t.attenuations, alarms := t.alarms, grants := t.grants, context := t.context } ∧
        t.screens = (candidate n .calibrating (some h.station) s).screens ∧
        t.stampCounter = (candidate n .calibrating (some h.station) s).stampCounter ∧
        (s.stampCounter < 4294967295 → t.stampCounter = s.stampCounter + 1 ∧
          t.screens = s.screens.modify n fun c =>
            { c with state := .calibrating, holder := some h.station, stamp := s.stampCounter + 1 }) ∧
        t.granted ∧
        (∀ o, t.outputs.get o = { s.outputs.get o with toneFlag := (t.outputs.get o).toneFlag }) ∧
        t.attenuations = s.attenuations.modify n (fun a => { a with current := 0 }) ∧
        t.alarms = s.alarms.modify n (fun a =>
          { a with
            records := a.records.map fun r => { r with state := .clear, phase := 0 },
            silenceRun := 0, loudTrim := 0, attention := false }) ∧
        (∀ r, r = recompute .demand (candidate n .calibrating (some h.station) (s.taking (.calibrate h screen) h)) →
          t = (({ r with
            attenuations := t.attenuations, alarms := t.alarms,
            ports := tell (withdrawals n (s.alarms.get n)) r.ports } : State).notify
              (requestNotice n .calibrating .dark (some h.station) .request h.station)).answering h
              (doneAnswer h 4 false [])) ∧
        (t.ports.get h.port).hasAnswer (doneAnswer h 4 false []))

/-- FREE from the holder, or from any MANAGEMENT station, makes an ARMED or CALIBRATING screen DARK with no holder: a
calibration's measurement and tones end and the power is computed again. From a MANAGEMENT station that is not the
holder it takes a show over, and only the holder changes. Else it is refused: RANGE on a screen out of range, HELD from
a stranger, STATE from the holder of a show or from MANAGEMENT on a screen without a holder. A release sends, in this
order, the MEASURE notice of a measurement on the screen, a WITHDRAWN ALARM notice for each alarm that was RAISED or
CLEARING, the recompute's notices and the SHOW notice (01 R4, R9, R10, R26, 06 R116, 10 R175; abortMeasurement:
CalibrationRequests; recompute: PowerLawKept; the order of the notices is log 6's). -/
def Obligations.FreeReleasesOrTakesOver : Prop :=
  (∀ (h : Header) (screen : Nat) (s : State), (screen = 0 ∨ 12 < screen) → s.ready (.free h screen) h 5 →
    exec (.free h screen) s = .next (s.refusing (.free h screen) h 5 .range)) ∧
  ∀ (h : Header) (screen : Nat) (n : Fin 12) (s : State), ident 12 screen = some n →
    s.ready (.free h screen) h 5 →
    ((s.screens.get n).holder ≠ some h.station → roleOf h.station ≠ .management →
      exec (.free h screen) s = .next (s.refusing (.free h screen) h 5 .held)) ∧
    ((s.screens.get n).holder = some h.station → (s.screens.get n).state ≠ .armed →
      (s.screens.get n).state ≠ .calibrating →
      exec (.free h screen) s = .next (s.refusing (.free h screen) h 5 .state)) ∧
    ((s.screens.get n).holder ≠ some h.station → roleOf h.station = .management →
      ((s.screens.get n).state = .offline ∨ (s.screens.get n).state = .dark) →
      exec (.free h screen) s = .next (s.refusing (.free h screen) h 5 .state)) ∧
    ((s.screens.get n).holder ≠ some h.station → roleOf h.station = .management →
      ((s.screens.get n).state.playing = true ∨ (s.screens.get n).state = .evacuated) →
      exec (.free h screen) s =
        .next ((((s.taking (.free h screen) h).modScreen n fun c => { c with holder := some h.station }).notify
          (requestNotice n (s.screens.get n).state (s.screens.get n).state (some h.station) .takeover
            h.station)).answering h (doneAnswer h 5 false []))) ∧
    (((s.screens.get n).holder = some h.station ∨ roleOf h.station = .management) →
      ((s.screens.get n).state = .armed ∨ (s.screens.get n).state = .calibrating) →
      ∃ t, exec (.free h screen) s = .next t ∧
        t = { s with
          ports := t.ports, screens := t.screens, outputs := t.outputs, attenuations := t.attenuations,
          alarms := t.alarms, grants := t.grants, context := t.context } ∧
        t.screens = s.screens.modify n (fun c => { c with state := .dark, holder := none, stamp := 0 }) ∧
        t.attenuations = s.attenuations.modify n (fun a => { a with current := 0 }) ∧
        t.alarms = s.alarms.modify n (fun a =>
          { a with
            records := a.records.map fun r => { r with state := .clear, phase := 0 },
            silenceRun := 0, loudTrim := 0, attention := false }) ∧
        ((s.screens.get n).state = .armed →
          t.grants = s.grants ∧ t.outputs = s.outputs ∧ t.context = s.context) ∧
        ((s.screens.get n).state = .calibrating →
          t.granted ∧
          (∀ o, t.outputs.get o = { s.outputs.get o with toneFlag := (t.outputs.get o).toneFlag }) ∧
          (∀ o, (s.outputs.get o).screen = some n → (t.outputs.get o).toneFlag = false) ∧
          (CalibrationLaw s → s.context.screen = some n → t.context = Context.reset)) ∧
        (∀ z u r, z = (if (s.screens.get n).state = .calibrating ∧ s.context.screen = some n then
              abortMeasurement .freed (s.taking (.free h screen) h) else s.taking (.free h screen) h) →
          u = { z with
            ports := tell (withdrawals n (s.alarms.get n)) z.ports, screens := t.screens,
            attenuations := t.attenuations, alarms := t.alarms,
            outputs := if (s.screens.get n).state = .calibrating then
                z.outputs.map fun o => if o.screen = some n then { o with toneFlag := false } else o
              else z.outputs } →
          r = (if (s.screens.get n).state = .calibrating then recompute .demand u else u) →
          t = (r.notify (requestNotice n .dark (s.screens.get n).state none .request h.station)).answering h
            (doneAnswer h 5 false [])) ∧
        (t.ports.get h.port).hasAnswer (doneAnswer h 5 false []))

/-- START: RANGE, HELD, BUSY, STATE, EVAC, LANE and NOPOWER in this order, each changing nothing; on success the screen
is in SHOW with its holder and the next start stamp, the grants are those of the admission, the meter's window and show
maximum, the alarms' phase counts and the loud trim are cleared, the layout source is DEFAULT, and the cue clock and
last cue call are those of the lane's word. A cue that fires may set a house level. After the recompute's and the cues'
notices goes the SHOW notice (01 R11, R12, R15, R26, 03 R56, 05 R103, 06 R117, 09 R162; candidate and stamps:
StampLawKept; recompute: PowerLawKept; startCues: CuesFireByTime; the order of the notices is log 6's). -/
def Obligations.StartJudged : Prop :=
  (∀ (h : Header) (screen : Nat) (s : State), (screen = 0 ∨ 12 < screen) → s.ready (.start h screen) h 6 →
    exec (.start h screen) s = .next (s.refusing (.start h screen) h 6 .range)) ∧
  ∀ (h : Header) (screen : Nat) (n : Fin 12) (s : State), ident 12 screen = some n →
    s.ready (.start h screen) h 6 →
    ((s.screens.get n).holder ≠ some h.station →
      exec (.start h screen) s = .next (s.refusing (.start h screen) h 6 .held)) ∧
    ((s.screens.get n).holder = some h.station →
      ((s.screens.get n).state = .ending →
        exec (.start h screen) s = .next (s.refusing (.start h screen) h 6 .busy)) ∧
      ((s.screens.get n).state ≠ .ending → (s.screens.get n).state ≠ .armed →
        exec (.start h screen) s = .next (s.refusing (.start h screen) h 6 .state)) ∧
      ((s.screens.get n).state = .armed → s.evac = true →
        exec (.start h screen) s = .next (s.refusing (.start h screen) h 6 .evac)) ∧
      ((s.screens.get n).state = .armed → s.evac = false → (s.lanes.get (programLane n)).delivering = false →
        exec (.start h screen) s = .next (s.refusing (.start h screen) h 6 .lane)) ∧
      ((s.screens.get n).state = .armed → s.evac = false → (s.lanes.get (programLane n)).delivering = true →
        ((candidate n .show (some h.station) s).allot.get n).status = .suspended →
        exec (.start h screen) s = .next (s.refusing (.start h screen) h 6 .nopower)) ∧
      ((s.screens.get n).state = .armed → s.evac = false → (s.lanes.get (programLane n)).delivering = true →
        ((candidate n .show (some h.station) s).allot.get n).status ≠ .suspended →
        ∃ t, exec (.start h screen) s = .next t ∧
          t = { s with
            ports := t.ports, screens := t.screens, stampCounter := t.stampCounter, outputs := t.outputs,
            routes := t.routes, meters := t.meters, alarms := t.alarms, grants := t.grants, pool := t.pool,
            cues := t.cues, booth := t.booth, context := t.context } ∧
          (∀ m, t.screens.get m =
            { (candidate n .show (some h.station) s).screens.get m with level := (t.screens.get m).level }) ∧
          t.stampCounter = (candidate n .show (some h.station) s).stampCounter ∧
          (t.screens.get n).state = .show ∧ (t.screens.get n).holder = some h.station ∧
          (s.stampCounter < 4294967295 →
            t.stampCounter = s.stampCounter + 1 ∧ (t.screens.get n).stamp = s.stampCounter + 1 ∧
            ∀ m, m ≠ n → (t.screens.get m).stamp = (s.screens.get m).stamp) ∧
          t.granted ∧
          t.meters = s.meters.modify n (fun m =>
            { m with
              segmentSum := 0, segmentFill := 0, ring := [], windowSum := 0, windowLevel := 0, windowSpl := 0,
              showMax := 0 }) ∧
          t.alarms = s.alarms.modify n (fun a =>
            { a with records := a.records.map fun r => { r with phase := 0 }, silenceRun := 0, loudTrim := 0 }) ∧
          t.routes = s.routes.modify n (fun r => { r with source := .default }) ∧
          (∀ w, (s.lanes.get (programLane n)).accepted = some w →
            (t.cues.get n).clock = some (min w.time 2073599) ∧ (t.cues.get n).lastCall = w.cueCall) ∧
          (∀ m, (t.cues.get m).timeList = (s.cues.get m).timeList ∧ (t.cues.get m).eventList = (s.cues.get m).eventList) ∧
          (∀ e, (t.pool.get e).map (fun c => { c with state := none }) =
            (s.pool.get e).map fun c => { c with state := none }) ∧
          (∀ o, t.outputs.get o = { s.outputs.get o with toneFlag := (t.outputs.get o).toneFlag }) ∧
          (∀ r, r = recompute .demand (candidate n .show (some h.station) (s.taking (.start h screen) h)) →
            t = ((startCues n { r with meters := t.meters, alarms := t.alarms, routes := t.routes }).notify
              (requestNotice n .show .armed (some h.station) .request h.station)).answering h
              (doneAnswer h 6 false [])) ∧
          (t.ports.get h.port).hasAnswer (doneAnswer h 6 false [])))

/-- PAUSE moves a SHOW screen to PAUSED, RESUME a PAUSED one to SHOW, and END a SHOW or PAUSED one to ENDING with a
fresh fade at the carried rate, clamped into 1 to 255, or at the configured one. Each sends its SHOW notice, then fires
the STATE entries of its transition. A screen out of range is refused with RANGE, a stranger with HELD, a screen in
ENDING with BUSY, and one in any other state with STATE (01 R4, R16, R17, R18; that the SHOW notice goes before the CUE
notices is the model's order, log 6). -/
def Obligations.PauseResumeAndEnd : Prop :=
  (∀ (h : Header) (screen : Nat) (s : State), (screen = 0 ∨ 12 < screen) →
    (s.ready (.pause h screen) h 7 →
      exec (.pause h screen) s = .next (s.refusing (.pause h screen) h 7 .range)) ∧
    (s.ready (.resume h screen) h 8 →
      exec (.resume h screen) s = .next (s.refusing (.resume h screen) h 8 .range)) ∧
    (∀ rate, s.ready (.endShow h screen rate) h 9 →
      exec (.endShow h screen rate) s = .next (s.refusing (.endShow h screen rate) h 9 .range))) ∧
  ∀ (h : Header) (screen : Nat) (n : Fin 12) (s : State), ident 12 screen = some n →
    (s.ready (.pause h screen) h 7 →
      ((s.screens.get n).holder ≠ some h.station →
        exec (.pause h screen) s = .next (s.refusing (.pause h screen) h 7 .held)) ∧
      ((s.screens.get n).holder = some h.station → (s.screens.get n).state = .ending →
        exec (.pause h screen) s = .next (s.refusing (.pause h screen) h 7 .busy)) ∧
      ((s.screens.get n).holder = some h.station → (s.screens.get n).state ≠ .ending → (s.screens.get n).state ≠ .show →
        exec (.pause h screen) s = .next (s.refusing (.pause h screen) h 7 .state)) ∧
      ((s.screens.get n).holder = some h.station → (s.screens.get n).state = .show →
        exec (.pause h screen) s =
          .next ((fireState n .pause (((s.taking (.pause h screen) h).modScreen n fun c =>
              { c with state := .paused }).notify
            (requestNotice n .paused .show (some h.station) .request h.station))).answering h
            (doneAnswer h 7 false [])))) ∧
    (s.ready (.resume h screen) h 8 →
      ((s.screens.get n).holder ≠ some h.station →
        exec (.resume h screen) s = .next (s.refusing (.resume h screen) h 8 .held)) ∧
      ((s.screens.get n).holder = some h.station → (s.screens.get n).state = .ending →
        exec (.resume h screen) s = .next (s.refusing (.resume h screen) h 8 .busy)) ∧
      ((s.screens.get n).holder = some h.station → (s.screens.get n).state ≠ .ending →
        (s.screens.get n).state ≠ .paused →
        exec (.resume h screen) s = .next (s.refusing (.resume h screen) h 8 .state)) ∧
      ((s.screens.get n).holder = some h.station → (s.screens.get n).state = .paused →
        exec (.resume h screen) s =
          .next ((fireState n .resume (((s.taking (.resume h screen) h).modScreen n fun c =>
              { c with state := .show }).notify
            (requestNotice n .show .paused (some h.station) .request h.station))).answering h
            (doneAnswer h 8 false [])))) ∧
    (∀ rate, s.ready (.endShow h screen rate) h 9 →
      ((s.screens.get n).holder ≠ some h.station →
        exec (.endShow h screen rate) s = .next (s.refusing (.endShow h screen rate) h 9 .held)) ∧
      ((s.screens.get n).holder = some h.station → (s.screens.get n).state = .ending →
        exec (.endShow h screen rate) s = .next (s.refusing (.endShow h screen rate) h 9 .busy)) ∧
      ((s.screens.get n).holder = some h.station → (s.screens.get n).state ≠ .ending →
        (s.screens.get n).state ≠ .show → (s.screens.get n).state ≠ .paused →
        exec (.endShow h screen rate) s = .next (s.refusing (.endShow h screen rate) h 9 .state)) ∧
      ((s.screens.get n).holder = some h.station →
        ((s.screens.get n).state = .show ∨ (s.screens.get n).state = .paused) →
        exec (.endShow h screen rate) s =
          .next ((fireState n .endBegin (((s.taking (.endShow h screen rate) h).modScreen n fun c =>
              { c with
                state := .ending, fadeAtt := 0, fadeCount := 0,
                rateInEffect := some ((rate.map fun v => max 1 (min v 255)).getD c.config.fadeRate),
                fadeTaken := false }).notify
            (requestNotice n .ending (s.screens.get n).state (some h.station) .request h.station))).answering h
            (doneAnswer h 9 (rate.any fun v => decide (v = 0 ∨ 255 < v)) []))))

/-- The configuration that a SCREEN SET leaves: each carried field clamped into its range, every other kept, and the
reduced draw lowered to the full draw (01 R24). `clamped` tells whether any of that changed a value. That a permit or a
lane level code above 1 is stored as on with CLAMPED is the model's, log 13, and so is that a default layout above 15 is
clamped, log 14. -/
def Obligations.ScreenSettingsSelected : Prop :=
  ∀ (c : ScreenConfig) (sel : ScreenSel),
    (c.select sel).value =
      { priority := (sel.priority.map fun v => min v 3).getD c.priority
        fullDraw := (sel.fullDraw.map fun v => min v 65535).getD c.fullDraw
        reducedDraw :=
          min ((sel.reducedDraw.map fun v => min v 65535).getD c.reducedDraw)
            ((sel.fullDraw.map fun v => min v 65535).getD c.fullDraw)
        shedAtt := (sel.shedAtt.map fun v => min v 48).getD c.shedAtt
        fadeRate := (sel.fadeRate.map fun v => max 1 (min v 255)).getD c.fadeRate
        lipSync := (sel.lipSync.map fun v => min v 4799).getD c.lipSync
        permit := (sel.permit.map fun v => decide (v ≠ 0)).getD c.permit
        laneLevel := (sel.laneLevel.map fun v => decide (v ≠ 0)).getD c.laneLevel
        defaultLayout := (sel.defaultLayout.map fun v => min v 15).getD c.defaultLayout } ∧
    ((c.select sel).clamped = true ↔
      (∃ v, sel.priority = some v ∧ 3 < v) ∨ (∃ v, sel.fullDraw = some v ∧ 65535 < v) ∨
      (∃ v, sel.reducedDraw = some v ∧ 65535 < v) ∨
      ((sel.fullDraw.map fun v => min v 65535).getD c.fullDraw <
        (sel.reducedDraw.map fun v => min v 65535).getD c.reducedDraw) ∨
      (∃ v, sel.shedAtt = some v ∧ 48 < v) ∨ (∃ v, sel.fadeRate = some v ∧ (v = 0 ∨ 255 < v)) ∨
      (∃ v, sel.lipSync = some v ∧ 4799 < v) ∨ (∃ v, sel.permit = some v ∧ 1 < v) ∨
      (∃ v, sel.laneLevel = some v ∧ 1 < v) ∨ (∃ v, sel.defaultLayout = some v ∧ 15 < v))

/-- SCREEN SET stores the selected configuration and computes the power again when a priority or a draw changes. A
screen out of range is refused with RANGE. A lip-sync offset that differs needs an OFFLINE or DARK screen, or STATE, and
the reallocation of all the screen's outputs, whose refusal refuses the request (01 R24, 04 R87, 08 R145). That the
offset is compared after it is clamped is the model's, log 14. -/
def Obligations.ScreenSetStores : Prop :=
  (∀ (h : Header) (screen : Nat) (sel : ScreenSel) (s : State), (screen = 0 ∨ 12 < screen) → s.ready (.screenSet h screen sel) h 11 →
    exec (.screenSet h screen sel) s = .next (s.refusing (.screenSet h screen sel) h 11 .range)) ∧
  ∀ (h : Header) (screen : Nat) (sel : ScreenSel) (n : Fin 12) (s : State) (c : ScreenConfig),
    ident 12 screen = some n → s.ready (.screenSet h screen sel) h 11 →
    ((s.screens.get n).config.select sel).value = c →
    (c.lipSync ≠ (s.screens.get n).config.lipSync → (s.screens.get n).state ≠ .offline → (s.screens.get n).state ≠ .dark →
      exec (.screenSet h screen sel) s = .next (s.refusing (.screenSet h screen sel) h 11 .state)) ∧
    (∀ why, c.lipSync ≠ (s.screens.get n).config.lipSync →
      ((s.screens.get n).state = .offline ∨ (s.screens.get n).state = .dark) →
      s.reallocRefusal (s.lipChanges n c.lipSync) = some why →
      exec (.screenSet h screen sel) s = .next (s.refusing (.screenSet h screen sel) h 11 why)) ∧
    (∀ u, (c.lipSync = (s.screens.get n).config.lipSync ∧ u = s.taking (.screenSet h screen sel) h ∨
        c.lipSync ≠ (s.screens.get n).config.lipSync ∧
          ((s.screens.get n).state = .offline ∨ (s.screens.get n).state = .dark) ∧
          s.reallocRefusal (s.lipChanges n c.lipSync) = none ∧
          u = reallocate (s.lipChanges n c.lipSync) (s.taking (.screenSet h screen sel) h)) →
      exec (.screenSet h screen sel) s =
        .next ((if c.priority = (s.screens.get n).config.priority ∧ c.fullDraw = (s.screens.get n).config.fullDraw ∧
            c.reducedDraw = (s.screens.get n).config.reducedDraw then u.modScreen n fun x => { x with config := c }
          else recompute .settings (u.modScreen n fun x => { x with config := c })).answering h
          (doneAnswer h 11 ((s.screens.get n).config.select sel).clamped [])))

/-- A fade step that is due raises the fade attenuation by one and returns the count to 0; a fade that has reached 80 is
completed: the screen is ARMED with its holder, its fade and stamp are cleared, the loud trim and the base current are 0
and the power is computed again; its END-DONE cues fire, and its SHOW notice carries the show maximum. An event that is
not due changes nothing (01 R19, R26, 05 R103, 09 R163; recompute: PowerLawKept; fireState: CuesFireByTime; the fade
step of a house block taken by its own command is the model's, log 2, and the order of the notices log 6's). -/
def Obligations.FadeStepAndCompletion : Prop :=
  ∀ (n : Fin 12) (s : State),
    ((s.screens.get n).state = .ending → (s.screens.get n).fadeTaken = false →
      (s.screens.get n).rateInEffect.getD (s.screens.get n).config.fadeRate ≤ (s.screens.get n).fadeCount + 1 →
      exec (.fadeStep n) s =
        .next (s.modScreen n fun c => { c with fadeCount := 0, fadeAtt := c.fadeAtt + 1, fadeTaken := true })) ∧
    (¬((s.screens.get n).state = .ending ∧ (s.screens.get n).fadeTaken = false ∧
        (s.screens.get n).rateInEffect.getD (s.screens.get n).config.fadeRate ≤ (s.screens.get n).fadeCount + 1) →
      exec (.fadeStep n) s = .next s) ∧
    (¬((s.screens.get n).state = .ending ∧ 80 ≤ (s.screens.get n).fadeAtt) → exec (.fadeCompletion n) s = .next s) ∧
    ((s.screens.get n).state = .ending → 80 ≤ (s.screens.get n).fadeAtt →
      ∃ t, exec (.fadeCompletion n) s = .next t ∧
        t = { s with
          ports := t.ports, screens := t.screens, outputs := t.outputs, attenuations := t.attenuations,
          alarms := t.alarms, grants := t.grants, pool := t.pool, cues := t.cues, booth := t.booth,
          context := t.context } ∧
        (∀ m, m ≠ n → t.screens.get m = { s.screens.get m with level := (t.screens.get m).level }) ∧
        t.screens.get n =
          { s.screens.get n with
            state := .armed, fadeAtt := 0, fadeCount := 0, rateInEffect := none, fadeTaken := false, stamp := 0 } ∧
        t.attenuations = s.attenuations.modify n (fun a => { a with current := 0 }) ∧
        t.alarms = s.alarms.modify n (fun a => { a with loudTrim := 0 }) ∧
        t.granted ∧
        (∀ r, r = recompute .demand { s with
            attenuations := t.attenuations,
            screens := s.screens.modify n fun c =>
              { c with
                state := .armed, fadeAtt := 0, fadeCount := 0, rateInEffect := none, fadeTaken := false, stamp := 0 } } →
          t = (fireState n .endDone { r with alarms := t.alarms }).notify
            (.showN n .armed .ending (s.screens.get n).holder .fade none none (some (s.meters.get n).showMax))) ∧
        (∀ o, t.outputs.get o = { s.outputs.get o with toneFlag := (t.outputs.get o).toneFlag }))

/-- The assertion of EVAC makes every SHOW, PAUSED and ENDING screen EVACUATED, abandons fades, ends a measurement and
the tones of CALIBRATING screens, and computes the power once; the release makes every EVACUATED screen PAUSED with a
new start stamp, in ascending order. The booth lines show their values again. Each sends the SITE notice, a SHOW notice
for each screen that changed, in ascending order, then the MEASURE notice of the measurement it ends and the recompute's
notices. A line held already changes nothing (01 R11, R22, R23, R26, 02 R41, 09 R166, 10 R171, R175; takeStamp:
StampLawKept; abortMeasurement: CalibrationRequests; recompute: PowerLawKept; the order of the notices of several
blocks, and that the SHOW notices go in ascending order of screen number, are log 6's). -/
def Obligations.EvacMovesScreens : Prop :=
  ∀ s : State,
    (s.evac = true → exec .evacAsserted s = .next s) ∧
    (s.evac = false → exec .evacReleased s = .next s) ∧
    (s.evac = false → ∃ t, exec .evacAsserted s = .next t ∧
      t = { s with
        evac := true, ports := t.ports, screens := t.screens, outputs := t.outputs, grants := t.grants,
        booth := t.booth, context := t.context } ∧
      (∀ n, t.screens.get n =
        if (s.screens.get n).state.playing = true then
          { s.screens.get n with
            state := .evacuated, stamp := 0, fadeAtt := 0, fadeCount := 0, rateInEffect := none, fadeTaken := false }
        else s.screens.get n) ∧
      (∀ n l, t.line n l = { s.line n l with output := (s.line n l).shown true }) ∧
      (CalibrationLaw s → t.context = Context.reset) ∧
      (∀ o n, (s.outputs.get o).screen = some n → (s.screens.get n).state = .calibrating →
        (t.outputs.get o).toneFlag = false) ∧
      (∀ o, t.outputs.get o = { s.outputs.get o with toneFlag := (t.outputs.get o).toneFlag }) ∧
      (∀ y : State, y = abortMeasurement .evac { s with
          evac := true, screens := t.screens, booth := t.booth,
          ports := tell (.site (.evac true false) :: (List.finRange 12).filterMap fun n =>
            if (s.screens.get n).state.playing = true then
              some (.showN n .evacuated (s.screens.get n).state (s.screens.get n).holder .evac none none none)
            else none) s.ports } →
        t = recompute .demand { y with
          outputs := y.outputs.map fun o =>
            if ∃ n, o.screen = some n ∧ (s.screens.get n).state = .calibrating then { o with toneFlag := false }
            else o }) ∧
      t.granted) ∧
    (s.evac = true → ∃ t, exec .evacReleased s = .next t ∧
      t = { s with
        evac := false, ports := t.ports, screens := t.screens, stampCounter := t.stampCounter, outputs := t.outputs,
        grants := t.grants, booth := t.booth, context := t.context } ∧
      (∀ n, { t.screens.get n with stamp := 0 } =
        { s.screens.get n with
          stamp := 0, state := if (s.screens.get n).state = .evacuated then .paused else (s.screens.get n).state }) ∧
      (s.stampCounter + 12 ≤ 4294967295 → ∀ n, (t.screens.get n).stamp =
        if (s.screens.get n).state = .evacuated then
          s.stampCounter +
            ((List.finRange 12).filter fun m => decide (m ≤ n ∧ (s.screens.get m).state = .evacuated)).length
        else (s.screens.get n).stamp) ∧
      (∀ n l, t.line n l = { s.line n l with output := (s.line n l).shown false }) ∧
      (∀ x : State, x = overScreens (fun n z =>
            if (z.screens.get n).state = .evacuated then (takeStamp n z).modScreen n fun c => { c with state := .paused }
            else z) { s with evac := false } →
        t = recompute .demand { x with
          booth := t.booth,
          ports := tell (.site (.evac false true) :: (List.finRange 12).filterMap fun n =>
            if (s.screens.get n).state = .evacuated then
              some (.showN n .paused .evacuated (s.screens.get n).holder .release none none none)
            else none) s.ports }) ∧
      (∀ o, t.outputs.get o = { s.outputs.get o with toneFlag := (t.outputs.get o).toneFlag }) ∧
      t.granted)

/-- AUTOMATIC_START, the block event at which an automatic start is attempted: one at which a word with a rolling edge
is accepted, the screen being ARMED with its standing permit on. It is that block event whole, as LANE_BLOCK_EVENT
takes it (LaneBlocks), for the start is judged at the acceptance, in one event with it; at a block that attempts no
start it changes nothing, so an edge spent earlier, or one that came while the permit was off, starts no show later.
The start is judged by the conditions of START: it makes the show, with the effects of a successful start, or sends a
SHOW notice that tells why not. Then the last rolling field takes the flag and the level request is judged, which the
word that starts a show makes too. The two orders of the word's readers differ in the layout source alone (01 R11,
R13, R14, R15, R21, R26, 02 R35, 03 R56, 09 R162; candidate and stamps: StampLawKept; recompute: PowerLawKept;
startCues: CuesFireByTime; that this block event has a command of its own, and that its operand orders the readers, is
the model's, log 7, and so are the cause, the absent station and the refusal's code in the notice of a start that was
refused, log 23). -/
def Obligations.AutomaticStartJudged : Prop :=
  ∀ (n : Fin 12) (b : LaneBlock) (since : Nat) (screensLast : Bool) (s : State) (l : Lane) (w : SideWord),
    l = s.lanes.get (programLane n) → w = readSideWord b.side →
    (¬(goodBlock b.side = true ∧
        (l.sync = .locked ∨ l.sync = .flywheel ∨ l.sync = .probation ∧ 3 ≤ l.good.getD 0 + 1) ∧
        (s.screens.get n).rolls w) →
      exec (.automaticStart ⟨n, b, since, screensLast⟩) s = .next s) ∧
    (goodBlock b.side = true →
      (l.sync = .locked ∨ l.sync = .flywheel ∨ l.sync = .probation ∧ 3 ≤ l.good.getD 0 + 1) →
      (s.screens.get n).rolls w →
      exec (.automaticStart ⟨n, b, since, screensLast⟩) s =
        exec (.laneBlockEvent (programLane n) b since screensLast) s ∧
      (∀ why, (s.evac = true ∧ why = .evac ∨
          s.evac = false ∧ ((candidate n .show (s.screens.get n).holder s).allot.get n).status = .suspended ∧
            why = .nopower) →
        ∃ t, exec (.automaticStart ⟨n, b, since, screensLast⟩) s = .next t ∧
          t = { s with
            lanes := t.lanes, ports := t.ports, routes := t.routes,
            screens := s.screens.modify n fun c => { c with lastRolling := some true, lastLevel := w.level },
            cues := s.cues.modify n fun x => { x with lastCall := w.cueCall } } ∧
          (l.sync = .locked →
            t.ports = tell [.showN n .armed .armed (s.screens.get n).holder .auto none (some why) none] s.ports)) ∧
      (s.evac = false → ((candidate n .show (s.screens.get n).holder s).allot.get n).status ≠ .suspended →
        ∃ t, exec (.automaticStart ⟨n, b, since, screensLast⟩) s = .next t ∧
          t = { s with
            ports := t.ports, screens := t.screens, stampCounter := t.stampCounter, lanes := t.lanes,
            outputs := t.outputs, routes := t.routes, meters := t.meters, alarms := t.alarms, grants := t.grants,
            pool := t.pool, cues := t.cues, booth := t.booth, context := t.context } ∧
          (t.screens.get n).state = .show ∧ (t.screens.get n).holder = (s.screens.get n).holder ∧
          (t.screens.get n).config = (s.screens.get n).config ∧
          (s.stampCounter < 4294967295 →
            t.stampCounter = s.stampCounter + 1 ∧ (t.screens.get n).stamp = s.stampCounter + 1) ∧
          (t.screens.get n).lastRolling = some true ∧ (t.screens.get n).lastLevel = w.level ∧
          ((s.screens.get n).config.laneLevel = true → w.level ≤ 100 → w.level ≠ (s.screens.get n).lastLevel →
            (t.screens.get n).level = w.level) ∧
          t.granted ∧ (t.cues.get n).clock = some (min w.time 2073599) ∧ (t.cues.get n).lastCall = w.cueCall ∧
          t.meters = s.meters.modify n (fun m =>
            { m with
              segmentSum := 0, segmentFill := 0, ring := [], windowSum := 0, windowLevel := 0, windowSpl := 0,
              showMax := 0 }) ∧
          t.alarms = s.alarms.modify n (fun a =>
            { a with records := a.records.map fun r => { r with phase := 0 }, silenceRun := 0, loudTrim := 0 }) ∧
          (t.lanes.get (programLane n)).accepted = some w ∧
          (t.routes.get n).held =
            (if (s.layoutRecord w.layout).isSome = true then some w.layout else (s.routes.get n).held) ∧
          (t.routes.get n).source =
            (if screensLast = false ∧ (s.layoutRecord w.layout).isSome = true then .lane else .default) ∧
          -- the two orders of the readers differ in the layout source alone
          ∃ u, exec (.automaticStart ⟨n, b, since, !screensLast⟩) s = .next u ∧ u = { t with routes := u.routes }))

/-! ### Lanes and the house clock -/

/-- The search: activity lost takes a lane to NOSIGNAL with nothing held, activity seen takes it from NOSIGNAL to HUNT,
and a good block found in HUNT takes it to PROBATION with a good count of 1; an event in another state changes nothing
(02 R30, R31, R35, 01 R13). Each change of state sends its LANE notice (02 R44). Lane 13 is MS, whose entry into
NOSIGNAL or HUNT aborts a measurement (10 R175; abortMeasurement: CalibrationRequests); that its LANE notice goes
before the MEASURE notice of the abort is the model's order, log 6. A block is good when the bytes that its auxiliary
bits spell, each byte's most significant bit first and two bits to a frame, are 12, begin with 0xB4 and end with the
CRC of the ten before, its high byte first; the CRC starts at all ones and takes each byte's most significant bit
first, with generator x^16 + x^12 + x^5 + 1 (02 R27, R29, 11 R180). -/
def Obligations.LaneSearch : Prop :=
  -- a good block
  (∀ b : LaneBlock, b.side = bytesOfAux b.aux) ∧
  (∀ (b : Byte) (rest : List (Bool × Bool)),
    bytesOfAux ((b.getLsbD 7, b.getLsbD 6) :: (b.getLsbD 5, b.getLsbD 4) :: (b.getLsbD 3, b.getLsbD 2) ::
      (b.getLsbD 1, b.getLsbD 0) :: rest) = b :: bytesOfAux rest) ∧
  bytesOfAux [] = [] ∧
  (∀ side, side.length ≠ 12 → goodBlock side = false) ∧
  (∀ (mark : Byte) (rest : List Byte) (hi lo : Byte), rest.length = 9 →
    (goodBlock (mark :: rest ++ [hi, lo]) = true ↔
      mark = 0xB4#8 ∧ (crc (mark :: rest)).toNat = 256 * hi.toNat + lo.toNat)) ∧
  crc [] = 0xFFFF#16 ∧
  (∀ (l : List Byte) (b : Byte), crc (l ++ [b]) =
    [7, 6, 5, 4, 3, 2, 1, 0].foldl
      (fun (r : BitVec 16) (i : Nat) => if (r.getLsbD 15 ^^ b.getLsbD i) = true then (r <<< 1) ^^^ 0x1021#16 else r <<< 1) (crc l)) ∧
  -- the search
  ∀ (l : Fin 14) (s : State),
    ((s.lanes.get l).sync = .nosignal → exec (.activityLost l) s = .next s) ∧
    ((s.lanes.get l).sync ≠ .nosignal → ∃ t, exec (.activityLost l) s = .next t ∧
      t.lanes = s.lanes.modify l (fun x =>
        { x with
          sync := .nosignal, alignment := none, good := none, bad := none, skew := none, store := [], accepted := none }) ∧
      (∀ n w, laneScreen l = some n → (s.lanes.get l).accepted = some w → (t.screens.get n).lastRolling = none) ∧
      (CalibrationLaw s → l = 13 → t.context = Context.reset) ∧
      (laneScreen l = none → t = { s with
        lanes := t.lanes, ports := t.ports, outputs := t.outputs, context := t.context })) ∧
    (∀ y q : State, y = { s with
        lanes := s.lanes.modify l fun x =>
          { x with
            sync := .nosignal, alignment := none, good := none, bad := none, skew := none, store := [], accepted := none },
        screens := match laneScreen l, (s.lanes.get l).accepted with
          | some n, some _ => s.screens.modify n fun c => { c with lastRolling := none }
          | _, _ => s.screens } →
      (s.lanes.get l).sync ≠ .nosignal →
      q = y.notify (.lane l .nosignal (s.lanes.get l).sync .lost (s.lanes.get l).slips) →
      exec (.activityLost l) s = .next (if l = 13 then abortMeasurement .lane q else q)) ∧
    ((s.lanes.get l).sync ≠ .nosignal → exec (.activitySeen l) s = .next s) ∧
    ((s.lanes.get l).sync = .nosignal → l ≠ 13 →
      exec (.activitySeen l) s =
        .next ((s.modLane l fun x => { x with sync := .hunt }).notify
          (.lane l .hunt .nosignal .activity (s.lanes.get l).slips))) ∧
    ((s.lanes.get l).sync = .nosignal → l = 13 → ∃ t, exec (.activitySeen l) s = .next t ∧
      t = { s with lanes := t.lanes, ports := t.ports, outputs := t.outputs, context := t.context } ∧
      t.lanes = s.lanes.modify l (fun x => { x with sync := .hunt }) ∧
      t = abortMeasurement .lane ((s.modLane l fun x => { x with sync := .hunt }).notify
        (.lane l .hunt .nosignal .activity (s.lanes.get l).slips)) ∧
      (CalibrationLaw s → t.context = Context.reset)) ∧
    (∀ b position since, (s.lanes.get l).sync = .hunt → goodBlock b.side = true →
      exec (.blockFound l b position since) s =
        .next ((s.modLane l fun x =>
            { x with
              sync := .probation, alignment := some position, good := some 1, skew := some (since % 48) }).notify
          (.lane l .probation .hunt .found (s.lanes.get l).slips))) ∧
    (∀ b position since, ¬((s.lanes.get l).sync = .hunt ∧ goodBlock b.side = true) →
      exec (.blockFound l b position since) s = .next s)

/-- A block event in each sync state: what the lane record holds after it, for good and bad blocks, and that the other
lanes are left. A word accepted on Pn is the lane's accepted word, its defined layout is held as the lane's, and its
cue call is stored. An entry into another state sends its LANE notice, with the slips after the block's write; MS
entering HUNT aborts a measurement (abortMeasurement: CalibrationRequests). The word's fields are those of the table of
02 R28 at the bytes of 11 R180; good blocks are those of LaneSearch (02 R28, R32, R33, R34, R35, R36, R37, R40, R44, 03
R56, 09 R158, 10 R175, 11 R180). The three readers act within the block event (`Accepts`). The model's choices: the
order between the readers, an operand of the command, log 7 (where the Screen Controller comes last its automatic start
leaves the layout source DEFAULT); the order of the notices of several blocks, log 6: the LANE notice before the SHOW,
CUE and POWER notices of the accepted word, the SHOW notice of a start after its POWER and CUE notices, and the LANE
notice before the MEASURE notice of an abort; and the SHOW notice of an automatic start that is refused (in `Accepts`),
log 23. -/
def Obligations.LaneBlocks : Prop :=
  (∀ b0 b1 b2 b3 b4 b5 b6 b7 b8 b9 b10 b11 : Byte, readSideWord [b0, b1, b2, b3, b4, b5, b6, b7, b8, b9, b10, b11] =
    { mark := b0.toNat, layout := b1.toNat, flags := b2.toNat, reel := b3.toNat,
      time := 65536 * b4.toNat + 256 * b5.toNat + b6.toNat, level := b7.toNat, server := b8.toNat,
      cueCall := b9.toNat, check := 256 * b10.toNat + b11.toNat }) ∧
  ∀ (l : Fin 14) (b : LaneBlock) (since : Nat) (screensLast : Bool) (s : State),
    ∃ t, exec (.laneBlockEvent l b since screensLast) s = .next t ∧
      (∀ m, m ≠ l → t.lanes.get m = s.lanes.get m) ∧
      (((s.lanes.get l).sync = .nosignal ∨ (s.lanes.get l).sync = .hunt) → t = s) ∧
      (∀ n, laneScreen l = some n → goodBlock b.side = true →
        ((s.lanes.get l).sync = .locked ∨ (s.lanes.get l).sync = .flywheel ∨
          (s.lanes.get l).sync = .probation ∧ (s.lanes.get l).good = some 2) →
        (t.lanes.get l).accepted = some (readSideWord b.side) ∧
        ((s.layoutRecord (readSideWord b.side).layout).isSome = true →
          ((screensLast = false ∨ ¬(s.screens.get n).rolls (readSideWord b.side)) → (t.routes.get n).source = .lane) ∧
          (t.routes.get n).held = some (readSideWord b.side).layout) ∧
        ((s.layoutRecord (readSideWord b.side).layout).isSome = false →
          (t.routes.get n).held = (s.routes.get n).held) ∧
        (t.cues.get n).lastCall = (readSideWord b.side).cueCall) ∧
      (laneScreen l = none → (t.lanes.get l).accepted = (s.lanes.get l).accepted ∨ (t.lanes.get l).accepted = none) ∧
      ((s.lanes.get l).sync = .probation → goodBlock b.side = true → (s.lanes.get l).good = some 1 →
        t.lanes.get l = { s.lanes.get l with
          good := some 2, skew := some (since % 48) }) ∧
      ((s.lanes.get l).sync = .probation → goodBlock b.side = true → (s.lanes.get l).good = some 2 →
        t.lanes.get l = { s.lanes.get l with
          sync := .locked, good := none, skew := some (since % 48),
          store := [List.replicate 48 (List.replicate 16 0), b.frames],
          accepted := (t.lanes.get l).accepted }) ∧
      ((s.lanes.get l).sync = .locked → goodBlock b.side = true →
        t.lanes.get l = { (s.lanes.get l).write b.frames with
          skew := some (since % 48), accepted := (t.lanes.get l).accepted }) ∧
      ((s.lanes.get l).sync = .locked → goodBlock b.side = false →
        t.lanes.get l = { (s.lanes.get l).write (List.replicate 48 (List.replicate 16 0)) with
          sync := .flywheel, bad := some 1, badBlocks := (s.lanes.get l).badBlocks + 1 }) ∧
      ((s.lanes.get l).sync = .flywheel → goodBlock b.side = true →
        t.lanes.get l = { (s.lanes.get l).write b.frames with
          sync := .locked, bad := none, skew := some (since % 48), accepted := (t.lanes.get l).accepted }) ∧
      (∀ k, (s.lanes.get l).sync = .flywheel → goodBlock b.side = false → (s.lanes.get l).bad = some k → k < 4 →
        t.lanes.get l = { (s.lanes.get l).write (List.replicate 48 (List.replicate 16 0)) with
          bad := some (k + 1), badBlocks := (s.lanes.get l).badBlocks + 1 }) ∧
      ((s.lanes.get l).sync = .flywheel → goodBlock b.side = false → (s.lanes.get l).bad = some 4 →
        t.lanes.get l = { s.lanes.get l with
          sync := .hunt, alignment := none, good := none, bad := none, skew := none, store := [], accepted := none, badBlocks := (s.lanes.get l).badBlocks + 1 }) ∧
      ((s.lanes.get l).sync = .probation → goodBlock b.side = false →
        t.lanes.get l = { s.lanes.get l with
          sync := .hunt, alignment := none, good := none, bad := none, skew := none, store := [], accepted := none }) ∧
      -- the whole state, with its notices
      ∀ (zeros : Audio), zeros = List.replicate 48 (List.replicate 16 0) →
        (((s.lanes.get l).sync = .nosignal ∨ (s.lanes.get l).sync = .hunt) → t = s) ∧
        ((s.lanes.get l).sync = .probation → goodBlock b.side = true → (s.lanes.get l).good = some 1 →
          t = s.modLane l fun x => { x with good := some 2, skew := some (since % 48) }) ∧
        ((s.lanes.get l).sync = .probation → goodBlock b.side = true → (s.lanes.get l).good = some 2 →
          Accepts l b.side screensLast ((s.modLane l fun x =>
            { x with
              sync := .locked, good := none, skew := some (since % 48), store := [zeros, b.frames] }).notify
              (.lane l .locked .probation .good (s.lanes.get l).slips)) t) ∧
        ((s.lanes.get l).sync = .locked → goodBlock b.side = true →
          Accepts l b.side screensLast
            (s.modLane l fun x => { x.write b.frames with skew := some (since % 48) }) t) ∧
        ((s.lanes.get l).sync = .locked → goodBlock b.side = false →
          t = (s.modLane l fun x =>
            { x.write zeros with sync := .flywheel, bad := some 1, badBlocks := x.badBlocks + 1 }).notify
              (.lane l .flywheel .locked .bad ((s.lanes.get l).write zeros).slips)) ∧
        ((s.lanes.get l).sync = .flywheel → goodBlock b.side = true →
          Accepts l b.side screensLast ((s.modLane l fun x =>
            { x.write b.frames with sync := .locked, bad := none, skew := some (since % 48) }).notify
              (.lane l .locked .flywheel .good ((s.lanes.get l).write b.frames).slips)) t) ∧
        (∀ k, (s.lanes.get l).sync = .flywheel → goodBlock b.side = false → (s.lanes.get l).bad = some k → k < 4 →
          t = s.modLane l fun x => { x.write zeros with bad := some (k + 1), badBlocks := x.badBlocks + 1 }) ∧
        (∀ cause q, goodBlock b.side = false →
          ((s.lanes.get l).sync = .probation ∧ cause = .bad ∨
            (s.lanes.get l).sync = .flywheel ∧ (s.lanes.get l).bad = some 4 ∧ cause = .expired) →
          q = ({ s with
            lanes := s.lanes.modify l fun x =>
              { x with
                sync := .hunt, alignment := none, good := none, bad := none, skew := none, store := [],
                accepted := none,
                badBlocks := if cause = .expired then x.badBlocks + 1 else x.badBlocks },
            screens := match laneScreen l, (s.lanes.get l).accepted with
              | some n, some _ => s.screens.modify n fun c => { c with lastRolling := none }
              | _, _ => s.screens } : State).notify
              (.lane l .hunt (s.lanes.get l).sync cause (s.lanes.get l).slips) →
          t = if l = 13 then abortMeasurement .lane q else q)

/-- A write puts a block at the end of the elastic store, of which a full one of 4 blocks first loses its oldest with an
overrun slip; a read takes the oldest block, and a read of an empty store of a delivering lane is an underrun slip.
What a lane hands on is the block read, with zero in every masked slot of every frame (02 R36, R38, R45). -/
def Obligations.ElasticStore : Prop :=
  ∀ (x : Lane) (a : Audio),
    (x.store.length < 4 → x.write a = { x with store := x.store ++ [a] }) ∧
    (4 ≤ x.store.length →
      x.write a = { x with
        store := x.store.drop 1 ++ [a], slips := x.slips + 1, intervalSlips := min 4095 (x.intervalSlips + 1),
        lastSlip := some .overrun }) ∧
    (∀ b rest, x.delivering = true → x.store = b :: rest → x.read = (b, { x with store := rest })) ∧
    (x.delivering = true → x.store = [] →
      x.read = (List.replicate 48 (List.replicate 16 0), { x with
        slips := x.slips + 1, intervalSlips := min 4095 (x.intervalSlips + 1), lastSlip := some .underrun })) ∧
    (x.delivering = false → x.read = (List.replicate 48 (List.replicate 16 0), x)) ∧
    x.handed = x.read.1.map fun f => f.mapIdx fun i y => if x.mask.getLsbD i = true then 0 else y

/-- LANE SET replaces the slot mask of one lane. LAYOUT SET replaces a whole layout record: a role carried takes its
last source, its steps clamped into -24 to 0 with CLAMPED, and a role not carried takes NONE, as does one carried with
NONE, which is always valid; a role code or a slot out of range refuses it with RANGE. The two change nothing else (02
R45, 03 R54; a role carried twice is log 21's). -/
def Obligations.LaneSetAndLayoutSet : Prop :=
  (∀ (h : Header) (lane : Nat) (mask : BitVec 16) (s : State), s.ready (.laneSet h lane mask) h 13 →
    (∀ l, ident 14 lane = some l →
      exec (.laneSet h lane mask) s =
        .next (((s.taking (.laneSet h lane mask) h).modLane l fun x => { x with mask := mask }).answering h
          (doneAnswer h 13 false []))) ∧
    ((lane = 0 ∨ 14 < lane) →
      exec (.laneSet h lane mask) s = .next (s.refusing (.laneSet h lane mask) h 13 .range))) ∧
  (∀ (h : Header) (code : Nat) (sources : List RoleSource) (s : State), s.ready (.layoutSet h code sources) h 17 →
    (15 < code → exec (.layoutSet h code sources) s = .next (s.refusing (.layoutSet h code sources) h 17 .range)) ∧
    ((∃ r ∈ sources, r.role = 0 ∨ 12 < r.role ∨ sourceValid r.source = false) →
      exec (.layoutSet h code sources) s = .next (s.refusing (.layoutSet h code sources) h 17 .range)) ∧
    (∀ c, ident0 16 code = some c →
      (∀ r ∈ sources, 1 ≤ r.role ∧ r.role ≤ 12 ∧ sourceValid r.source = true) →
      ∃ t, exec (.layoutSet h code sources) s =
          .next (({ s.taking (.layoutSet h code sources) h with layouts := s.layouts.set c (some t) } : State).answering h
            (doneAnswer h 17 (sources.any fun r => (clampSource r.source).clamped) [])) ∧
        ∀ i : Fin 12, t.get i =
          (((sources.filter fun r => decide (r.role = i.val + 1)).getLast?.map fun r =>
            (clampSource r.source).value).getD .none))) ∧
  (sourceValid .none = true ∧ clampSource .none = { value := .none, clamped := false }) ∧
  (∀ slot step, sourceValid (.one slot step) = decide (1 ≤ slot ∧ slot ≤ 16) ∧
    clampSource (.one slot step) =
      { value := .one slot (max (-24) (min step 0)), clamped := decide (step < -24 ∨ 0 < step) }) ∧
  (∀ i gi j gj, sourceValid (.two i gi j gj) = decide ((1 ≤ i ∧ i ≤ 16) ∧ 1 ≤ j ∧ j ≤ 16) ∧
    clampSource (.two i gi j gj) =
      { value := .two i (max (-24) (min gi 0)) j (max (-24) (min gj 0))
        clamped := decide (gi < -24 ∨ 0 < gi ∨ gj < -24 ∨ 0 < gj) })

/-- The evacuation paging step: PAGING SET from a MANAGEMENT station stores it clamped into -40 to 12, in every state
of the part, and without a value answers the one in force; a reset and a RESTART return it to 0, DISABLE keeps it, and
paging samples are made with it. -/
def Obligations.PagingStep : Prop :=
  (∀ station, allowed 19 station = true ↔ roleOf station = .management) ∧
  (∀ (h : Header) (s : State),
    (∀ v, s.ready (.pagingSet h (some v)) h 19 →
      exec (.pagingSet h (some v)) s =
        .next (({ s.taking (.pagingSet h (some v)) h with pagingStep := max (-40) (min v 12) } : State).answering h
          (doneAnswer h 19 (decide (v < -40 ∨ 12 < v)) []))) ∧
    (s.ready (.pagingSet h none) h 19 →
      exec (.pagingSet h none) s =
        .next (s.replying (.pagingSet h none) h (doneAnswer h 19 false [.num 1 s.pagingStep])))) ∧
  (∀ lines s, ∃ t, exec (.powerOnReset lines) s = .next t ∧ t.pagingStep = 0) ∧
  (∀ port a b x s, (s.ports.get port).tx = some (.answer x) → x.kind = 52 → x.outcome = .done →
    ∃ t, exec (.frameSent port a b) s = .next t ∧ t.pagingStep = 0) ∧
  (∀ h screen s, ∃ t, exec (.disable h screen) s = .next t ∧ t.pagingStep = s.pagingStep) ∧
  (∀ (s : State) handed n, (s.plan handed n).figures.pagingRoles ≠ [] →
    (s.plan handed n).paging = (slot (handed.get 12) 1).map fun x => sat24 (scaled x (gainFactor
      (if 0 < ((s.plan handed n).figures.roles.get Role.c.ix).inService then s.pagingStep else s.pagingStep - 6))))

/-- REFERENCE_LOST on a LOCKED house clock, at the end of a block of 56 sample periods, takes one house block and makes
the clock FREE, and REFERENCE_REGAINED on a FREE one makes it LOCKED, each with a SITE notice; neither changes a clock
that is in its state already, and at the end of a block of another length no reference is lost (02 R41; the order of the
block and the change is the model's, log 24, and so is that a house block knows the length of the block it begins, log
25). -/
def Obligations.HouseClockChanges : Prop :=
  ∀ (inp : BlockInputs) (s : State),
    (s.clock = .locked → s.blockPeriods = 56 → ∃ t, exec (.houseBlock inp) s = .next t ∧
      exec (.referenceLost inp) s = .next (({ t with clock := .free } : State).notify (.site (.clock .free .locked)))) ∧
    (s.blockPeriods ≠ 56 → exec (.referenceLost inp) s = .next s) ∧
    (48 ≤ inp.periods → ∃ t, exec (.houseBlock inp) s = .next t ∧ t.blockPeriods = inp.periods) ∧
    (s.clock = .free → exec (.referenceLost inp) s = .next s) ∧
    (s.clock = .free →
      exec .referenceRegained s =
        .next (({ s with clock := .locked } : State).notify (.site (.clock .locked .free)))) ∧
    (s.clock = .locked → exec .referenceRegained s = .next s)

/-- A house block in its order. Up to its sound: the first one after a reset steps the noise register through the sample
periods since the reset; every fade advances, its attenuation rising by one when the count reaches the rate; every booth
line counts its pulse; a running self-test goes on, and at its 2048th house block ends with its faults as the BAD pages
and its SELFTEST notice; the block before closes; the block count rises by one, or wraps at 1024 and the interval event
is taken as INTERVAL_EVENT takes it. Then the sound: each lane's store is read, with its interval slips at 0 first at an
interval event (`Lane.read`: ElasticStore); a base current below its target rises to it, so that every screen's applied
attenuation is at least its loud trim, and its shed attenuation while SHED; each output's block belongs to the screen it
is mapped to; every output is sent a drive sample in every sample period of the block (OutputPath), and the noise
register takes 24 steps in each; the figures that ROUTE QUERY and GAIN QUERY answer are formed; the return side words
carry what their owners held at the house block, each field at its byte of the layout, with the mark before them and the
check (LaneSearch) behind, and travel in the auxiliary bits (`LaneBlock.side`: LaneSearch) of return blocks whose slots
are zero. After it the supply lines are read, with a recompute and a SITE notice when the supply state changes, and the
fades that have reached their end are completed as FADE_COMPLETION completes them, screen by screen. An output keeps its
place, its settings, its pages, its coefficients and its health; its sensitivity and its tone flag change as the
interval event and the recomputes change them (01 R19, 02 R27, R36, R42, R43, 03 R56, R57, R59, R61, R65, R67, 04 R81,
R82, R83, R84, R88, 05 R91, R94, 07 R125, R126, 08 R140, R147, 09 R165, 10 R170, 11 R180; the order of the parts, of the
completed fades, by screen number, and the marks are the model's, log 2, as are the order of their notices, log 6, that
NONE counts as a position among the grant statuses, log 40, the block run in one step, log 3, that a house block knows
the length of the block it begins, log 25, equal parts of a base target read SHED, log 30, and the counter of free
draws, log 36). -/
def Obligations.HouseBlockTaken : Prop :=
  -- the bytes of a return side word
  (∀ w : ReturnWord, ∃ (fields : List Byte) (hi lo : Byte), w.bytes = fields ++ [hi, lo] ∧
    (crc fields).toNat = 256 * hi.toNat + lo.toNat ∧
    fields =
      [0xB4#8, BitVec.ofNat 8 w.state.code, if w.attention = true then 1#8 else 0#8, BitVec.ofNat 8 w.status.code,
        BitVec.ofNat 8 w.level, BitVec.ofNat 8 (w.lastFired / 256), BitVec.ofNat 8 w.lastFired,
        BitVec.ofNat 8 w.applied, BitVec.ofNat 8 w.outOfService, 0#8]) ∧
  [ShowState.offline, .dark, .armed, .show, .paused, .ending, .calibrating, .evacuated].map ShowState.code =
    List.range 8 ∧
  [GrantStatus.none, .full, .shed, .suspended].map GrantStatus.code = List.range 4 ∧
  -- the noise register
  (∀ r, noiseStep r =
    (r.getLsbD 22 ^^ r.getLsbD 17, (r <<< 1) ||| (if (r.getLsbD 22 ^^ r.getLsbD 17) = true then 1#23 else 0#23))) ∧
  (∀ acc r, noiseSteps 0 acc r = (acc, r)) ∧
  (∀ k acc r, noiseSteps (k + 1) acc r = noiseSteps k (2 * acc + (noiseStep r).1.toNat) (noiseStep r).2) ∧
  (∀ r v, v = (noiseSteps 24 0 r).1 →
    noiseSample r = (if v < 2 ^ 23 then (v : Int) else (v : Int) - 2 ^ 24, (noiseSteps 24 0 r).2)) ∧
  (∀ r, noiseSamples 0 r = ([], r)) ∧
  (∀ k r, noiseSamples (k + 1) r =
    ((noiseSample r).1 :: (noiseSamples k (noiseSample r).2).1, (noiseSamples k (noiseSample r).2).2)) ∧
  ∀ (inp : BlockInputs) (s : State), ∃ x u v a r t : State,
    exec (.houseBlock inp) s = .next t ∧
    -- up to the sound
    x.screens = u.screens ∧
    (∀ n c, c = s.screens.get n → u.screens.get n =
      if c.fadeTaken = true then { c with fadeTaken := false }
      else if c.state = .ending then
        (if c.rateInEffect.getD c.config.fadeRate ≤ c.fadeCount + 1 then
          { c with fadeCount := 0, fadeAtt := c.fadeAtt + 1 }
        else { c with fadeCount := c.fadeCount + 1 })
      else c) ∧
    (∀ n l, u.line n l = { (s.line n l).tick with output := (s.line n l).tick.shown s.evac }) ∧
    (s.blockPeriods = 0 → u.noise = (noiseSamples inp.sinceReset s.noise).2) ∧
    (s.blockPeriods ≠ 0 → u.noise = s.noise) ∧
    (s.selftest.running = false →
      u.selftest = s.selftest ∧ u.badPages = s.badPages ∧ x.ports = s.ports) ∧
    (s.selftest.running = true → s.selftest.blocks + 1 < 2048 → u.badPages = s.badPages ∧ x.ports = s.ports) ∧
    (s.selftest.running = true → 2048 ≤ s.selftest.blocks + 1 → u.badPages = u.selftest.faults ∧
      x.ports = tell [.selftest u.freePages.length u.badPages.length] s.ports) ∧
    (s.selftest.running = true → u.selftest.blocks = s.selftest.blocks + 1 ∧
      (u.selftest.running = true ↔ s.selftest.blocks + 1 < 2048) ∧
      u.selftest.faults = s.selftest.faults ++ (if inp.fault0 then [2 * s.selftest.blocks] else []) ++
        (if inp.fault1 then [2 * s.selftest.blocks + 1] else [])) ∧
    x = { s with
      screens := x.screens, booth := x.booth, noise := x.noise, selftest := x.selftest, badPages := x.badPages,
      ports := x.ports } ∧
    u = (if s.blockClosed = true then x else { closeBlock x with blockClosed := true }) ∧
    u = atHouseBlock inp s ∧
    (s.intervalTaken = true → v = u) ∧
    (s.intervalTaken = false → s.blockCount + 1 ≠ 1024 → v = { u with blockCount := s.blockCount + 1 }) ∧
    (s.intervalTaken = false → s.blockCount + 1 = 1024 → exec .intervalEvent u = .next v) ∧
    v = beforeSound inp s ∧
    (∀ l, v.lanes.get l =
      if s.intervalTaken = false ∧ s.blockCount + 1 = 1024 then { s.lanes.get l with intervalSlips := 0 }
      else s.lanes.get l) ∧
    -- the sound
    a = afterSound inp s ∧
    a = { v with
      attenuations := a.attenuations, lanes := a.lanes,
      noise := (noiseSamples (inp.periods - 48) (noiseSamples 48 u.noise).2).2,
      blockPeriods := max 48 inp.periods, lateDraws := s.lateDraws + 1,
      outputs := a.outputs, micRunning := v.micRunning + blockEnergy (slot (v.lanes.get 13).handed 1),
      meters := a.meters, routes := a.routes, returnWords := a.returnWords } ∧
    (∀ l, a.lanes.get l = (v.lanes.get l).read.2) ∧
    (∀ o, (a.outputs.get o).toneFlag = (v.outputs.get o).toneFlag) ∧
    (∀ n base, base = max (if (v.grants.get n).status = .shed then (v.screens.get n).config.shedAtt else 0)
        (v.alarms.get n).loudTrim →
      (a.attenuations.get n).current = max (v.attenuations.get n).current base) ∧
    (∀ n shed loud g, shed = (if (v.grants.get n).status = .shed then (v.screens.get n).config.shedAtt else 0) →
      loud = (v.alarms.get n).loudTrim → g = (a.attenuations.get n).figures →
      a.attenuations.get n = { current := max (v.attenuations.get n).current (max shed loud), figures := g } ∧
      g =
        { target := max shed loud
          part := if shed = 0 ∧ loud = 0 then .none else if loud ≤ shed then .shed else .loud
          current := (a.attenuations.get n).current
          fade := (v.screens.get n).fadeAtt
          applied := (a.attenuations.get n).current + (v.screens.get n).fadeAtt
          level := (u.screens.get n).level
          muted := ((List.finRange 192).filter fun o =>
            decide ((a.outputs.get o).screen = some n ∧ (a.outputs.get o).figures.step = none)).length }) ∧
    (∀ n f, f = (a.routes.get n).figures →
      a.routes.get n = { v.routes.get n with figures := f } ∧
      f.layout = u.layoutInUse n ∧ f.source = (u.routes.get n).source ∧ f.held = (u.routes.get n).held ∧
      (f.noLayout = true ↔ u.layoutRecord f.layout = none) ∧
      (∀ r : Role, f.roles.get r.ix = u.roleFigures n r ∧ (u.roleFigures n r).outputs = u.outputsIn n r ∧
        (u.roleFigures n r).comp =
          if 0 < (u.roleFigures n r).inService ∧ (u.roleFigures n r).inService < (u.roleFigures n r).mapped then
            compStep (u.roleFigures n r).mapped (u.roleFigures n r).inService
          else 0) ∧
      (f.onRoute = true ↔ u.evac = true ∧ (u.screens.get n).state ≠ .offline) ∧
      f.pagingRoles =
        if u.evac = true ∧ (u.screens.get n).state ≠ .offline then
          (if 0 < (u.roleFigures n .c).inService then [.c]
          else [Role.l, .r].filter fun r => decide (0 < (u.roleFigures n r).inService))
        else []) ∧
    (∀ n, (a.alarms.get n).loudTrim ≤ (a.attenuations.get n).current + (a.screens.get n).fadeAtt ∧
      ((a.grants.get n).status = .shed →
        (a.screens.get n).config.shedAtt ≤ (a.attenuations.get n).current + (a.screens.get n).fadeAtt)) ∧
    (∀ n, a.returnWords.get n =
      { state := (u.screens.get n).state, attention := (u.alarms.get n).attention, status := (u.grants.get n).status,
        level := (u.screens.get n).level, lastFired := (u.cues.get n).lastFired,
        applied := (a.attenuations.get n).current + (a.screens.get n).fadeAtt,
        outOfService :=
          ((List.finRange 192).filter fun o =>
            decide ((u.outputs.get o).screen = some n) && !(u.outputs.get o).sense.health.inService).length }) ∧
    -- after the sound
    (∀ new, new = (if inp.supply1 = true then (if inp.supply2 = true then Supply.batteryLow else .generator)
        else if inp.supply2 = true then .battery else .mains) →
      t.budget = { s.budget with supply1 := inp.supply1, supply2 := inp.supply2, supply := new } ∧
      (new = s.budget.supply → r = { a with budget := t.budget }) ∧
      (new ≠ s.budget.supply →
        r = (recompute .supply { a with budget := t.budget }).notify
          (.site (.supply new s.budget.supply t.budget.available)))) ∧
    (∀ n y, exec (.fadeCompletion n) y = .next (finishFade n y)) ∧
    t = { overScreens finishFade r with blockClosed := false, intervalTaken := false, measureStepped := false } ∧
    -- what it leaves
    (s.intervalTaken = false → t.blockCount = if s.blockCount + 1 = 1024 then 0 else s.blockCount + 1) ∧
    (s.intervalTaken = true → t.blockCount = s.blockCount) ∧
    t.lanes = a.lanes ∧
    (∀ l, (t.lanes.get l).sync = (s.lanes.get l).sync ∧ (t.lanes.get l).accepted = (s.lanes.get l).accepted ∧
      (t.lanes.get l).skew = (s.lanes.get l).skew ∧ (t.lanes.get l).mask = (s.lanes.get l).mask ∧
      (t.lanes.get l).store =
        (if (s.lanes.get l).delivering = true then (s.lanes.get l).store.drop 1 else (s.lanes.get l).store) ∧
      (t.lanes.get l).slips =
        (if (s.lanes.get l).delivering = true ∧ (s.lanes.get l).store = [] then (s.lanes.get l).slips + 1
        else (s.lanes.get l).slips)) ∧
    (∀ n, t.returnWords.get n = a.returnWords.get n ∧
      (t.returnBlock n).frames = List.replicate 48 (List.replicate 16 0) ∧ (t.returnBlock n).aux.length = 48 ∧
      (t.returnBlock n).side = (t.returnWords.get n).bytes ∧ goodBlock (t.returnBlock n).side = true) ∧
    (∀ o, (t.outputs.get o).blockScreen = (t.outputs.get o).screen ∧
      (t.outputs.get o).place = (s.outputs.get o).place ∧ (t.outputs.get o).sense = (s.outputs.get o).sense) ∧
    (∀ o, t.outputs.get o = { a.outputs.get o with toneFlag := (t.outputs.get o).toneFlag }) ∧
    (∀ o old y, old = s.outputs.get o → y = t.outputs.get o →
      y = { old with
        path := y.path, line := y.line, running := y.running, energy := y.energy, blockScreen := y.blockScreen,
        drive := y.drive, late := y.late, figures := y.figures, toneFlag := y.toneFlag, sensitivity := y.sensitivity } ∧
      y.path.map PathSection.coef = old.path.map PathSection.coef ∧ y.line.length = old.line.length ∧
      (s.intervalTaken = true ∨ s.blockCount + 1 ≠ 1024 → y.sensitivity = old.sensitivity)) ∧
    (∀ n, t.routes.get n = a.routes.get n ∧
      (t.attenuations.get n).figures = (a.attenuations.get n).figures) ∧
    (∀ o, (t.outputs.get o).late.length = inp.periods - 48) ∧ t.lateDraws = s.lateDraws + 1 ∧
    t.selftest = u.selftest ∧ t.badPages = u.badPages ∧ t.noise = a.noise ∧ t.blockPeriods = max 48 inp.periods ∧ t.evac = s.evac ∧
    t.clock = s.clock ∧ t.mark = s.mark ∧ t.layouts = s.layouts ∧ t.pagingStep = s.pagingStep ∧
    t.toneGain = s.toneGain ∧ t.micOffset = s.micOffset ∧ t.returnLanes = s.returnLanes

/-- INTERVAL_EVENT, when it is due, closes the block and every screen's interval: the levels, the segment and the ring
of the window, the show maximum, the clip counts, the alarms' judgement with the interval slips handed over, the base
currents, and the step of the measurement; the notices are those of the judgement, screen by screen (judgeScreen:
AlarmStateMachine, CuesFireByTime), then the MEASURE notice of a measurement that ends; when it is not due it changes
nothing. A block that is closed already is not closed again (`ensureClosed`; the mark is the model's, log 2).
HOUSE_BLOCK takes it in the same way (HouseBlockTaken) (02 R38, R42, 05 R95, R96, R97, R98, R100, R101, 06 R107, 04
R83, 10 R173; 06 R114, R115, R123, 10 R174; that it may be taken before its house block is the model's, log 2, and the
order of the notices log 6's). -/
def Obligations.IntervalEventCloses : Prop :=
  (∀ (level : Nat) (offset : Int), (splCode level offset : Int) = max 0 (min (level + offset) 255)) ∧
  (∀ s : State, (s.blockClosed = true → ensureClosed s = s) ∧
    (s.blockClosed = false → ensureClosed s = { closeBlock s with blockClosed := true })) ∧
  ∀ s : State,
    (¬(s.blockCount + 1 = 1024 ∧ s.intervalTaken = false) → exec .intervalEvent s = .next s) ∧
    (s.blockCount + 1 = 1024 → s.intervalTaken = false → ∃ t, exec .intervalEvent s = .next t ∧
      t.blockCount = 0 ∧ t.intervalTaken = true ∧ t.blockClosed = true ∧
      (∀ l, t.lanes.get l = { s.lanes.get l with intervalSlips := 0 }) ∧
      (∀ n, (t.meters.get n).intervalSum = 0 ∧ (t.meters.get n).clips = 0 ∧
        (t.meters.get n).lastClips = (s.meters.get n).clips ∧
        (t.meters.get n).intervalLevel = lvl ((ensureClosed s).meters.get n).intervalSum - 60 ∧
        (t.meters.get n).intervalSpl =
          splCode (lvl ((ensureClosed s).meters.get n).intervalSum - 60) (s.meters.get n).offset ∧
        (t.meters.get n).showMax =
          (if (s.screens.get n).state.playing = true then max (s.meters.get n).showMax (t.meters.get n).intervalSpl
          else (s.meters.get n).showMax)) ∧
      (∀ n m, m = (ensureClosed s).meters.get n →
        ((s.screens.get n).state ≠ .show → (t.meters.get n).segmentSum = m.segmentSum ∧
          (t.meters.get n).segmentFill = m.segmentFill ∧ (t.meters.get n).ring = m.ring) ∧
        ((s.screens.get n).state = .show → m.segmentFill + 1 < 32 →
          (t.meters.get n).segmentSum = m.segmentSum + m.intervalSum ∧
          (t.meters.get n).segmentFill = m.segmentFill + 1 ∧ (t.meters.get n).ring = m.ring) ∧
        ((s.screens.get n).state = .show → 32 ≤ m.segmentFill + 1 →
          (t.meters.get n).segmentSum = 0 ∧ (t.meters.get n).segmentFill = 0 ∧
          (t.meters.get n).ring =
            (if 16 ≤ m.ring.length then m.ring.drop 1 else m.ring) ++ [m.segmentSum + m.intervalSum]) ∧
        (t.meters.get n).windowSum = (t.meters.get n).ring.sum ∧
        (t.meters.get n).windowLevel = lvl (t.meters.get n).windowSum - 114 ∧
        (t.meters.get n).windowSpl = splCode (t.meters.get n).windowLevel (s.meters.get n).offset) ∧
      (∀ n, t.alarms.get n =
        (s.alarms.get n).judge ((closeIntervals (ensureClosed s)).gather (fun l => (s.lanes.get l).intervalSlips) n)) ∧
      (∀ n, (t.attenuations.get n).current =
        (if (s.attenuations.get n).current < (t.baseTarget n).1 then (t.baseTarget n).1
        else if (t.baseTarget n).1 < (s.attenuations.get n).current ∧ (s.screens.get n).state ≠ .evacuated then
          (s.attenuations.get n).current - 1
        else (s.attenuations.get n).current)) ∧
      ((s.measureStepped = true ∨ s.context.inFlight = false) → t.context = (ensureClosed s).context ∧
        t.outputs = (ensureClosed s).outputs ∧ ∀ n, (t.meters.get n).offset = (s.meters.get n).offset) ∧
      (s.measureStepped = false → s.context.inFlight = true → s.phaseDue = false →
        t.context = { (ensureClosed s).context with count := s.context.count + 1 } ∧
        t.outputs = (ensureClosed s).outputs ∧ ∀ n, (t.meters.get n).offset = (s.meters.get n).offset) ∧
      (s.phaseDue = true → ∃ r,
        (s.context.phase ≠ .measure → exec .measurePhaseEnd s = .next r) ∧
        (s.context.phase = .measure → exec .measurementResult s = .next r) ∧
        t.context = r.context ∧ t.outputs = r.outputs ∧ ∀ n, (t.meters.get n).offset = (r.meters.get n).offset) ∧
      -- the notices
      (∀ u j : State, u = ensureClosed s →
        j = overScreens (judgeScreen fun l => (s.lanes.get l).intervalSlips)
          (clearSlips (closeIntervals { u with blockCount := 0, intervalTaken := true })) →
        (¬(s.phaseDue = true ∧ s.context.phase = .measure) → t.ports = j.ports) ∧
        (∀ (n : Fin 12) (g : Target) (b m o spl : Nat) (x : Int), s.phaseDue = true → s.context.phase = .measure → s.context.screen = some n →
          s.context.target = some g → s.context.background = some b → m = lvl u.context.micSum - 72 →
          o = lvl u.context.targetSum - 72 → (spl : Int) = max 0 (min (m + s.micOffset) 255) →
          x = max (-128) (min ((spl : Int) - o) 127) →
          t.ports = tell [.measure n g (if m < b + 20 then .noisy b m o else .ok b m o spl x)] j.ports)) ∧
      t = { s with
        ports := t.ports, screens := t.screens, lanes := t.lanes, blockCount := 0, outputs := t.outputs,
        attenuations := t.attenuations, meters := t.meters, micRunning := t.micRunning, micEnergy := t.micEnergy,
        alarms := t.alarms, pool := t.pool, cues := t.cues, booth := t.booth, context := t.context,
        blockClosed := true, intervalTaken := true } ∧
      (∀ n, t.screens.get n = { s.screens.get n with level := (t.screens.get n).level }))

/-- The close of a block: running energies become block energies, and each screen's block sum is the sum of the energies
of the outputs that were mapped to it when the block began, added to its interval sum (05 R91, R92, R94). A measurement
in QUIET takes the microphone energy, and one in MEASURE that and its target's energies (10 R173). -/
def Obligations.BlockCloses : Prop :=
  ∀ s : State, ∃ t, closeBlock s = t ∧
    t = { s with
      outputs := t.outputs, micEnergy := s.micRunning, micRunning := 0, meters := t.meters, context := t.context } ∧
    (∀ o, t.outputs.get o = { s.outputs.get o with energy := (s.outputs.get o).running, running := 0 }) ∧
    (∀ n, (t.meters.get n).blockSum =
        (((List.finRange 192).filter fun o => decide ((s.outputs.get o).blockScreen = some n)).map fun o =>
          (s.outputs.get o).running).sum ∧
      t.meters.get n =
        { s.meters.get n with
          blockSum := (t.meters.get n).blockSum, blockLevel := lvl (t.meters.get n).blockSum,
          blockSpl := splCode (lvl (t.meters.get n).blockSum) (s.meters.get n).offset,
          intervalSum := (s.meters.get n).intervalSum + (t.meters.get n).blockSum }) ∧
    (s.context.phase = .quiet → t.context = { s.context with micSum := s.context.micSum + s.micRunning }) ∧
    (∀ n g, s.context.phase = .measure → s.context.screen = some n → s.context.target = some g →
      t.context =
        { s.context with
          micSum := s.context.micSum + s.micRunning,
          targetSum := s.context.targetSum + ((s.targetOutputs n g).map fun o => (s.outputs.get o).running).sum }) ∧
    (s.context.phase ≠ .quiet → s.context.phase ≠ .measure → t.context = s.context)

/-! ### The output map, selection and sound -/

/-- OUTPUT MAP assigns, moves or unassigns an output: RANGE, STATE, NOROOM and the reallocation's refusals in this
order; on acceptance only the output's place changes, and its pages and delay line where the lip-sync offsets differ
(03 R49, R50). -/
def Obligations.OutputMapMoves : Prop :=
  (∀ screen role, readAssign (some (screen, role)) = none ↔ screen = 0 ∨ 12 < screen ∨ role = 0 ∨ 12 < role) ∧
  (∀ screen role n r, readAssign (some (screen, role)) = some (some (n, r)) ↔ screen = number n ∧ role = r.code) ∧
  readAssign none = some none ∧
  ∀ (h : Header) (output : Nat) (assign : Option (Nat × Nat)) (s : State), s.ready (.outputMap h output assign) h 15 →
    ((ident 192 output = none ∨ readAssign assign = none) →
      exec (.outputMap h output assign) s = .next (s.refusing (.outputMap h output assign) h 15 .range)) ∧
    (∀ o new, ident 192 output = some o → readAssign assign = some new →
      ((∃ n r, ((s.outputs.get o).place = some (n, r) ∨ new = some (n, r)) ∧ (s.screens.get n).state ≠ .offline ∧
          (s.screens.get n).state ≠ .dark) →
        exec (.outputMap h output assign) s = .next (s.refusing (.outputMap h output assign) h 15 .state)) ∧
      ((∀ n r, ((s.outputs.get o).place = some (n, r) ∨ new = some (n, r)) →
          (s.screens.get n).state = .offline ∨ (s.screens.get n).state = .dark) →
        ((∃ n r, new = some (n, r) ∧ (s.outputs.get o).screen ≠ some n ∧ 32 ≤ (s.outputsOf n).length) →
          exec (.outputMap h output assign) s = .next (s.refusing (.outputMap h output assign) h 15 .noroom)) ∧
        ((∀ n r, new = some (n, r) → (s.outputs.get o).screen = some n ∨ (s.outputsOf n).length < 32) →
          (s.offsetAt (s.outputs.get o).place = s.offsetAt new →
            exec (.outputMap h output assign) s =
              .next (((s.taking (.outputMap h output assign) h).modOutput o fun x => { x with place := new }).answering h
                (doneAnswer h 15 false []))) ∧
          (∀ why, s.offsetAt (s.outputs.get o).place ≠ s.offsetAt new →
            s.reallocRefusal [{ output := o, delay := (s.outputs.get o).delay + s.offsetAt new }] = some why →
            exec (.outputMap h output assign) s = .next (s.refusing (.outputMap h output assign) h 15 why)) ∧
          (s.offsetAt (s.outputs.get o).place ≠ s.offsetAt new →
            s.reallocRefusal [{ output := o, delay := (s.outputs.get o).delay + s.offsetAt new }] = none →
            exec (.outputMap h output assign) s =
              .next (((reallocate [{ output := o, delay := (s.outputs.get o).delay + s.offsetAt new }]
                (s.taking (.outputMap h output assign) h)).modOutput o fun x => { x with place := new }).answering h
                (doneAnswer h 15 false []))))))

/-- What every output carries at a house block, by the first case of 03 R62 that applies, on the state u at the house
block (HouseBlockTaken): the kind and the reason that are then its figures, and its samples. Slot i is the i-th of
each frame, from 1. Program is the role's feed from the block that lane Pn hands on and the record of the layout in
use: each role's feed by its source, saturated, and into each role in service the feeds of the roles that are out and
fold into it, at the fold steps of 03 R60. An output that is out of service, and one of a SUSPENDED screen, carries no
program and no tone; an output of a CALIBRATING screen carries the tone exactly when its tone flag, as it is read, is
set; an unmapped one drives zeros (03 R48, R56, R57, R58, R59, R60, R62, R63, R64, R65, 07 R125; whether a flag is
read before or after the interval event is log 33's). -/
def Obligations.SourceSelection : Prop :=
  (∀ (inp : BlockInputs) (s : State), ∃ t, exec (.houseBlock inp) s = .next t ∧ ∀ u, u = atHouseBlock inp s → ∀ o,
    (t.outputs.get o).place = (u.outputs.get o).place ∧
    ((u.outputs.get o).place = none →
      (t.outputs.get o).figures.kind = .silence ∧ (t.outputs.get o).figures.reason = some .unmapped ∧
      (t.outputs.get o).drive = List.replicate 48 0) ∧
    (inp.selectFirst = true → (flagsRead inp s).get o = (u.outputs.get o).toneFlag) ∧
    (inp.selectFirst = false → (flagsRead inp s).get o = ((beforeSound inp s).outputs.get o).toneFlag) ∧
    (∀ n r, (u.outputs.get o).place = some (n, r) →
      ((u.outputs.get o).sense.health.inService = false →
        (t.outputs.get o).figures.kind = .silence ∧ (t.outputs.get o).figures.reason = some .outOfService) ∧
      ((u.outputs.get o).sense.health.inService = true → u.evac = true → (u.screens.get n).state ≠ .offline →
        ((t.outputs.get o).figures.kind = .paging ∨
          (t.outputs.get o).figures.kind = .silence ∧ (t.outputs.get o).figures.reason = some .evacOther) ∧
        ((t.outputs.get o).figures.kind = .paging ↔
          r = .c ∨ (r = .l ∨ r = .r) ∧ ∀ o', (u.outputs.get o').place = some (n, .c) →
            (u.outputs.get o').sense.health.inService = false)) ∧
      ((u.outputs.get o).sense.health.inService = true → (u.evac = false ∨ (u.screens.get n).state = .offline) →
        (((u.screens.get n).state = .offline ∨ (u.screens.get n).state = .dark ∨ (u.screens.get n).state = .armed ∨
            (u.screens.get n).state = .evacuated) →
          (t.outputs.get o).figures.kind = .silence ∧ (t.outputs.get o).figures.reason = some .noProgram) ∧
        ((u.screens.get n).state = .paused →
          (t.outputs.get o).figures.kind = .silence ∧ (t.outputs.get o).figures.reason = some .paused) ∧
        (((u.screens.get n).state = .show ∨ (u.screens.get n).state = .ending) →
          ((u.grants.get n).status = .suspended →
            (t.outputs.get o).figures.kind = .silence ∧ (t.outputs.get o).figures.reason = some .suspended) ∧
          ((u.grants.get n).status ≠ .suspended → (u.lanes.get (programLane n)).delivering = false →
            (t.outputs.get o).figures.kind = .silence ∧ (t.outputs.get o).figures.reason = some .lane) ∧
          ((u.grants.get n).status ≠ .suspended → (u.lanes.get (programLane n)).delivering = true →
            (t.outputs.get o).figures.kind = .program)) ∧
        ((u.screens.get n).state = .calibrating →
          ((u.grants.get n).status = .suspended →
            (t.outputs.get o).figures.kind = .silence ∧ (t.outputs.get o).figures.reason = some .suspended) ∧
          ((u.grants.get n).status ≠ .suspended → (flagsRead inp s).get o = true →
            (t.outputs.get o).figures.kind = .tone) ∧
          ((u.grants.get n).status ≠ .suspended → (flagsRead inp s).get o = false →
            (t.outputs.get o).figures.kind = .silence ∧ (t.outputs.get o).figures.reason = some .noTone))))) ∧
  -- the samples selected
  (∀ (u : State) (handed : Tab Audio 14) (plan : Tab Plan 12) (tone : List Int) (flag : Bool) (o : Fin 192)
      (sel : Selected),
    (∀ n, plan.get n = u.plan handed n) → sel = u.select plan tone flag (u.outputs.get o) →
    (sel.kind = .silence → sel.samples = List.replicate 48 0) ∧
    (sel.kind = .tone → sel.samples = tone) ∧
    ((u.outputs.get o).place = none → sel.kind = .silence) ∧
    (∀ n r, (u.outputs.get o).place = some (n, r) →
      (sel.kind = .paging → sel.samples = (plan.get n).paging) ∧
      (∀ record unfolded, sel.kind = .program → record = u.layoutRecord (u.layoutInUse n) →
        (∀ x : Role, unfolded.get x.ix =
          if (u.roleFigures n x).mapped = 0 then []
          else (sourceFeed ((record.map fun y => y.get x.ix).getD .none) (handed.get (programLane n))).map sat24) →
        sel.samples =
          (foldExact unfolded (foldsInto (Tab.ofFn fun i => u.roleFigures n (Role.ofIx i)) r) r).map sat24))) ∧
  -- the layout in use
  (∀ (u : State) (n : Fin 12),
    (∀ c, (u.routes.get n).source = .lane → (u.routes.get n).held = some c → u.layoutInUse n = c) ∧
    (((u.routes.get n).source = .default ∨ (u.routes.get n).held = none) →
      u.layoutInUse n = (u.screens.get n).config.defaultLayout) ∧
    (∀ code, u.layoutRecord code = if h : code < 16 then u.layouts.get ⟨code, h⟩ else none)) ∧
  -- service, feeds and folds
  (∀ (u : State) (n : Fin 12) (x : Role) (outs : List (Fin 192)), outs = u.outputsIn n x →
    (∀ o, o ∈ outs ↔ (u.outputs.get o).place = some (n, x)) ∧ outs.Nodup ∧
    (u.roleFigures n x).mapped = outs.length ∧
    (u.roleFigures n x).inService = (outs.filter fun o => (u.outputs.get o).sense.health.inService).length ∧
    ((u.roleFigures n x).service = .unmapped ↔ (u.roleFigures n x).mapped = 0) ∧
    ((u.roleFigures n x).service = .inService ↔ 0 < (u.roleFigures n x).inService) ∧
    ((u.roleFigures n x).service = .out ↔
      0 < (u.roleFigures n x).mapped ∧ (u.roleFigures n x).inService = 0)) ∧
  (∀ a, sourceFeed .none a = a.map fun _ => 0) ∧
  (∀ (a : Audio) (i : Nat), slot a (i + 1) = a.map fun f => f.getD i 0) ∧
  (∀ roles r x g, (x, g) ∈ foldsInto roles r ↔ (roles.get x.ix).service = .out ∧ (r, g) ∈ foldTargets x) ∧
  (∀ roles r, (foldsInto roles r).Nodup) ∧
  Role.all.map foldTargets =
    [[(.c, 0)], [(.l, -6), (.r, -6)], [(.c, 0)], [(.l, 0)], [(.r, 0)], [], [(.lrs, 0)], [(.rrs, 0)], [(.lss, 0)],
      [(.rss, 0)], [(.lss, 0)], [(.rss, 0)]] ∧
  Role.all = [.l, .c, .r, .lc, .rc, .lfe, .lss, .rss, .lrs, .rrs, .lts, .rts] ∧
  (∀ (unfolded : Tab (List Int) 12) (folds : List (Role × Int)) (r : Role) (k : Nat),
    (unfolded.get r.ix).length = k → (∀ y ∈ folds, (unfolded.get y.1.ix).length = k) →
    (foldExact unfolded folds r).length = k ∧
    ∀ j, j < k → (foldExact unfolded folds r).getD j 0 =
      (unfolded.get r.ix).getD j 0 +
        roundShift ((folds.map fun y => (unfolded.get y.1.ix).getD j 0 * (gainFactor y.2 : Int)).sum) 20) ∧
  (∀ x : Int, roundShift x 20 = (x + 2 ^ 19) / 2 ^ 20)

/-- The compensation step is min(12, round-to-nearest(20 log10(n / k))), the net step of 04 R76 is clamped into -255 to
24, and after a house block every output's compensation and net step are those of its role, its trim, its screen's house
level at the house block (u) and its screen's applied attenuation (a), with a muted output marked; an unmapped output
has no compensation and its trim alone as the net step (03 R61, 04 R76, R83; the order of the house level and the
interval event is the model's, log 2, and so is the whole formula for a silent output of a screen on the paging route,
log 37). -/
def Obligations.CompensationAndNetStep : Prop :=
  (∀ n k : Nat, 0 < k → k < n → (compStep n k : Int) = min 12 ⌊20 * Real.logb 10 ((n : ℝ) / k) + 1 / 2⌋) ∧
  (∀ n k : Nat, compStep n k ≤ 12) ∧
  ([compStep 2 1, compStep 3 2, compStep 3 1, compStep 4 3, compStep 4 1, compStep 6 5, compStep 8 7, compStep 8 1,
    compStep 32 31] = [6, 4, 10, 2, 12, 2, 1, 12, 0]) ∧
  ∀ (inp : BlockInputs) (s : State), ∃ t, exec (.houseBlock inp) s = .next t ∧
    ∀ u a, u = atHouseBlock inp s → a = afterSound inp s → ∀ o,
    (t.outputs.get o).figures.comp ≤ 12 ∧
    (∀ g, (t.outputs.get o).figures.step = some g → -255 < g ∧ g ≤ 24) ∧
    ((t.outputs.get o).place = none → (t.outputs.get o).figures.comp = 0 ∧
      (t.outputs.get o).figures.step =
        if max (-255) (min 24 (t.outputs.get o).trim) = -255 then none
        else some (max (-255) (min 24 (t.outputs.get o).trim))) ∧
    (∀ n r, (t.outputs.get o).place = some (n, r) →
      (t.outputs.get o).figures.comp =
        (if (t.outputs.get o).sense.health.inService = true ∧
            (t.roleFigures n r).inService < (t.roleFigures n r).mapped then
          compStep (t.roleFigures n r).mapped (t.roleFigures n r).inService
        else 0) ∧
      (t.outputs.get o).figures.step =
        (let net := max (-255) (min 24
            (if (t.outputs.get o).figures.kind = .paging then (t.outputs.get o).trim
            else (t.outputs.get o).trim + (t.outputs.get o).figures.comp + ((u.screens.get n).level - 80) -
              ((a.attenuations.get n).current + (a.screens.get n).fadeAtt)))
        if net = -255 ∨ (u.screens.get n).level = 0 ∧ ((t.outputs.get o).figures.kind = .program ∨
            (t.outputs.get o).figures.kind = .tone) then none
        else some net))

/-- The path of one output over a block: polarity, the sections in order with their histories and their clips, the delay
line and the gain stage; a path is cleared first when its silence is for being unmapped, out of service or suspended (04
R73 to R77, R80, R81, 05 R91), and what the path does not write of the output is kept. The pilot joins the drive after
the tap, muted or not, and its saturation is no clip; it is added to a mapped output that is not EXCLUDED, not FAILED
SHORT and not of a CALIBRATING screen (07 R125, R126, R132). After a house block every output has run its path so
through every sample period of the block, at the record, the line and the steps of the house block: on the samples
selected for it at the house block (u), with the house level there and the attenuation applied (a), and beyond the 48th
on silence or on the tone as it goes on. Each screen's clip count has then risen by the clips of its feeds and folds, of
its paging samples and of its outputs' paths, and holds at 65,535; its meter is otherwise as it was (04 R82, 05 R101).
The model's are: that the block is run in one step (log 3), that the house level is the one before the interval event
(log 2), the length of the block as an operand (log 25), in the sample periods beyond the 48th the source samples of
program and paging, free values, and that no energy is taken there (log 36), and that the clips of feeds, folds and
paging samples are counted once for a screen and only where an output carries them (log 18). -/
def Obligations.OutputPath : Prop :=
  (∀ x, polarity false x = x) ∧ (∀ x, polarity true x = if x = -8388608 then 8388607 else -x) ∧
  (∀ x, sat24 x = max (-8388608) (min x 8388607)) ∧ (∀ x, saturates x = true ↔ sat24 x ≠ x) ∧
  (∀ x f, scaled x f = (x * f + 2 ^ 19) / 2 ^ 20) ∧
  (∀ ys, blockEnergy ys = (ys.map fun y : Int => ((y / 256) * (y / 256)).toNat).sum) ∧
  (∀ c hist x, sectionExact c hist x =
    (c.b0 * x + c.b1 * hist.x1 + c.b2 * hist.x2 - c.a1 * hist.y1 - c.a2 * hist.y2 + 2 ^ 21) / 2 ^ 22) ∧
  (∀ c hist, runSection c hist [] = ([], hist, 0)) ∧
  (∀ c hist x xs e rest, e = sectionExact c hist x →
    rest = runSection c { x1 := x, x2 := hist.x1, y1 := sat24 e, y2 := hist.y1 } xs →
    runSection c hist (x :: xs) = (sat24 e :: rest.1, rest.2.1, (if saturates e = true then 1 else 0) + rest.2.2)) ∧
  (∀ xs, runSections [] xs = (xs, [], 0)) ∧
  (∀ p ps xs one rest, one = runSection p.coef p.hist xs → rest = runSections ps one.1 →
    runSections (p :: ps) xs =
      (rest.1, { coef := p.coef, hist := one.2.1 } :: rest.2.1, one.2.2 + rest.2.2)) ∧
  (∀ line xs : List Int, (runDelay line xs).1 ++ (runDelay line xs).2 = line ++ xs ∧
    (runDelay line xs).1.length = xs.length ∧ (runDelay line xs).2.length = line.length) ∧
  (∀ (sel : Selected) (late : List Int) (comp level applied : Nat) (pilot : Bool) (x : Output),
    ∃ z ys path clips delayed ran,
    ran = runOutput sel late comp level applied pilot x ∧
    z = (if sel.reason = some .unmapped ∨ sel.reason = some .outOfService ∨ sel.reason = some .suspended then
        { x with
          path := x.path.map fun p => { p with hist := { x1 := 0, x2 := 0, y1 := 0, y2 := 0 } },
          line := x.line.map fun _ => 0 }
      else x) ∧
    runSections z.path ((sel.samples ++ late).map (polarity x.inverted)) = (ys, path, clips) ∧
    runDelay z.line ys = (delayed, ran.output.line) ∧
    ran.output =
      { z with
        path := path, line := ran.output.line, running := ran.output.running, blockScreen := x.screen,
        drive := ran.output.drive, late := ran.output.late,
        figures :=
          { kind := sel.kind, reason := sel.reason, comp := comp, step := ran.output.figures.step, pilot := pilot } } ∧
    ∃ taps sent, taps = (match ran.output.figures.step with
        | some g => delayed.map fun y => sat24 (scaled y (gainFactor g))
        | none => delayed.map fun _ => 0) ∧
      ran.clips = clips + (match ran.output.figures.step with
        | some g => (delayed.filter fun y => saturates (scaled y (gainFactor g))).length
        | none => 0) ∧
      ran.output.running = x.running + blockEnergy (taps.take sel.samples.length) ∧
      sent = (if pilot = true then
          taps.mapIdx fun i y => sat24 (y + [0, 11585, -16384, 11585, 0, -11585, 16384, -11585].getD (i % 8) 0)
        else taps) ∧
      ran.output.drive = sent.take sel.samples.length ∧ ran.output.late = sent.drop sel.samples.length) ∧
  -- the clips of a screen's feeds, folds and paging samples
  (∀ (u : State) (handed : Tab Audio 14) (n : Fin 12) (feed : Role → List Int) (unfolded : Tab (List Int) 12),
    (∀ x, feed x = if (u.roleFigures n x).mapped = 0 then []
      else sourceFeed (((u.layoutRecord (u.layoutInUse n)).map fun y => y.get x.ix).getD .none)
        (handed.get (programLane n))) →
    (∀ x : Role, unfolded.get x.ix = (feed x).map sat24) →
    (((u.screens.get n).state = .show ∨ (u.screens.get n).state = .ending) ∧ u.evac = false ∧
        (u.grants.get n).status ≠ .suspended ∧ (u.lanes.get (programLane n)).delivering = true ∧
        (∃ o, (u.outputs.get o).screen = some n ∧ (u.outputs.get o).sense.health.inService = true) →
      (u.plan handed n).program.clips =
        (Role.all.map fun x => ((feed x).filter saturates).length).sum +
        (Role.all.map fun x =>
          if (u.roleFigures n x).service = .inService then
            ((foldExact unfolded (foldsInto (Tab.ofFn fun i => u.roleFigures n (Role.ofIx i)) x) x).filter
              saturates).length
          else 0).sum) ∧
    (¬(((u.screens.get n).state = .show ∨ (u.screens.get n).state = .ending) ∧ u.evac = false ∧
        (u.grants.get n).status ≠ .suspended ∧ (u.lanes.get (programLane n)).delivering = true ∧
        ∃ o, (u.outputs.get o).screen = some n ∧ (u.outputs.get o).sense.health.inService = true) →
      (u.plan handed n).program.clips = 0) ∧
    (∀ roles step, roles = [Role.l, .c, .r].filter (fun x => decide (0 < (u.roleFigures n x).inService)) →
      step = (if Role.c ∈ roles then u.pagingStep else u.pagingStep - 6) →
      (u.plan handed n).pagingClips =
        if u.evac = true ∧ (u.screens.get n).state ≠ .offline ∧ roles ≠ [] then
          ((slot (handed.get 12) 1).filter fun x => saturates (scaled x (gainFactor step))).length
        else 0)) ∧
  -- the block
  ∀ (inp : BlockInputs) (s : State), ∃ t, exec (.houseBlock inp) s = .next t ∧
    ∀ u v a plan tone, u = atHouseBlock inp s → v = beforeSound inp s → a = afterSound inp s →
    (∀ n, plan.get n = u.plan (v.lanes.map Lane.handed) n) →
    tone = ((noiseSamples 48 u.noise).1.map fun x => sat24 (scaled x (gainFactor s.toneGain))) →
    ∃ (ran : Fin 192 → Ran) (late : Fin 192 → List Int),
      -- the source in the sample periods beyond the 48th
      (∀ o, (late o).length = inp.periods - 48 ∧ (∀ y ∈ late o, -8388608 ≤ y ∧ y ≤ 8388607) ∧
        ((t.outputs.get o).figures.kind = .silence → ∀ y ∈ late o, y = 0) ∧
        ((t.outputs.get o).figures.kind = .tone →
          late o = (noiseSamples (inp.periods - 48) (noiseSamples 48 u.noise).2).1.map fun x =>
            sat24 (scaled x (gainFactor s.toneGain)))) ∧
      (∀ o, ∃ comp level applied pilot,
        ran o = runOutput (u.select plan tone ((flagsRead inp s).get o) (v.outputs.get o)) (late o) comp level applied pilot
          (v.outputs.get o) ∧
        { t.outputs.get o with toneFlag := (v.outputs.get o).toneFlag } = (ran o).output ∧
        (t.outputs.get o).figures.pilot = pilot ∧
        (pilot = true ↔ (t.outputs.get o).sense.health ≠ .excluded ∧ (t.outputs.get o).sense.health ≠ .failedShort ∧
          ∃ n r, (t.outputs.get o).place = some (n, r) ∧ (u.screens.get n).state ≠ .calibrating) ∧
        ∀ n r, (t.outputs.get o).place = some (n, r) →
          level = (u.screens.get n).level ∧ comp = (t.outputs.get o).figures.comp ∧
          applied = (a.attenuations.get n).current + (a.screens.get n).fadeAtt) ∧
      ∀ n, t.meters.get n =
        { v.meters.get n with
          clips := min 65535 ((v.meters.get n).clips + ((plan.get n).program.clips + (plan.get n).pagingClips +
            (((List.finRange 192).filter fun o => decide ((t.outputs.get o).screen = some n)).map fun o =>
              (ran o).clips).sum)) }

/-- F(g) is round-to-nearest(2^20 x 10^(g/40)), exact halves up, for every step from -255 to 24, and so has the values
of the two tables. The gain stage, the role feeds and the paging samples all use it; a muted gain stage gives 0 and
counts no clip. -/
def Obligations.GainFactorNearest : Prop :=
  (∀ g : Int, -255 ≤ g → g ≤ 24 →
    (gainFactor g : Int) = ⌊(2 : ℝ) ^ 20 * (10 : ℝ) ^ ((g : ℝ) / 40) + 1 / 2⌋) ∧
  ((List.range 49).map fun i => gainFactor (24 - (i : Int))) =
    [4174456, 3940941, 3720488, 3512367, 3315888, 3130401, 2955289, 2789972, 2633904, 2486566, 2347469, 2216154,
      2092184, 1975149, 1864661, 1760354, 1661881, 1568917, 1481153, 1398299, 1320079, 1246235, 1176522, 1110708,
      1048576, 989920, 934544, 882267, 832914, 786321, 742335, 700809, 661607, 624597, 589658, 556673, 525533, 496135,
      468382, 442181, 417446, 394094, 372049, 351237, 331589, 313040, 295529, 278997, 263390] ∧
  ([-30, -40, -48, -60, -80, -120, -160, -200, -240, -252, -253, -255].map gainFactor) =
    [186466, 104858, 66161, 33159, 10486, 1049, 105, 10, 1, 1, 0, 0] ∧
  gainFactor (-254) = 0 ∧
  (∀ g xs, runGain (some g) xs =
    (xs.map fun x => sat24 (scaled x (gainFactor g)), (xs.filter fun x => saturates (scaled x (gainFactor g))).length)) ∧
  (∀ xs, runGain none xs = (xs.map fun _ => 0, 0)) ∧
  (∀ i g a, sourceFeed (.one i g) a = (slot a i).map fun x => scaled x (gainFactor g)) ∧
  (∀ i gi j gj a, sourceFeed (.two i gi j gj) a =
    List.zipWith (fun x y => roundShift (x * gainFactor gi + y * gainFactor gj) 20) (slot a i) (slot a j)) ∧
  (∀ (s : State) handed n, (s.plan handed n).figures.pagingRoles ≠ [] → ∃ g : Int,
    (g = s.pagingStep ∨ g = s.pagingStep - 6) ∧
      (s.plan handed n).paging = (slot (handed.get 12) 1).map fun x => sat24 (scaled x (gainFactor g)))

/-- The level function: 0 for 0, and 6k + T(m) + 1 for the highest set bit k and the three bits m below it, with the
table of T; a doubling adds 6. -/
def Obligations.LevelFunction : Prop :=
  lvl 0 = 0 ∧
  (∀ v k m : Nat, 2 ^ k ≤ v → v < 2 ^ (k + 1) → m = v * 8 / 2 ^ k - 8 →
    m ≤ 7 ∧ lvl v = 6 * k + [0, 1, 2, 3, 4, 4, 5, 5].getD m 0 + 1) ∧
  (∀ m : Nat, m ≤ 7 → |((levelFraction m : Nat) : ℝ) - 6 * Real.logb 2 (1 + m / 8)| ≤ 1 / 2) ∧
  (∀ v j : Nat, 0 < v → lvl (v * 2 ^ j) = lvl v + 6 * j) ∧
  [lvl 1, lvl 2, lvl 3, lvl 48, lvl (2 ^ 30), lvl (24 * 2 ^ 30), lvl (48 * 2 ^ 30), lvl (3 * 2 ^ 39)] =
    [1, 7, 11, 35, 181, 209, 215, 245]

/-- OFFSET SET stores the SPL offset of a screen. -/
def Obligations.OffsetSet : Prop :=
  (∀ station, allowed 26 station = true ↔ roleOf station = .management) ∧
  (∀ (h : Header) (screen : Nat) (s : State),
    (∀ value, (screen = 0 ∨ 12 < screen) → s.ready (.offsetSet h screen value) h 26 →
      exec (.offsetSet h screen value) s = .next (s.refusing (.offsetSet h screen value) h 26 .range)) ∧
    (∀ n v, ident 12 screen = some n → s.ready (.offsetSet h screen (some v)) h 26 →
      exec (.offsetSet h screen (some v)) s =
        .next (((s.taking (.offsetSet h screen (some v)) h).modMeter n fun m =>
            { m with offset := max (-128) (min v 127) }).answering h
          (doneAnswer h 26 (decide (v < -128 ∨ 127 < v)) []))) ∧
    (∀ n, ident 12 screen = some n → s.ready (.offsetSet h screen none) h 26 →
      exec (.offsetSet h screen none) s =
        .next (s.replying (.offsetSet h screen none) h
          (doneAnswer h 26 false [.num 1 (s.meters.get n).offset])))) ∧
  (∀ h screen s, ∃ t, exec (.disable h screen) s = .next t ∧ ∀ n, (t.meters.get n).offset = (s.meters.get n).offset) ∧
  (∀ lines s, ∃ t, exec (.powerOnReset lines) s = .next t ∧ ∀ n, (t.meters.get n).offset = 0) ∧
  (∀ port a b x s, (s.ports.get port).tx = some (.answer x) → x.kind = 52 → x.outcome = .done →
    ∃ t, exec (.frameSent port a b) s = .next t ∧ ∀ n, (t.meters.get n).offset = 0)

/-! ### Tuning and the delay store -/

/-- TUNE LOAD replaces a whole tuning record, with its histories at 0, and reallocates the output's pages when its
effective delay changes: RANGE, HELD, STATE, STARTING and the reallocation's refusals in this order. TRIM replaces the
trim alone. On an output out of range each is refused with RANGE (04 R70, R71). -/
def Obligations.TuneLoadAndTrim : Prop :=
  (∀ (h : Header) (output : Nat) (s : State), (output = 0 ∨ 192 < output) →
    (∀ trim p sections delay, s.ready (.tuneLoad h output trim p sections delay) h 21 →
      exec (.tuneLoad h output trim p sections delay) s =
        .next (s.refusing (.tuneLoad h output trim p sections delay) h 21 .range)) ∧
    (∀ value, s.ready (.trim h output value) h 22 →
      exec (.trim h output value) s = .next (s.refusing (.trim h output value) h 22 .range))) ∧
  ∀ (h : Header) (output : Nat) (o : Fin 192) (s : State), ident 192 output = some o →
    (∀ trim p sections delay, s.ready (.tuneLoad h output trim p sections delay) h 21 →
      ((1 < p ∨ 8 < sections.length) →
        exec (.tuneLoad h output trim p sections delay) s =
          .next (s.refusing (.tuneLoad h output trim p sections delay) h 21 .range)) ∧
      (p ≤ 1 → sections.length ≤ 8 →
        (roleOf h.station ≠ .management →
          (∀ n, (s.outputs.get o).screen = some n → (s.screens.get n).holder ≠ some h.station) →
          exec (.tuneLoad h output trim p sections delay) s =
            .next (s.refusing (.tuneLoad h output trim p sections delay) h 21 .held)) ∧
        ((roleOf h.station = .management ∨
            ∃ n, (s.outputs.get o).screen = some n ∧ (s.screens.get n).holder = some h.station) →
          ((∃ n, (s.outputs.get o).screen = some n ∧
              ((s.screens.get n).state.playing = true ∨ (s.screens.get n).state = .evacuated)) →
            exec (.tuneLoad h output trim p sections delay) s =
              .next (s.refusing (.tuneLoad h output trim p sections delay) h 21 .state)) ∧
          ((∀ n, (s.outputs.get o).screen = some n →
              (s.screens.get n).state.playing = false ∧ (s.screens.get n).state ≠ .evacuated) →
            (s.selftest.running = true →
              exec (.tuneLoad h output trim p sections delay) s =
                .next (s.refusing (.tuneLoad h output trim p sections delay) h 21 .starting)) ∧
            (s.selftest.running = false → ∀ d lip,
              d = min delay 9599 →
              lip = ((s.outputs.get o).screen.map fun n => (s.screens.get n).config.lipSync).getD 0 →
              (∀ why, d ≠ (s.outputs.get o).delay → s.reallocRefusal [{ output := o, delay := d + lip }] = some why →
                exec (.tuneLoad h output trim p sections delay) s =
                  .next (s.refusing (.tuneLoad h output trim p sections delay) h 21 why)) ∧
              ∀ u, (d = (s.outputs.get o).delay ∧ u = s.taking (.tuneLoad h output trim p sections delay) h ∨
                  d ≠ (s.outputs.get o).delay ∧ s.reallocRefusal [{ output := o, delay := d + lip }] = none ∧
                    u = reallocate [{ output := o, delay := d + lip }]
                      (s.taking (.tuneLoad h output trim p sections delay) h)) →
                exec (.tuneLoad h output trim p sections delay) s =
                  .next ((u.modOutput o fun x =>
                      { x with
                        trim := max (-80) (min trim 24), inverted := decide (p = 1), delay := d,
                        path := sections.map fun c =>
                          { coef := c, hist := { x1 := 0, x2 := 0, y1 := 0, y2 := 0 } } }).answering h
                    (doneAnswer h 21 (decide (trim < -80 ∨ 24 < trim ∨ 9599 < delay)) []))))))) ∧
    (∀ value, s.ready (.trim h output value) h 22 →
      ((roleOf h.station = .management ∨
          ∃ n, (s.outputs.get o).screen = some n ∧ (s.screens.get n).holder = some h.station) →
        exec (.trim h output value) s =
          .next (((s.taking (.trim h output value) h).modOutput o fun x =>
              { x with trim := max (-80) (min value 24) }).answering h
            (doneAnswer h 22 (decide (value < -80 ∨ 24 < value)) []))) ∧
      (roleOf h.station ≠ .management →
        (∀ n, (s.outputs.get o).screen = some n → (s.screens.get n).holder ≠ some h.station) →
        exec (.trim h output value) s = .next (s.refusing (.trim h output value) h 22 .held)))

/-- The reallocation of the delay store: its refusals in order; one output's list takes the lowest free pages at its end
or gives up its last pages, and its delay line restarts as silence; several outputs are reallocated together, each to
its own number of pages, and the free pages change by their net sum: first every list that shrinks gives up its last
pages, then the lists that grow take, one after the other, the lowest pages then free. A SCREEN SET reallocates the
outputs of its screen in ascending order (01 R24, 04 R85, R86, R87). -/
def Obligations.ReallocationMovesPages : Prop :=
  ∀ s : State,
    (∀ cs, s.selftest.running = true → s.reallocRefusal cs = some .starting) ∧
    (∀ cs, s.selftest.running = false → (∃ c ∈ cs, 9599 < c.delay) → s.reallocRefusal cs = some .range) ∧
    (∀ cs, s.selftest.running = false → (∀ c ∈ cs, c.delay ≤ 9599) →
      s.reallocRefusal cs =
        if ((s.freePages.length : Nat) : Int) <
            (cs.map fun c => ((pagesFor c.delay : Nat) : Int) - (s.outputs.get c.output).pages.length).sum then some .noroom
        else none) ∧
    (∀ c, pagesFor c.delay ≤ (s.outputs.get c.output).pages.length →
      reallocate [c] s = s.modOutput c.output fun x =>
        { x with pages := x.pages.take (pagesFor c.delay), line := List.replicate c.delay 0 }) ∧
    (∀ c, (s.outputs.get c.output).pages.length < pagesFor c.delay →
      reallocate [c] s = s.modOutput c.output fun x =>
        { x with
          pages := x.pages ++ s.freePages.take (pagesFor c.delay - x.pages.length),
          line := List.replicate c.delay 0 }) ∧
    (∀ cs, PageLaw s → (cs.map Change.output).Nodup → s.reallocRefusal cs = none →
      (∀ c ∈ cs, ((reallocate cs s).outputs.get c.output).pages.length = pagesFor c.delay ∧
        ((reallocate cs s).outputs.get c.output).line = List.replicate c.delay 0) ∧
      (∀ o, (∀ c ∈ cs, c.output ≠ o) → (reallocate cs s).outputs.get o = s.outputs.get o) ∧
      (((reallocate cs s).freePages.length : Nat) : Int) =
        s.freePages.length -
          (cs.map fun c => ((pagesFor c.delay : Nat) : Int) - (s.outputs.get c.output).pages.length).sum) ∧
    (∀ (cs : List Change) (kept : Fin 192 → List Nat) (free : List Nat), PageLaw s → (cs.map Change.output).Nodup → s.reallocRefusal cs = none →
      (∀ o, (∀ c ∈ cs, c.output ≠ o) → kept o = (s.outputs.get o).pages) →
      (∀ c ∈ cs, kept c.output = (s.outputs.get c.output).pages.take (pagesFor c.delay)) →
      free = ((List.range 4096).filter fun p => decide (p ∉ s.badPages ∧ ∀ o, p ∉ kept o)) →
      ∀ before c after, cs = before ++ c :: after →
        ((reallocate cs s).outputs.get c.output).pages =
          kept c.output ++
            (free.drop (before.map fun d => pagesFor d.delay - (s.outputs.get d.output).pages.length).sum).take
              (pagesFor c.delay - (s.outputs.get c.output).pages.length)) ∧
    (∀ n lip, s.lipChanges n lip =
      ((List.finRange 192).filter fun o => decide ((s.outputs.get o).screen = some n)).map fun o =>
        { output := o, delay := (s.outputs.get o).delay + lip })

/-- SELFTEST_COMPLETION at the 2048th house block: the faulty pages become BAD, the self-test is DONE, and the SELFTEST
notice carries the good and bad page counts; before that block it changes nothing (04 R88). That the completion is a
command of its own, taken before its house block, is the model's, log 2; the two faults as operands are log 8's. -/
def Obligations.SelftestCompletes : Prop :=
  ∀ (fault0 fault1 : Bool) (s : State),
    (¬(s.selftest.running = true ∧ 2048 ≤ s.selftest.blocks + 1) →
      exec (.selftestCompletion fault0 fault1) s = .next s) ∧
    (s.selftest.running = true → 2048 ≤ s.selftest.blocks + 1 →
      ∀ bad u, bad = s.selftest.faults ++ (if fault0 then [2 * s.selftest.blocks] else []) ++
          (if fault1 then [2 * s.selftest.blocks + 1] else []) →
        u = { s with
          selftest := { running := false, blocks := s.selftest.blocks + 1, faults := bad }, badPages := bad } →
        exec (.selftestCompletion fault0 fault1) s = .next (u.notify (.selftest u.freePages.length bad.length)))

/-! ### Settings, alarms and line sense -/

/-- Settings requests: LEVEL stores the house level; ALARM SET the alarm settings, with a loud trim above the trim
maximum lowered to it; SENSE SET the thresholds, clamped and put in order; BUDGET SET the banks and the reserve, with
the power computed again when the available draw changes. What is not carried is kept, a value out of range is clamped
with CLAMPED, and nothing else changes. A screen or an output out of range is refused with RANGE (01 R4, R20, 06 R118,
R122, 07 R130, 08 R142). That an auto trim code above 1 is
stored as on with CLAMPED is the model's, log 13, and so is the clamp of a bank above 65,535, log 35. -/
def Obligations.SettingsStored : Prop :=
  (∀ (h : Header) (screen : Nat) (s : State), (screen = 0 ∨ 12 < screen) →
    (∀ value, s.ready (.level h screen value) h 10 →
      exec (.level h screen value) s = .next (s.refusing (.level h screen value) h 10 .range)) ∧
    (∀ sel, s.ready (.alarmSet h screen sel) h 28 →
      exec (.alarmSet h screen sel) s = .next (s.refusing (.alarmSet h screen sel) h 28 .range))) ∧
  (∀ (h : Header) (output : Nat) (sel : SenseSel) (s : State), (output = 0 ∨ 192 < output) →
    s.ready (.senseSet h output sel) h 30 →
    exec (.senseSet h output sel) s = .next (s.refusing (.senseSet h output sel) h 30 .range)) ∧
  (∀ (h : Header) (screen value : Nat) (n : Fin 12) (s : State), ident 12 screen = some n →
    s.ready (.level h screen value) h 10 →
    (((s.screens.get n).holder = some h.station ∨ roleOf h.station = .management) →
      exec (.level h screen value) s =
        .next (((s.taking (.level h screen value) h).modScreen n fun c => { c with level := min value 100 }).answering h
          (doneAnswer h 10 (decide (100 < value)) []))) ∧
    ((s.screens.get n).holder ≠ some h.station → roleOf h.station ≠ .management →
      exec (.level h screen value) s = .next (s.refusing (.level h screen value) h 10 .held))) ∧
  (∀ (h : Header) (screen : Nat) (sel : AlarmSel) (n : Fin 12) (s : State) (c : AlarmSettings),
    ident 12 screen = some n → s.ready (.alarmSet h screen sel) h 28 → c = (s.alarms.get n).settings →
    ∃ d clamped, exec (.alarmSet h screen sel) s =
        .next (((s.taking (.alarmSet h screen sel) h).modAlarms n fun a =>
            { a with settings := d, loudTrim := min a.loudTrim d.trimMax }).answering h (doneAnswer h 28 clamped [])) ∧
      d =
        { peakLimit := (sel.peakLimit.map fun v => min v 255).getD c.peakLimit
          loudLimit := (sel.loudLimit.map fun v => min v 255).getD c.loudLimit
          silenceFloor := (sel.silenceFloor.map fun v => min v 255).getD c.silenceFloor
          silenceRun := (sel.silenceRun.map fun v => max 1 (min v 60)).getD c.silenceRun
          clipLimit := (sel.clipLimit.map fun v => min v 65535).getD c.clipLimit
          raiseHold := (sel.raiseHold.map fun v => min v 15).getD c.raiseHold
          clearHold := (sel.clearHold.map fun v => max 1 (min v 15)).getD c.clearHold
          autoTrim := (sel.autoTrim.map fun v => decide (v ≠ 0)).getD c.autoTrim
          trimMax := (sel.trimMax.map fun v => min v 24).getD c.trimMax } ∧
      (clamped = true ↔
        (∃ v, sel.peakLimit = some v ∧ 255 < v) ∨ (∃ v, sel.loudLimit = some v ∧ 255 < v) ∨
        (∃ v, sel.silenceFloor = some v ∧ 255 < v) ∨ (∃ v, sel.silenceRun = some v ∧ (v = 0 ∨ 60 < v)) ∨
        (∃ v, sel.clipLimit = some v ∧ 65535 < v) ∨ (∃ v, sel.raiseHold = some v ∧ 15 < v) ∨
        (∃ v, sel.clearHold = some v ∧ (v = 0 ∨ 15 < v)) ∨ (∃ v, sel.autoTrim = some v ∧ 1 < v) ∨
        (∃ v, sel.trimMax = some v ∧ 24 < v))) ∧
  (∀ (h : Header) (output : Nat) (sel : SenseSel) (o : Fin 192) (s : State) (c : Thresholds) (a b g e : Nat),
    ident 192 output = some o → s.ready (.senseSet h output sel) h 30 → c = (s.outputs.get o).thresholds →
    a = (sel.shortMax.map fun v => min v 4092).getD c.shortMax →
    b = max ((sel.lowDrift.map fun v => max 1 (min v 4093)).getD c.lowDrift) (a + 1) →
    g = max ((sel.highDrift.map fun v => max 1 (min v 4094)).getD c.highDrift) b →
    e = max ((sel.openMin.map fun v => max 2 (min v 4095)).getD c.openMin) (g + 1) →
    ∃ clamped, exec (.senseSet h output sel) s =
        .next (((s.taking (.senseSet h output sel) h).modOutput o fun x =>
            { x with thresholds := { shortMax := a, lowDrift := b, highDrift := g, openMin := e } }).answering h
          (doneAnswer h 30 clamped [])) ∧
      (clamped = true ↔ a ≠ sel.shortMax.getD c.shortMax ∨ b ≠ sel.lowDrift.getD c.lowDrift ∨
        g ≠ sel.highDrift.getD c.highDrift ∨ e ≠ sel.openMin.getD c.openMin ∨
        (∃ v, sel.lowDrift = some v ∧ (v = 0 ∨ 4093 < v)) ∨ (∃ v, sel.highDrift = some v ∧ (v = 0 ∨ 4094 < v)) ∨
        (∃ v, sel.openMin = some v ∧ (v < 2 ∨ 4095 < v)))) ∧
  (∀ (h : Header) (sel : BudgetSel) (s : State) (b : Budget), s.ready (.budgetSet h sel) h 34 →
    b = { s.budget with
      mains := (sel.mains.map fun v => min v 65535).getD s.budget.mains
      generator := (sel.generator.map fun v => min v 65535).getD s.budget.generator
      battery := (sel.battery.map fun v => min v 65535).getD s.budget.battery
      batteryLow := (sel.batteryLow.map fun v => min v 65535).getD s.budget.batteryLow
      reserve := (sel.reserve.map fun v => min v 65535).getD s.budget.reserve } →
    ∃ clamped, exec (.budgetSet h sel) s =
        .next ((if b.available = s.budget.available then { s.taking (.budgetSet h sel) h with budget := b }
          else recompute .budget { s.taking (.budgetSet h sel) h with budget := b }).answering h
          (doneAnswer h 34 clamped [])) ∧
      (clamped = true ↔
        (∃ v, sel.mains = some v ∧ 65535 < v) ∨ (∃ v, sel.generator = some v ∧ 65535 < v) ∨
        (∃ v, sel.battery = some v ∧ 65535 < v) ∨ (∃ v, sel.batteryLow = some v ∧ 65535 < v) ∨
        (∃ v, sel.reserve = some v ∧ 65535 < v)))

/-- The alarm state machine and what it steps on: the table of 06 R113; an alarm whose condition stays true is raised at
the event after as many as the raise hold, and one whose condition stays false is cleared at the event after as many as
the clear hold; the condition of each kind, the silence run counter, the cause detail and the loud trim. At an interval
event every record of every screen steps by it, on the figures gathered for its screen, with the holds then in force: a
raise, and a raise alone, counts, makes a new last-raise record and joins the screen's indication set on every port; the
attention flag is on while a record is RAISED or CLEARING (06 R107, R108, R109, R110, R111, R112, R113, R114, R118,
R119, R120). The event is given by INTERVAL_EVENT; that this is a command of its own, with a mark that it has been
taken, is the model's, log 2. HOUSE_BLOCK takes it in the same way (HouseBlockTaken). -/
def Obligations.AlarmStateMachine : Prop :=
  (∀ rh ch k : Nat,
    alarmStep rh ch true .clear k = (if rh = 0 then (.raised, 0, .raise) else (.pending, 0, .none)) ∧
    alarmStep rh ch false .clear k = (.clear, k, .none) ∧
    alarmStep rh ch true .pending k = (if rh ≤ k + 1 then (.raised, 0, .raise) else (.pending, k + 1, .none)) ∧
    alarmStep rh ch false .pending k = (.clear, 0, .none) ∧
    alarmStep rh ch true .raised k = (.raised, k, .none) ∧
    alarmStep rh ch false .raised k = (.clearing, 0, .none) ∧
    alarmStep rh ch true .clearing k = (.raised, 0, .none) ∧
    alarmStep rh ch false .clearing k = (if ch ≤ k + 1 then (.clear, 0, .clear) else (.clearing, k + 1, .none))) ∧
  (∀ rh ch k : Nat, 0 < k → alarmAfter rh ch (.clear, 0) (List.replicate k true) =
    if k ≤ rh then (.pending, k - 1) else (.raised, 0)) ∧
  (∀ rh ch k : Nat, 0 < k → 0 < ch → alarmAfter rh ch (.raised, 0) (List.replicate k false) =
    if k ≤ ch then (.clearing, k - 1) else (.clear, 0)) ∧
  (∀ (g : Gathered) (c : AlarmSettings) (run : Nat),
    (condition g c run .peak = true ↔ g.state = .show ∧ c.peakLimit < g.intervalSpl) ∧
    (condition g c run .loud = true ↔ g.state = .show ∧ c.loudLimit < g.windowSpl) ∧
    (condition g c run .silent = true ↔ g.state = .show ∧ c.silenceRun ≤ run) ∧
    (condition g c run .clip = true ↔ g.state = .show ∧ c.clipLimit < g.clips) ∧
    (condition g c run .lane = true ↔
      (g.state = .show ∨ g.state = .paused ∨ g.state = .armed) ∧
        (g.sync = .nosignal ∨ g.sync = .hunt ∨ g.sync = .probation ∨ 2 ≤ g.slips)) ∧
    (condition g c run .speaker = true ↔
      (g.state = .armed ∨ g.state = .show ∨ g.state = .paused ∨ g.state = .ending ∨ g.state = .evacuated) ∧
        g.failed.isSome = true) ∧
    (condition g c run .power = true ↔
      (g.state = .show ∨ g.state = .paused ∨ g.state = .ending) ∧ (g.status = .shed ∨ g.status = .suspended)) ∧
    silenceStep g c run =
      (if g.state = .show ∧ g.sync = .locked ∧ g.rolling = true ∧ g.intervalSpl < c.silenceFloor then min 60 (run + 1)
      else 0) ∧
    (∀ loud trim, trimStep g c loud trim =
      if loud = .raised ∧ c.autoTrim = true ∧ c.loudLimit < g.windowSpl ∧ trim < c.trimMax then trim + 1 else trim) ∧
    AlarmKind.all.map (detailOf g) =
      [some (.spl g.intervalSpl), some (.spl g.windowSpl), some (.spl g.intervalSpl), some (.clips g.clips),
        some (.lane g.sync g.slips g.lastSlip), g.failed.map fun f => .speaker f.1 f.2, some (.power g.status)]) ∧
  AlarmKind.all = [.peak, .loud, .silent, .clip, .lane, .speaker, .power] ∧
  ∀ s : State, s.blockCount + 1 = 1024 → s.intervalTaken = false → ∃ t, exec .intervalEvent s = .next t ∧
    ∀ n, ∃ g, g = (closeIntervals (ensureClosed s)).gather (fun l => (s.lanes.get l).intervalSlips) n ∧
      g.state = (s.screens.get n).state ∧ (g.rolling = true ↔ (s.screens.get n).lastRolling = some true) ∧
      g.time = ((s.lanes.get (programLane n)).accepted.map fun w => min w.time 2073599) ∧
      g.intervalSpl = (t.meters.get n).intervalSpl ∧ g.windowSpl = (t.meters.get n).windowSpl ∧
      g.clips = (s.meters.get n).clips ∧ g.sync = (s.lanes.get (programLane n)).sync ∧
      g.slips = (s.lanes.get (programLane n)).intervalSlips ∧
      g.lastSlip = (s.lanes.get (programLane n)).lastSlip ∧ g.status = (s.grants.get n).status ∧
      (∀ o short, g.failed = some (o, short) ↔
        (s.outputs.get o).screen = some n ∧
        ((s.outputs.get o).sense.health = .failedOpen ∧ short = false ∨
          (s.outputs.get o).sense.health = .failedShort ∧ short = true) ∧
        ∀ o', o' < o → (s.outputs.get o').screen = some n →
          (s.outputs.get o').sense.health ≠ .failedOpen ∧ (s.outputs.get o').sense.health ≠ .failedShort) ∧
      (t.alarms.get n).settings = (s.alarms.get n).settings ∧
      (t.alarms.get n).silenceRun = silenceStep g (s.alarms.get n).settings (s.alarms.get n).silenceRun ∧
      (t.alarms.get n).loudTrim =
        trimStep g (s.alarms.get n).settings ((t.alarms.get n).records.get AlarmKind.loud.ix).state
          (s.alarms.get n).loudTrim ∧
      ((t.alarms.get n).attention = true ↔ ∃ i, ((t.alarms.get n).records.get i).state = .raised ∨
        ((t.alarms.get n).records.get i).state = .clearing) ∧
      ∀ k : AlarmKind, ∃ old new event, old = (s.alarms.get n).records.get k.ix ∧
        new = (t.alarms.get n).records.get k.ix ∧
        (new.state, new.phase, event) =
          alarmStep (s.alarms.get n).settings.raiseHold (s.alarms.get n).settings.clearHold
            (condition g (s.alarms.get n).settings (t.alarms.get n).silenceRun k) old.state old.phase ∧
        (event = .raise →
          new.raises = old.raises + 1 ∧ new.lastShow = g.time ∧ new.detail = detailOf g k) ∧
        (event ≠ .raise → new.raises = old.raises ∧ new.lastShow = old.lastShow ∧ new.detail = old.detail) ∧
        ∀ p, ((t.ports.get p).indications.get n).get k.ix = true ↔
          ((s.ports.get p).indications.get n).get k.ix = true ∨ event = .raise

/-- A return block: in UNLOCKED two well-formed reports in a row lock the lane and its UNSENSED outputs become UNKNOWN;
in LOCKED a malformed one is counted and the eighth in a row unlocks the lane and makes its outputs UNSENSED but for
the EXCLUDED and FAILED SHORT ones. A report is ignored when its pilot is not valid, its output EXCLUDED, undriven or
on a CALIBRATING screen; else its impedance is classed and debounced, and a settling into SHORT turns the drive off.
The report is spelled by the block's auxiliary bits, two to a frame, the most significant first: 12 bytes, the last two
of them the CRC (LaneSearch) of those before, with the channel, 1 to 16, V, I and the pilot's flag at their places. The
report that locks the lane is the first one taken: the event is then that of a LOCKED lane. The outputs that change by
the lock or its loss do so with their HEALTH notices in ascending order, and a report that changes its output's health
sends one; an output that becomes FAILED aborts a measurement whose target holds it (abortMeasurement:
CalibrationRequests). A taken report leaves in the record what HealthDebounced says, with the class, the Z16, the
screen's state and the show time of this event as the fault that a settling records (07 R127, R128, R129, R131, R132,
R133, R136, R137, 10 R175, 11 R180). That the HEALTH notice goes before the MEASURE notice of the abort is the model's
order, log 6. -/
def Obligations.ReportsTaken : Prop :=
  (∀ bytes, bytes.length ≠ 12 → readReport bytes = none) ∧
  (∀ (channel v1 v0 i1 i0 pilot b6 b7 b8 b9 hi lo : Byte) (good : Prop),
    (good ↔ (crc [channel, v1, v0, i1, i0, pilot, b6, b7, b8, b9]).toNat = 256 * hi.toNat + lo.toNat) →
    ((¬good ∨ channel.toNat = 0 ∨ 16 < channel.toNat) →
      readReport [channel, v1, v0, i1, i0, pilot, b6, b7, b8, b9, hi, lo] = none) ∧
    (∀ k : Fin 16, good → channel.toNat = k.val + 1 →
      readReport [channel, v1, v0, i1, i0, pilot, b6, b7, b8, b9, hi, lo] =
        some { channel := k, volts := 256 * v1.toNat + v0.toNat, amps := 256 * i1.toNat + i0.toNat,
               valid := pilot.getLsbD 0 })) ∧
  (∀ v a, z16Of v a = if a = 0 then 4095 else min 4095 (16 * v / a)) ∧
  (∀ (t : Thresholds) z, (classify t z = .short ↔ z ≤ t.shortMax) ∧
    (classify t z = .open ↔ t.shortMax < z ∧ t.openMin ≤ z) ∧
    (classify t z = .low ↔ t.shortMax < z ∧ z < t.openMin ∧ z < t.lowDrift) ∧
    (classify t z = .high ↔ t.shortMax < z ∧ z < t.openMin ∧ t.lowDrift ≤ z ∧ t.highDrift < z)) ∧
  (∀ l : List Byte, bytesOfAux (auxOfBytes l) = l) ∧
  (∀ b : Byte, auxOfBytes [b] =
    [(b.getLsbD 7, b.getLsbD 6), (b.getLsbD 5, b.getLsbD 4), (b.getLsbD 3, b.getLsbD 2), (b.getLsbD 1, b.getLsbD 0)]) ∧
  ∀ (lane : Fin 12) (aux : List (Bool × Bool)) (report : List Byte) (s : State), report = bytesOfAux aux →
    ((s.returnLanes.get lane).locked = false → readReport report = none →
      exec (.returnBlockEvent lane aux) s = .next (s.modReturnLane lane fun y => { y with run := 0 })) ∧
    (∀ x, (s.returnLanes.get lane).locked = false → readReport report = some x → (s.returnLanes.get lane).run = 0 →
      exec (.returnBlockEvent lane aux) s = .next (s.modReturnLane lane fun y => { y with run := 1 })) ∧
    (∀ x, (s.returnLanes.get lane).locked = false → readReport report = some x → (s.returnLanes.get lane).run = 1 →
      ∃ t, exec (.returnBlockEvent lane aux) s = .next t ∧
        (t.returnLanes.get lane) = { s.returnLanes.get lane with locked := true, run := 0 } ∧
        (∀ o, o.val / 16 = lane.val → o ≠ channelOutput lane x.channel →
          (t.outputs.get o).sense.health =
            if (s.outputs.get o).sense.health = .unsensed then .unknown else (s.outputs.get o).sense.health)) ∧
    (∀ x y, (s.returnLanes.get lane).locked = false → readReport report = some x → (s.returnLanes.get lane).run = 1 →
      y = { s with
        returnLanes := s.returnLanes.modify lane fun r => { r with locked := true, run := 0 },
        outputs := y.outputs,
        ports := tell ((List.finRange 192).filterMap fun o =>
          if o.val / 16 = lane.val ∧ (s.outputs.get o).sense.health = .unsensed then
            some (.health o (s.outputs.get o).screen .unknown .unsensed .laneFound none none)
          else none) s.ports } →
      (∀ o, y.outputs.get o =
        if o.val / 16 = lane.val ∧ (s.outputs.get o).sense.health = .unsensed then
          { s.outputs.get o with sense := { (s.outputs.get o).sense with health := .unknown } }
        else s.outputs.get o) →
      exec (.returnBlockEvent lane aux) s = exec (.returnBlockEvent lane aux) y) ∧
    ((s.returnLanes.get lane).locked = true → readReport report = none → (s.returnLanes.get lane).run + 1 < 8 →
      exec (.returnBlockEvent lane aux) s =
        .next (s.modReturnLane lane fun y => { y with run := y.run + 1, malformed := y.malformed + 1 })) ∧
    ((s.returnLanes.get lane).locked = true → readReport report = none → 8 ≤ (s.returnLanes.get lane).run + 1 →
      ∃ t, exec (.returnBlockEvent lane aux) s = .next t ∧
        t = { s with
          returnLanes := t.returnLanes, outputs := t.outputs,
          ports := tell ((List.finRange 192).filterMap fun o =>
            if o.val / 16 = lane.val ∧ (s.outputs.get o).sense.health ≠ .excluded ∧
                (s.outputs.get o).sense.health ≠ .failedShort ∧ (s.outputs.get o).sense.health ≠ .unsensed then
              some (.health o (s.outputs.get o).screen .unsensed (s.outputs.get o).sense.health .laneLost none none)
            else none) s.ports } ∧
        t.returnLanes = s.returnLanes.modify lane (fun y =>
          { locked := false, run := 0, malformed := y.malformed + 1 }) ∧
        (t.returnLanes.get lane) =
          { locked := false, run := 0, malformed := (s.returnLanes.get lane).malformed + 1 } ∧
        (∀ o, t.outputs.get o =
          if o.val / 16 = lane.val ∧ (s.outputs.get o).sense.health ≠ .excluded ∧
              (s.outputs.get o).sense.health ≠ .failedShort then
            { s.outputs.get o with
              sense := { (s.outputs.get o).sense with
                health := .unsensed, settled := none, candidate := none, count := 0 } }
          else s.outputs.get o)) ∧
    (∀ x o, (s.returnLanes.get lane).locked = true → readReport report = some x → o = channelOutput lane x.channel →
      ((x.valid = false ∨ (s.outputs.get o).sense.health = .excluded ∨ (s.outputs.get o).driveOn = false ∨
          ∃ n, (s.outputs.get o).screen = some n ∧ (s.screens.get n).state = .calibrating) →
        exec (.returnBlockEvent lane aux) s = .next (s.modReturnLane lane fun y => { y with run := 0 })) ∧
      (x.valid = true → (s.outputs.get o).sense.health ≠ .excluded → (s.outputs.get o).driveOn = true →
        (∀ n, (s.outputs.get o).screen = some n → (s.screens.get n).state ≠ .calibrating) →
        ∃ t z c, exec (.returnBlockEvent lane aux) s = .next t ∧
          z = z16Of x.volts x.amps ∧ c = classify (s.outputs.get o).thresholds z ∧
          t = { s with
            returnLanes := t.returnLanes, outputs := t.outputs, context := t.context, ports := t.ports } ∧
          (∀ o', o' ≠ o → t.outputs.get o' = { s.outputs.get o' with toneFlag := (t.outputs.get o').toneFlag }) ∧
          (t.outputs.get o).sense = (s.outputs.get o).sense.take z c
            { cls := c, z16 := z, state := (s.outputs.get o).screen.map fun n => (s.screens.get n).state,
              time := (s.outputs.get o).screen.bind fun n =>
                (s.lanes.get (programLane n)).accepted.map fun w => min w.time 2073599 } ∧
          (t.outputs.get o).sense.lastZ = some z ∧
          (t.outputs.get o).sense.health = (debounce (s.outputs.get o).sense c).health ∧
          (t.outputs.get o).sense.settled = (debounce (s.outputs.get o).sense c).settled ∧
          (t.outputs.get o).sense.candidate = (debounce (s.outputs.get o).sense c).candidate ∧
          (t.outputs.get o).sense.count = (debounce (s.outputs.get o).sense c).count ∧
          (t.outputs.get o).driveOn =
            (if (debounce (s.outputs.get o).sense c).settles = true ∧ c = .short then false
            else (s.outputs.get o).driveOn) ∧
          (∀ u q : State, u = (s.modReturnLane lane fun y => { y with run := 0 }).modOutput o (fun y =>
              { y with sense := (t.outputs.get o).sense, driveOn := (t.outputs.get o).driveOn }) →
            q = u.notify (.health o (s.outputs.get o).screen (t.outputs.get o).sense.health
              (s.outputs.get o).sense.health .report (some z) none) →
            ((t.outputs.get o).sense.health = (s.outputs.get o).sense.health → t = u) ∧
            ((t.outputs.get o).sense.health ≠ (s.outputs.get o).sense.health →
              (∀ n g, ((t.outputs.get o).sense.health = .failedOpen ∨
                  (t.outputs.get o).sense.health = .failedShort) →
                s.context.screen = some n → s.context.target = some g → o ∈ s.targetOutputs n g →
                t = abortMeasurement .failed q) ∧
              (((t.outputs.get o).sense.health ≠ .failedOpen ∧ (t.outputs.get o).sense.health ≠ .failedShort ∨
                  ∀ n g, s.context.screen = some n → s.context.target = some g → o ∉ s.targetOutputs n g) →
                t = q)))))

/-- The debounce of a taken report of class c by the table of 07 R131: an UNKNOWN or SUSPECT output settles at the third
report in a row of one class; a settled one that meets another class becomes SUSPECT, and one that meets its own again
is restored; a settling counts a fault of its class, GOOD none (07 R131, R136). -/
def Obligations.HealthDebounced : Prop :=
  ∀ (r : HealthRecord) (c : LineClass),
    ((r.health = .unknown ∨ r.health = .suspect ∧ r.settled ≠ some c) → r.candidate ≠ some c →
      debounce r c = { health := r.health, settled := r.settled, candidate := some c, count := 1, settles := false }) ∧
    ((r.health = .unknown ∨ r.health = .suspect ∧ r.settled ≠ some c) → r.candidate = some c → r.count + 1 < 3 →
      debounce r c =
        { health := r.health, settled := r.settled, candidate := some c, count := r.count + 1, settles := false }) ∧
    ((r.health = .unknown ∨ r.health = .suspect ∧ r.settled ≠ some c) → r.candidate = some c → 3 ≤ r.count + 1 →
      debounce r c =
        { health := c.settledState, settled := some c, candidate := none, count := 0, settles := true }) ∧
    (r.health = .suspect → r.settled = some c →
      debounce r c =
        { health := c.settledState, settled := r.settled, candidate := none, count := 0, settles := false }) ∧
    ((r.health = .good ∨ r.health = .driftingLow ∨ r.health = .driftingHigh ∨ r.health = .failedOpen) →
      (r.settled = some c → debounce r c =
        { health := r.health, settled := r.settled, candidate := r.candidate, count := r.count, settles := false }) ∧
      (r.settled ≠ some c → debounce r c =
        { health := .suspect, settled := r.settled, candidate := some c, count := 1, settles := false })) ∧
    [LineClass.settledState .good, LineClass.settledState .low, LineClass.settledState .high,
      LineClass.settledState .open, LineClass.settledState .short] =
      [.good, .driftingLow, .driftingHigh, .failedOpen, .failedShort] ∧
    (∀ z f, ((debounce r c).settles = true ∧ c ≠ .good → (r.take z c f).lastFault = some f) ∧
      (¬((debounce r c).settles = true ∧ c ≠ .good) → (r.take z c f).lastFault = r.lastFault) ∧
      (r.take z c f).openFaults = (if (debounce r c).settles = true ∧ c = .open then r.openFaults + 1 else r.openFaults) ∧
      (r.take z c f).shortFaults =
        (if (debounce r c).settles = true ∧ c = .short then r.shortFaults + 1 else r.shortFaults) ∧
      (r.take z c f).lowFaults = (if (debounce r c).settles = true ∧ c = .low then r.lowFaults + 1 else r.lowFaults) ∧
      (r.take z c f).highFaults = (if (debounce r c).settles = true ∧ c = .high then r.highFaults + 1 else r.highFaults))

/-- EXCLUDE makes an output EXCLUDED with nothing settled or counted, and tells it with a HEALTH notice; a measurement
whose target holds it is then aborted, with its MEASURE notice, and else nothing but the record changes; on an EXCLUDED
output it is answered DONE and changes nothing. INCLUDE makes an EXCLUDED or FAILED SHORT output UNKNOWN with its drive
on; on any other it is refused with STATE. An output out of range is refused with RANGE (07 R134, R135, R137, 10 R175;
that the HEALTH notice goes before the MEASURE notice is the model's order, log 6). -/
def Obligations.ExcludeAndInclude : Prop :=
  (∀ (h : Header) (output : Nat) (s : State), (output = 0 ∨ 192 < output) →
    (s.ready (.exclude h output) h 31 →
      exec (.exclude h output) s = .next (s.refusing (.exclude h output) h 31 .range)) ∧
    (s.ready (.includeOutput h output) h 32 →
      exec (.includeOutput h output) s = .next (s.refusing (.includeOutput h output) h 32 .range))) ∧
  ∀ (h : Header) (output : Nat) (o : Fin 192) (s : State), ident 192 output = some o →
    (s.ready (.exclude h output) h 31 →
      ((s.outputs.get o).sense.health = .excluded →
        exec (.exclude h output) s = .next (s.replying (.exclude h output) h (doneAnswer h 31 false []))) ∧
      (∀ x, (s.outputs.get o).sense.health ≠ .excluded →
        x = ((s.taking (.exclude h output) h).modOutput o fun y =>
            { y with
              sense := { y.sense with health := .excluded, settled := none, candidate := none, count := 0 } }).notify
          (.health o (s.outputs.get o).screen .excluded (s.outputs.get o).sense.health .exclude none
            (some h.station)) →
        ((∀ n g, s.context.phase ≠ .idle → s.context.screen = some n → s.context.target = some g →
            o ∉ s.targetOutputs n g) →
          exec (.exclude h output) s = .next (x.answering h (doneAnswer h 31 false []))) ∧
        (∀ n g, s.context.phase ≠ .idle → s.context.screen = some n → s.context.target = some g →
          o ∈ s.targetOutputs n g →
          ∃ t : State, exec (.exclude h output) s =
              .next ((t.notify (.measure n g (.aborted .excluded s.context.phase s.context.background))).answering h
                (doneAnswer h 31 false [])) ∧
            t = { x with outputs := t.outputs, context := Context.reset } ∧
            ∀ o', t.outputs.get o' =
              if (s.outputs.get o').screen = some n then { x.outputs.get o' with toneFlag := false }
              else x.outputs.get o'))) ∧
    (s.ready (.includeOutput h output) h 32 →
      ((s.outputs.get o).sense.health ≠ .excluded → (s.outputs.get o).sense.health ≠ .failedShort →
        exec (.includeOutput h output) s = .next (s.refusing (.includeOutput h output) h 32 .state)) ∧
      (((s.outputs.get o).sense.health = .excluded ∨ (s.outputs.get o).sense.health = .failedShort) →
        exec (.includeOutput h output) s =
          .next ((((s.taking (.includeOutput h output) h).modOutput o fun x =>
              { x with
                sense := { x.sense with health := .unknown, settled := none, candidate := none, count := 0 },
                driveOn := true }).notify
            (.health o (s.outputs.get o).screen .unknown (s.outputs.get o).sense.health .incl none
              (some h.station))).answering h (doneAnswer h 32 false []))))

/-! ### Cues and booth lines -/

/-- CUE ADD takes the lowest free entry and places it: a TIME entry after every entry of its time or an earlier one, any
other at the end of the event list. CUE REMOVE frees one entry of the screen, CUE CLEAR all of them and tells how many.
A screen out of range is refused with RANGE; then the refusals are HELD, RANGE and NOROOM; CUE CLEAR in SHOW is refused
with STATE. A state, an alarm kind, a call or a line that is none is refused with RANGE; a show time above 2,073,599, a
pulse length outside 1 to 65,535 and a house level above 100 are clamped (09 R151, R153, R154, R155, R156). That a chase
flag above 1 is refused with RANGE is the model's, log 13; the codes of states and kinds are log 11's; and that the
answer of CUE ADD carries the state of its entry as a conditional field, with a presence byte that is 0 for an entry
that is no TIME entry, is the model's, log 12. -/
def Obligations.CueRequests : Prop :=
  (∀ t, readCueTrigger (.time t) = some { value := .time (min t 2073599), clamped := decide (2073599 < t) }) ∧
  ([0, 1, 2, 3, 4].map fun c => readCueTrigger (.state c)) =
    ([.start, .pause, .resume, .endBegin, .endDone].map fun e => some { value := .state e, clamped := false }) ∧
  (∀ c, 5 ≤ c → readCueTrigger (.state c) = none) ∧
  ([0, 1, 2, 3, 4, 5, 6].map fun c => readCueTrigger (.alarm c)) =
    ([.peak, .loud, .silent, .clip, .lane, .speaker, .power].map fun k =>
      some { value := .alarm k, clamped := false }) ∧
  (∀ c, 7 ≤ c → readCueTrigger (.alarm c) = none) ∧
  (∀ v, 1 ≤ v → v ≤ 255 → readCueTrigger (.call v) = some { value := .call v, clamped := false }) ∧
  (∀ v, (v = 0 ∨ 255 < v) → readCueTrigger (.call v) = none) ∧
  (∀ k (l : Fin 8), k = l.val + 1 →
    readCueAction (.lineOn k) = some { value := .lineOn l, clamped := false } ∧
    readCueAction (.lineOff k) = some { value := .lineOff l, clamped := false } ∧
    ∀ v, readCueAction (.linePulse k v) =
      some { value := .linePulse l (max 1 (min v 65535)), clamped := decide (v = 0 ∨ 65535 < v) }) ∧
  (∀ k, (k = 0 ∨ 8 < k) → readCueAction (.lineOn k) = none ∧ readCueAction (.lineOff k) = none ∧
    ∀ v, readCueAction (.linePulse k v) = none) ∧
  (∀ v, readCueAction (.houseLevel v) = some { value := .houseLevel (min v 100), clamped := decide (100 < v) }) ∧
  readCueAction .noticeOnly = some { value := .noticeOnly, clamped := false } ∧
  (∀ (h : Header) (screen : Nat) (s : State), (screen = 0 ∨ 12 < screen) →
    (∀ trigger action chase label, s.ready (.cueAdd h screen trigger action chase label) h 36 →
      exec (.cueAdd h screen trigger action chase label) s =
        .next (s.refusing (.cueAdd h screen trigger action chase label) h 36 .range)) ∧
    (∀ entry, s.ready (.cueRemove h screen entry) h 37 →
      exec (.cueRemove h screen entry) s = .next (s.refusing (.cueRemove h screen entry) h 37 .range)) ∧
    (s.ready (.cueClear h screen) h 38 →
      exec (.cueClear h screen) s = .next (s.refusing (.cueClear h screen) h 38 .range))) ∧
  ∀ (h : Header) (screen : Nat) (n : Fin 12) (s : State), ident 12 screen = some n →
    (∀ trigger action chase label, s.ready (.cueAdd h screen trigger action chase label) h 36 →
      ((s.screens.get n).holder ≠ some h.station → roleOf h.station ≠ .management →
        exec (.cueAdd h screen trigger action chase label) s =
          .next (s.refusing (.cueAdd h screen trigger action chase label) h 36 .held)) ∧
      (((s.screens.get n).holder = some h.station ∨ roleOf h.station = .management) →
        ((readCueTrigger trigger = none ∨ readCueAction action = none ∨ 12 < label.length ∨
            (∃ b ∈ label, b.toNat < 0x20 ∨ 0x7E < b.toNat) ∨ 1 < chase ∨
            chase = 1 ∧ ∀ t, trigger ≠ .time t) →
          exec (.cueAdd h screen trigger action chase label) s =
            .next (s.refusing (.cueAdd h screen trigger action chase label) h 36 .range)) ∧
        (∀ g a, readCueTrigger trigger = some g → readCueAction action = some a → label.length ≤ 12 →
          (∀ b ∈ label, 0x20 ≤ b.toNat ∧ b.toNat ≤ 0x7E) → (chase = 0 ∨ chase = 1 ∧ ∃ t, trigger = .time t) →
          ((∀ e, (s.pool.get e).isSome = true) →
            exec (.cueAdd h screen trigger action chase label) s =
              .next (s.refusing (.cueAdd h screen trigger action chase label) h 36 .noroom)) ∧
          (∀ e, CueLaw s → s.pool.get e = none → (∀ e', e' < e → (s.pool.get e').isSome = true) →
            ∃ c lists, exec (.cueAdd h screen trigger action chase label) s =
                .next (({ s.taking (.cueAdd h screen trigger action chase label) h with
                  pool := s.pool.set e (some c), cues := s.cues.modify n lists } : State).answering h
                  (doneAnswer h 36 (g.clamped || a.clamped)
                    [fieldNat 2 (number e), fieldCond 1 (c.state.map CueState.code)])) ∧
              c.screen = n ∧ c.trigger = g.value ∧ c.action = a.value ∧ c.chase = decide (chase = 1) ∧
              c.label = label ∧
              (∀ t, g.value = .time t → c.state =
                if ((s.screens.get n).state = .show ∨ (s.screens.get n).state = .paused) ∧
                    (∃ k, (s.cues.get n).clock = some k ∧ t ≤ k) then some .skipped else some .armed) ∧
              (c.trigger.isTime = false → c.state = none ∧
                ∀ x, lists x = { x with eventList := x.eventList ++ [e] }) ∧
              (∀ t, g.value = .time t →
                lists (s.cues.get n) =
                  { s.cues.get n with
                    timeList :=
                      ((s.cues.get n).timeList.filter fun x => decide (s.cueTime x ≤ t)) ++
                        e :: (s.cues.get n).timeList.filter fun x => decide (t < s.cueTime x) }))))) ∧
    (∀ entry, s.ready (.cueRemove h screen entry) h 37 →
      ((s.screens.get n).holder ≠ some h.station → roleOf h.station ≠ .management →
        exec (.cueRemove h screen entry) s = .next (s.refusing (.cueRemove h screen entry) h 37 .held)) ∧
      (((s.screens.get n).holder = some h.station ∨ roleOf h.station = .management) →
        ((∀ e, ident 512 entry = some e → e ∉ (s.cues.get n).timeList ∧ e ∉ (s.cues.get n).eventList) →
          exec (.cueRemove h screen entry) s = .next (s.refusing (.cueRemove h screen entry) h 37 .range)) ∧
        (∀ e, ident 512 entry = some e → (e ∈ (s.cues.get n).timeList ∨ e ∈ (s.cues.get n).eventList) →
          exec (.cueRemove h screen entry) s =
            .next (({ s.taking (.cueRemove h screen entry) h with
              pool := s.pool.set e none,
              cues := s.cues.modify n fun x =>
                { x with
                  timeList := x.timeList.filter (· ≠ e), eventList := x.eventList.filter (· ≠ e) } } : State).answering h
              (doneAnswer h 37 false []))))) ∧
    (s.ready (.cueClear h screen) h 38 →
      ((s.screens.get n).holder ≠ some h.station → roleOf h.station ≠ .management →
        exec (.cueClear h screen) s = .next (s.refusing (.cueClear h screen) h 38 .held)) ∧
      (((s.screens.get n).holder = some h.station ∨ roleOf h.station = .management) →
        ((s.screens.get n).state = .show →
          exec (.cueClear h screen) s = .next (s.refusing (.cueClear h screen) h 38 .state)) ∧
        ((s.screens.get n).state ≠ .show → ∃ p, exec (.cueClear h screen) s =
            .next (({ s.taking (.cueClear h screen) h with
              pool := p, cues := s.cues.modify n fun x => { x with timeList := [], eventList := [] } } : State).answering h
              (doneAnswer h 38 false
                [fieldNat 2 ((s.cues.get n).timeList.length + (s.cues.get n).eventList.length)])) ∧
          ∀ e, p.get e =
            if e ∈ (s.cues.get n).timeList ∨ e ∈ (s.cues.get n).eventList then none else s.pool.get e)))

/-- A firing does the entry's action, marks a TIME entry FIRED, stores the last fired entry and sends its notice, and
is not made while EVAC is active. Time processing: in a normal advance the ARMED entries between the clock and the time
fire; in a forward jump those with chase fire and the others are skipped; in a backward jump the entries above the time
are re-armed, with one notice, and the chase entries at or below it fire again; the clock becomes the time before any
of it, and all go in list order. A word accepted in SHOW makes the time processing, then fires the CALL entries of a
cue call that has changed and is not 0; in every state it stores the cue call. The start processing arms every TIME
entry, takes those at or below the time as a forward jump, and then fires the STATE START entries. A raise of an alarm
fires its ALARM entries in SHOW alone. A block event of a LOCKED lane, a start and an interval event do so (09 R158,
R159, R160, R161, R162, R163, R164; the order of a word's readers is log 7's; the order in which several screens are
judged, and that of the ALARM notice and the CUE notices of a raise and of the notices of an automatic start
(`ScreenTakes`), log 6's; and the notice of a start that was refused log 23's). -/
def Obligations.CuesFireByTime : Prop :=
  (∀ (e : Fin 512) (s : State), s.evac = true → fire e s = s) ∧
  (∀ (e : Fin 512) (c : Cue) (s : State), s.evac = false → s.pool.get e = some c →
    fire e s =
      ({ perform c.screen c.action s with
        pool := s.pool.set e (some (if c.trigger.isTime = true then { c with state := some .fired } else c)),
        cues := s.cues.modify c.screen fun x => { x with lastFired := number e } } : State).notify
        (.cue c.screen (.fired e (if c.trigger.isTime = true then { c with state := some .fired } else c))
          (s.cues.get c.screen).clock)) ∧
  (∀ (n : Fin 12) (s : State),
    (∀ l, perform n (.lineOn l) s = s.modLine n l fun x => { x with commanded := true, pulse := 0, counted := false }) ∧
    (∀ l, perform n (.lineOff l) s = s.modLine n l fun x => { x with commanded := false, pulse := 0, counted := false }) ∧
    (∀ l k, perform n (.linePulse l k) s = s.modLine n l fun x => { x with commanded := true, pulse := k, counted := false }) ∧
    (∀ v, perform n (.houseLevel v) s =
      s.modScreen n fun c => if c.state = .show then { c with level := min v 100 } else c) ∧
    perform n .noticeOnly s = s) ∧
  (∀ (n : Fin 12) (trigger : Trigger) (s : State),
    (s.triggered n trigger).Sublist (s.cues.get n).eventList ∧
    ∀ e, e ∈ s.triggered n trigger ↔
      e ∈ (s.cues.get n).eventList ∧ ∃ c, s.pool.get e = some c ∧ c.trigger = trigger) ∧
  -- time processing
  (∀ (n : Fin 12) (clock time : Nat) (s t : State) (list back : List (Fin 512)), list = (s.cues.get n).timeList →
    (s.cues.get n).clock = some clock → t = s.modCues n (fun x => { x with clock := some time }) →
    (clock ≤ time →
      processTime n time s = overList (advanceEntry (decide (clock + 2 < time)) (some clock) time) list t) ∧
    (time < clock → back = list.filter (s.rearms time) →
      processTime n time s = overList (chaseEntry time) list
        ((overList rearm back t).notify (.cue n (.rearmed clock time back.length) (some time))))) ∧
  (∀ (time : Nat) (e : Fin 512) (s : State), s.rearms time e = true ↔
    ∃ c t, s.pool.get e = some c ∧ c.trigger = .time t ∧ time < t ∧
      (c.state = some .fired ∨ c.state = some .skipped)) ∧
  (∀ (jump : Bool) (low t time : Nat) (e : Fin 512) (c : Cue) (s : State), s.pool.get e = some c →
    c.trigger = .time t →
    advanceEntry jump (some low) time e s =
      (if c.state = some .armed ∧ low < t ∧ t ≤ time then
        (if jump = true ∧ c.chase = false then skip e s else fire e s)
      else s) ∧
    chaseEntry time e s = if c.chase = true ∧ t ≤ time then fire e s else s) ∧
  (∀ f s, overList (α := Fin 512) f [] s = s) ∧
  (∀ f e l s, overList (α := Fin 512) f (e :: l) s = overList f l (f e s)) ∧
  -- an accepted word
  (∀ (n : Fin 12) (w : SideWord) (s : State), (s.screens.get n).state ≠ .show →
    takeWord n w s = s.modCues n fun x => { x with lastCall := w.cueCall }) ∧
  (∀ (n : Fin 12) (w : SideWord) (s u : State), (s.screens.get n).state = .show →
    u = processTime n (min w.time 2073599) s →
    ((w.cueCall = (s.cues.get n).lastCall ∨ w.cueCall = 0) →
      takeWord n w s = u.modCues n fun x => { x with lastCall := w.cueCall }) ∧
    (w.cueCall ≠ (s.cues.get n).lastCall → w.cueCall ≠ 0 →
      takeWord n w s = (overList fire (u.triggered n (.call w.cueCall)) u).modCues n fun x =>
        { x with lastCall := w.cueCall })) ∧
  (∀ (n : Fin 12) (clock time : Nat) (s : State), CueLaw s → s.evac = false → (s.cues.get n).clock = some clock →
    ((processTime n time s).cues.get n).clock = some time ∧
    ∀ e c t, e ∈ (s.cues.get n).timeList → s.pool.get e = some c → c.trigger = .time t →
      ∃ d, (processTime n time s).pool.get e = some d ∧ d = { c with state := d.state } ∧
        (clock ≤ time → time ≤ clock + 2 →
          d.state = if c.state = some .armed ∧ clock < t ∧ t ≤ time then some .fired else c.state) ∧
        (clock + 2 < time →
          d.state =
            if c.state = some .armed ∧ clock < t ∧ t ≤ time then (if c.chase = true then some .fired else some .skipped)
            else c.state) ∧
        (time < clock →
          d.state =
            if time < t then
              (if c.state = some .fired ∨ c.state = some .skipped then some .armed else c.state)
            else if c.chase = true then some .fired else c.state)) ∧
  (∀ (n : Fin 12) (b : LaneBlock) (since : Nat) (w : SideWord) (s x : State),
    (s.lanes.get (programLane n)).sync = .locked → goodBlock b.side = true → w = readSideWord b.side →
    x = s.modLane (programLane n) (fun l =>
      { l.write b.frames with skew := some (since % 48), accepted := some w }) →
    (∃ z, ScreenTakes n w x z ∧
      exec (.laneBlockEvent (programLane n) b since false) s = .next (takeWord n w (routed n w z))) ∧
    ∃ z, ScreenTakes n w (takeWord n w (routed n w x)) z ∧
      exec (.laneBlockEvent (programLane n) b since true) s = .next z) ∧
  -- a start
  (∀ (n : Fin 12) (event : CueEvent) (s : State),
    fireState n event s = overList fire (s.triggered n (.state event)) s) ∧
  (∀ (n : Fin 12) (w : SideWord) (s : State), (s.lanes.get (programLane n)).accepted = some w →
    startCues n s = fireState n .start
      (overList (advanceEntry true none (min w.time 2073599)) (s.cues.get n).timeList
        ((overList rearm (s.cues.get n).timeList s).modCues n fun x =>
          { x with clock := some (min w.time 2073599), lastCall := w.cueCall }))) ∧
  (∀ (e : Fin 512) (c : Cue) (t time : Nat) (s : State), s.pool.get e = some c → c.trigger = .time t →
    rearm e s = { s with pool := s.pool.set e (some { c with state := some .armed }) } ∧
    skip e s = ({ s with pool := s.pool.set e (some { c with state := some .skipped }) } : State).notify
      (.cue c.screen (.skipped e { c with state := some .skipped }) (s.cues.get c.screen).clock) ∧
    advanceEntry true none time e s =
      if c.state = some .armed ∧ t ≤ time then (if c.chase = true then fire e s else skip e s) else s) ∧
  (∀ (h : Header) (screen : Nat) (n : Fin 12) (w : SideWord) (s : State), ident 12 screen = some n →
    s.ready (.start h screen) h 6 → (s.screens.get n).holder = some h.station → (s.screens.get n).state = .armed →
    s.evac = false → (s.lanes.get (programLane n)).delivering = true →
    ((candidate n .show (some h.station) s).allot.get n).status ≠ .suspended →
    (s.lanes.get (programLane n)).accepted = some w → CueLaw s →
    ∃ t, exec (.start h screen) s = .next t ∧
      ∀ e c time, e ∈ (s.cues.get n).timeList → s.pool.get e = some c → c.trigger = .time time →
        t.pool.get e = some { c with
          state :=
            if time ≤ min w.time 2073599 then (if c.chase = true then some .fired else some .skipped)
            else some .armed }) ∧
  -- a raise
  (∀ (n : Fin 12) (k : AlarmKind) (s : State),
    ((s.screens.get n).state = .show → fireAlarm n k s = overList fire (s.triggered n (.alarm k)) s) ∧
    ((s.screens.get n).state ≠ .show → fireAlarm n k s = s)) ∧
  (∀ (n : Fin 12) (before a : Alarms) (g : Gathered) (k : AlarmKind) (r : AlarmRecord) (s : State) (event : AlarmEvent),
    a = s.alarms.get n → r = a.records.get k.ix →
    event = (alarmStep before.settings.raiseHold before.settings.clearHold
      (condition g before.settings (silenceStep g before.settings before.silenceRun) k)
      (before.records.get k.ix).state (before.records.get k.ix).phase).2.2 →
    (event = .none → announce n before g k s = s) ∧
    (event = .raise → announce n before g k s = fireAlarm n k ((indicate n k s).notify
      (.alarm n k .raise r.state (before.records.get k.ix).state r.raises r.lastShow r.detail a.attention))) ∧
    (event = .clear → announce n before g k s = s.notify
      (.alarm n k .clear r.state (before.records.get k.ix).state r.raises r.lastShow r.detail a.attention))) ∧
  (∀ (slips : Fin 14 → Nat) (n : Fin 12) (s : State),
    judgeScreen slips n s =
      overList (announce n (s.alarms.get n) (s.gather slips n)) AlarmKind.all
        (s.modAlarms n (Alarms.judge (s.gather slips n)))) ∧
  ∀ s : State, s.blockCount + 1 = 1024 → s.intervalTaken = false → ∃ t, exec .intervalEvent s = .next t ∧
    ∀ j, j = overScreens (judgeScreen fun l => (s.lanes.get l).intervalSlips)
        (clearSlips (closeIntervals { ensureClosed s with blockCount := 0, intervalTaken := true })) →
      t.cues = j.cues ∧ t.pool = j.pool ∧ t.booth = j.booth ∧ t.screens = j.screens ∧ t.alarms = j.alarms

/-- LINE SET commands a line ON, OFF or a pulse, its length clamped into 1 to 65,535; LINE EVAC SET stores an evacuation
setting; on a screen out of range each is refused with RANGE; the end of a pulse commands its line OFF, and one that is
not due changes nothing. The line's output value is formed again each time. A pulse remaining falls by one at each house
block (09 R165, R166, R167; the end of a pulse taken by its own command is the model's, log 2, and so are the codes of
the evacuation settings, NONE 0, ON 1, OFF 2, log 40). -/
def Obligations.LinesAndPulses : Prop :=
  (∀ (h : Header) (screen line : Nat) (s : State), (screen = 0 ∨ 12 < screen) →
    (∀ command, s.ready (.lineSet h screen line command) h 40 →
      exec (.lineSet h screen line command) s = .next (s.refusing (.lineSet h screen line command) h 40 .range)) ∧
    (∀ setting, s.ready (.lineEvacSet h screen line setting) h 41 →
      exec (.lineEvacSet h screen line setting) s =
        .next (s.refusing (.lineEvacSet h screen line setting) h 41 .range))) ∧
  (∀ (h : Header) (screen line : Nat) (n : Fin 12) (s : State), ident 12 screen = some n →
    (∀ command, s.ready (.lineSet h screen line command) h 40 →
      ((s.screens.get n).holder ≠ some h.station → roleOf h.station ≠ .management →
        exec (.lineSet h screen line command) s = .next (s.refusing (.lineSet h screen line command) h 40 .held)) ∧
      (((s.screens.get n).holder = some h.station ∨ roleOf h.station = .management) →
        ((line = 0 ∨ 8 < line) →
          exec (.lineSet h screen line command) s = .next (s.refusing (.lineSet h screen line command) h 40 .range)) ∧
        (∀ l value pulse clamped, ident 8 line = some l →
          (command = .on ∧ value = true ∧ pulse = 0 ∧ clamped = false ∨
            command = .off ∧ value = false ∧ pulse = 0 ∧ clamped = false ∨
            ∃ k, command = .pulse k ∧ value = true ∧ pulse = max 1 (min k 65535) ∧
              clamped = decide (k = 0 ∨ 65535 < k)) →
          ∃ t : State, exec (.lineSet h screen line command) s =
              .next (t.answering h (doneAnswer h 40 clamped [])) ∧
            t = { s.taking (.lineSet h screen line command) h with booth := t.booth } ∧
            ∀ m k, t.line m k =
              if m = n ∧ k = l then
                { s.line n l with
                  commanded := value, pulse := pulse, counted := false,
                  output :=
                    if s.evac = true ∧ (s.line n l).setting = .on then true
                    else if s.evac = true ∧ (s.line n l).setting = .off then false else value }
              else s.line m k))) ∧
    (∀ setting, s.ready (.lineEvacSet h screen line setting) h 41 →
      ((line = 0 ∨ 8 < line ∨ 2 < setting) →
        exec (.lineEvacSet h screen line setting) s =
          .next (s.refusing (.lineEvacSet h screen line setting) h 41 .range)) ∧
      (∀ l e, ident 8 line = some l → (setting = 0 ∧ e = .none ∨ setting = 1 ∧ e = .on ∨ setting = 2 ∧ e = .off) →
        ∃ t : State, exec (.lineEvacSet h screen line setting) s =
            .next (t.answering h (doneAnswer h 41 false [])) ∧
          t = { s.taking (.lineEvacSet h screen line setting) h with booth := t.booth } ∧
          ∀ m k, t.line m k =
            if m = n ∧ k = l then
              { s.line n l with
                setting := e,
                output :=
                  if s.evac = true ∧ e = .on then true
                  else if s.evac = true ∧ e = .off then false else (s.line n l).commanded }
            else s.line m k))) ∧
  (∀ (n : Fin 12) (l : Fin 8) (s : State),
    (¬((s.line n l).pulse = 1 ∧ (s.line n l).counted = false) → exec (.pulseEnd n l) s = .next s) ∧
    ((s.line n l).pulse = 1 → (s.line n l).counted = false →
      exec (.pulseEnd n l) s =
        .next (s.modLine n l fun x => { x with commanded := false, pulse := 0, counted := true }))) ∧
  (∀ x : BoothLine,
    (x.counted = true → x.tick = { x with counted := false }) ∧
    (x.counted = false → x.pulse = 0 → x.tick = x) ∧
    (x.counted = false → x.pulse = 1 → x.tick = { x with commanded := false, pulse := 0 }) ∧
    (∀ k, x.counted = false → x.pulse = k + 2 → x.tick = { x with pulse := k + 1 })) ∧
  (∀ (n : Fin 12) (l : Fin 8) (s : State), (tickLines s).line n l =
    { (s.line n l).tick with output := (s.line n l).tick.shown s.evac })

/-! ### Calibration -/

/-- TONE sets or clears the tone flags of its target and stores a carried tone gain, clamped into -40 to 0; MEASURE
begins a measurement in WAIT with the tone flags of the screen cleared; ABORT ends one; MIC SET stores the microphone
offset or answers it. Each request is refused by its own checks in order, the first of which is RANGE on a screen out
of range. The target is the output that the request names, where it is mapped to the screen, or the mark REFERENCE,
which names no output; another output is refused with RANGE. The outputs of a target are the one it names, or for
REFERENCE the screen's outputs of role L, C or R, in ascending order. An abort sends the MEASURE notice, returns the
context to its reset values and clears the tone flags of the screen (03 R52, 10 R171, R172, R175, R176; that a TONE
action of 0 is SET and 1 CLEAR is log 11's, and that a code above 1 is refused with RANGE log 13's). -/
def Obligations.CalibrationRequests : Prop :=
  (∀ (cause : AbortCause) (s : State),
    ((s.context.phase = .idle ∨ s.context.screen = none ∨ s.context.target = none) → abortMeasurement cause s = s) ∧
    (∀ n g, s.context.phase ≠ .idle → s.context.screen = some n → s.context.target = some g →
      abortMeasurement cause s =
        ({ s with
            outputs := s.outputs.map fun o => if o.screen = some n then { o with toneFlag := false } else o,
            context := Context.reset } : State).notify
          (.measure n g (.aborted cause s.context.phase s.context.background)))) ∧
  (∀ (s : State) (n : Fin 12),
    (∀ o, s.targetOutputs n (.output o) = [o]) ∧
    s.targetOutputs n .reference = (List.finRange 192).filter fun o =>
      decide ((s.outputs.get o).place = some (n, .l) ∨ (s.outputs.get o).place = some (n, .c) ∨
        (s.outputs.get o).place = some (n, .r))) ∧
  (∀ (h : Header) (screen : Nat) (s : State), (screen = 0 ∨ 12 < screen) →
    (∀ target action gain, s.ready (.tone h screen target action gain) h 43 →
      exec (.tone h screen target action gain) s = .next (s.refusing (.tone h screen target action gain) h 43 .range)) ∧
    (∀ target, s.ready (.measure h screen target) h 44 →
      exec (.measure h screen target) s = .next (s.refusing (.measure h screen target) h 44 .range)) ∧
    (s.ready (.abort h screen) h 45 →
      exec (.abort h screen) s = .next (s.refusing (.abort h screen) h 45 .range))) ∧
  ∀ (h : Header) (screen : Nat) (n : Fin 12) (s : State), ident 12 screen = some n →
    s.readTarget n none = some .reference ∧
    (∀ k o, k = o.val + 1 → (s.outputs.get o).screen = some n → s.readTarget n (some k) = some (.output o)) ∧
    (∀ target,
      (s.readTarget n target = none ↔ ∃ k, target = some k ∧
        ∀ o : Fin 192, k = o.val + 1 → (s.outputs.get o).screen ≠ some n)) ∧
    (∀ target action gain, s.ready (.tone h screen target action gain) h 43 →
      ((s.readTarget n target = none ∨ 1 < action) →
        exec (.tone h screen target action gain) s = .next (s.refusing (.tone h screen target action gain) h 43 .range)) ∧
      (∀ g why, s.readTarget n target = some g → action ≤ 1 →
        ((s.screens.get n).holder ≠ some h.station ∧ why = .held ∨
          (s.screens.get n).holder = some h.station ∧ (s.screens.get n).state ≠ .calibrating ∧ why = .state ∨
          (s.screens.get n).holder = some h.station ∧ (s.screens.get n).state = .calibrating ∧ s.evac = true ∧
            why = .evac ∨
          (s.screens.get n).holder = some h.station ∧ (s.screens.get n).state = .calibrating ∧ s.evac = false ∧
            s.context.phase ≠ .idle ∧ s.context.screen = some n ∧ why = .busy) →
        exec (.tone h screen target action gain) s = .next (s.refusing (.tone h screen target action gain) h 43 why)) ∧
      (∀ g, s.readTarget n target = some g → action ≤ 1 → (s.screens.get n).holder = some h.station →
        (s.screens.get n).state = .calibrating → s.evac = false →
        (s.context.phase = .idle ∨ s.context.screen ≠ some n) →
        ∃ t : State, exec (.tone h screen target action gain) s =
            .next (t.answering h (doneAnswer h 43 (gain.any fun v => decide (v < -40 ∨ 0 < v)) [])) ∧
          t = { s.taking (.tone h screen target action gain) h with
            outputs := t.outputs, toneGain := (gain.map fun v => max (-40) (min v 0)).getD s.toneGain } ∧
          ∀ o, t.outputs.get o =
            if o ∈ s.targetOutputs n g then { s.outputs.get o with toneFlag := decide (action = 0) }
            else s.outputs.get o)) ∧
    (∀ target, s.ready (.measure h screen target) h 44 →
      (s.readTarget n target = none →
        exec (.measure h screen target) s = .next (s.refusing (.measure h screen target) h 44 .range)) ∧
      (∀ g why, s.readTarget n target = some g →
        ((s.screens.get n).holder ≠ some h.station ∧ why = .held ∨
          (s.screens.get n).holder = some h.station ∧
            ((s.screens.get n).state ≠ .calibrating ∧ why = .state ∨
            (s.screens.get n).state = .calibrating ∧
              (s.context.phase ≠ .idle ∧ why = .busy ∨
              s.context.phase = .idle ∧
                (s.evac = true ∧ why = .evac ∨
                s.evac = false ∧
                  ((s.lanes.get 13).sync ≠ .locked ∧ why = .lane ∨
                  (s.lanes.get 13).sync = .locked ∧
                    ((s.grants.get n).status = .suspended ∧ why = .nopower ∨
                    (s.grants.get n).status ≠ .suspended ∧
                      (s.targetOutputs n g = [] ∨ ∃ o ∈ s.targetOutputs n g,
                        (s.outputs.get o).sense.health.inService = false) ∧ why = .state)))))) →
        exec (.measure h screen target) s = .next (s.refusing (.measure h screen target) h 44 why)) ∧
      (∀ g, s.readTarget n target = some g → (s.screens.get n).holder = some h.station →
        (s.screens.get n).state = .calibrating → s.context.phase = .idle → s.evac = false →
        (s.lanes.get 13).sync = .locked → (s.grants.get n).status ≠ .suspended → s.targetOutputs n g ≠ [] →
        (∀ o ∈ s.targetOutputs n g, (s.outputs.get o).sense.health.inService = true) →
        ∃ t : State, exec (.measure h screen target) s = .next (t.answering h (doneAnswer h 44 false [])) ∧
          t = { s.taking (.measure h screen target) h with
            outputs := t.outputs, measureStepped := false,
            context :=
              { phase := .wait, screen := some n, target := some g, station := some h.station, count := 0, micSum := 0,
                targetSum := 0, background := none } } ∧
          ∀ o, t.outputs.get o =
            if (s.outputs.get o).screen = some n then { s.outputs.get o with toneFlag := false } else s.outputs.get o)) ∧
    (s.ready (.abort h screen) h 45 →
      ((s.screens.get n).holder ≠ some h.station →
        exec (.abort h screen) s = .next (s.refusing (.abort h screen) h 45 .held)) ∧
      ((s.screens.get n).holder = some h.station → (s.context.phase = .idle ∨ s.context.screen ≠ some n) →
        exec (.abort h screen) s = .next (s.refusing (.abort h screen) h 45 .state)) ∧
      (∀ g, (s.screens.get n).holder = some h.station → s.context.phase ≠ .idle → s.context.screen = some n →
        s.context.target = some g →
        ∃ t : State, exec (.abort h screen) s =
            .next ((t.notify (.measure n g (.aborted .abort s.context.phase s.context.background))).answering h
              (doneAnswer h 45 false [])) ∧
          t = { s.taking (.abort h screen) h with outputs := t.outputs, context := Context.reset } ∧
          ∀ o, t.outputs.get o =
            if (s.outputs.get o).screen = some n then { s.outputs.get o with toneFlag := false } else s.outputs.get o)) ∧
    (∀ v, s.ready (.micSet h (some v)) h 46 →
      exec (.micSet h (some v)) s =
        .next (({ s.taking (.micSet h (some v)) h with micOffset := max (-128) (min v 127) } : State).answering h
          (doneAnswer h 46 (decide (v < -128 ∨ 127 < v)) []))) ∧
    (s.ready (.micSet h none) h 46 →
      exec (.micSet h none) s = .next (s.replying (.micSet h none) h (doneAnswer h 46 false [.num 1 s.micOffset])))

/-- The phases of a measurement, when the interval event that ends one is due: WAIT to QUIET, QUIET to SETTLE with the
background formed and the target's tone flags set, SETTLE to MEASURE, and the result of MEASURE, OK or NOISY, with the
sensitivity stored for OK, the context at its reset values and the screen's tone flags cleared. A phase that is not due
changes nothing. The outputs of the target REFERENCE are the screen's outputs of role L, C or R (03 R52, 10 R173, R174;
that a phase's end has a command of its own, and that the block closes first, are the model's, log 2). -/
def Obligations.MeasurementPhases : Prop :=
  (∀ s : State, (s.blockClosed = true → ensureClosed s = s) ∧
    (s.blockClosed = false → ensureClosed s = { closeBlock s with blockClosed := true })) ∧
  (∀ (s : State) (n : Fin 12),
    (∀ o, s.targetOutputs n (.output o) = [o]) ∧
    s.targetOutputs n .reference = (List.finRange 192).filter fun o =>
      decide ((s.outputs.get o).place = some (n, .l) ∨ (s.outputs.get o).place = some (n, .c) ∨
        (s.outputs.get o).place = some (n, .r))) ∧
  ∀ (s u : State), u = ensureClosed s →
    (s.phaseDue = true ↔ s.blockCount + 1 = 1024 ∧ s.intervalTaken = false ∧ s.measureStepped = false ∧
      (s.context.phase = .wait ∧ 1 ≤ s.context.count + 1 ∨ s.context.phase = .quiet ∧ 2 ≤ s.context.count + 1 ∨
        s.context.phase = .settle ∧ 1 ≤ s.context.count + 1 ∨ s.context.phase = .measure ∧ 4 ≤ s.context.count + 1)) ∧
    ((s.phaseDue = false ∨ s.context.phase = .measure) → exec .measurePhaseEnd s = .next s) ∧
    ((s.phaseDue = false ∨ s.context.phase ≠ .measure) → exec .measurementResult s = .next s) ∧
    (s.phaseDue = true → s.context.phase = .wait →
      exec .measurePhaseEnd s =
        .next { u with context := { u.context with phase := .quiet, count := 0 }, measureStepped := true }) ∧
    (s.phaseDue = true → s.context.phase = .settle →
      exec .measurePhaseEnd s =
        .next { u with context := { u.context with phase := .measure, count := 0 }, measureStepped := true }) ∧
    (∀ n g, s.phaseDue = true → s.context.phase = .quiet → s.context.screen = some n → s.context.target = some g →
      ∃ t, exec .measurePhaseEnd s = .next t ∧
        t = { u with
          outputs := t.outputs, measureStepped := true,
          context :=
            { u.context with
              phase := .settle, count := 0, micSum := 0, background := some (lvl u.context.micSum - 66) } } ∧
        ∀ o, t.outputs.get o =
          if o ∈ s.targetOutputs n g then { u.outputs.get o with toneFlag := true } else u.outputs.get o) ∧
    (∀ n g m o b, s.phaseDue = true → s.context.phase = .measure → s.context.screen = some n →
      s.context.target = some g → m = lvl u.context.micSum - 72 → o = lvl u.context.targetSum - 72 →
      s.context.background = some b →
      ∃ t : State, (∀ x, t.outputs.get x =
          if (s.outputs.get x).screen = some n then { u.outputs.get x with toneFlag := false } else u.outputs.get x) ∧
        t = { u with outputs := t.outputs, context := Context.reset } ∧
        (m < b + 20 →
          exec .measurementResult s =
            .next { t.notify (.measure n g (.noisy b m o)) with measureStepped := true }) ∧
        (b + 20 ≤ m → ∀ spl sensitivity : Int,
          spl = max 0 (min (m + s.micOffset) 255) → sensitivity = max (-128) (min (spl - o) 127) →
          (g = .reference →
            exec .measurementResult s =
              .next { (t.modMeter n fun x => { x with offset := sensitivity }).notify
                (.measure n g (.ok b m o spl.toNat sensitivity)) with measureStepped := true }) ∧
          (∀ y, g = .output y →
            exec .measurementResult s =
              .next { (t.modOutput y fun x => { x with sensitivity := some sensitivity }).notify
                (.measure n g (.ok b m o spl.toNat sensitivity)) with measureStepped := true })))

/-! ### The laws of the part -/

/-- Right after reset every law holds, with the site lines inactive (log 9). -/
def Obligations.LawsAtReset : Prop :=
  HoldingLaw State.reset ∧ EvacLaw State.reset ∧ StampLaw State.reset ∧ PowerLaw State.reset ∧ BoothLaw State.reset ∧
    QueueLaw State.reset ∧ CueLaw State.reset ∧ PageLaw State.reset ∧ CalibrationLaw State.reset ∧
    SenseLaw State.reset ∧ LaneLaw State.reset ∧ MeterLaw State.reset

/-- Every step keeps the law of holding and, with EVAC active, has no screen in SHOW, PAUSED or ENDING
(01 R3, R22). -/
def Obligations.HoldingAndEvacLawsKept : Prop :=
  ∀ s t, HoldingLaw s → EvacLaw s → step s = .next t → HoldingLaw t ∧ EvacLaw t

/-- Every step keeps the law of the start stamps: a screen holds one exactly while it demands, and no two the same. The
stamps that two screens hold before and after a step keep their order, and a stamp newly taken is larger than every
stamp held through the step. A screen takes the counter's next value; at the counter's end, 4,294,967,295, the stamps
held are first renumbered from 1 in their order, and the counter takes their number. A screen that enters demand takes a
stamp, its new state and its holder (01 R11, 08 R143, R146). -/
def Obligations.StampLawKept : Prop :=
  (∀ s t, StampLaw s → step s = .next t → StampLaw t ∧
    (∀ n m, (s.screens.get n).stamp ≠ 0 → (s.screens.get m).stamp ≠ 0 → (t.screens.get n).stamp ≠ 0 →
      (t.screens.get m).stamp ≠ 0 →
      ((t.screens.get n).stamp < (t.screens.get m).stamp ↔ (s.screens.get n).stamp < (s.screens.get m).stamp)) ∧
    (∀ n m, (s.screens.get n).stamp ≠ 0 → (t.screens.get n).stamp ≠ 0 → (s.screens.get m).stamp = 0 →
      (t.screens.get m).stamp ≠ 0 → (t.screens.get n).stamp < (t.screens.get m).stamp)) ∧
  (∀ (n : Fin 12) (s : State),
    (s.stampCounter ≠ 4294967295 →
      takeStamp n s = { s with
        stampCounter := s.stampCounter + 1,
        screens := s.screens.modify n fun c => { c with stamp := s.stampCounter + 1 } }) ∧
    (s.stampCounter = 4294967295 → takeStamp n s = takeStamp n (renumber s))) ∧
  (∀ s : State,
    (∀ n, (renumber s).screens.get n =
      { s.screens.get n with
        stamp :=
          if (s.screens.get n).stamp = 0 then 0
          else ((List.finRange 12).filter fun m =>
            decide ((s.screens.get m).stamp ≠ 0 ∧ (s.screens.get m).stamp < (s.screens.get n).stamp)).length + 1 }) ∧
    renumber s = { s with
      screens := (renumber s).screens,
      stampCounter := ((List.finRange 12).filter fun n => decide ((s.screens.get n).stamp ≠ 0)).length }) ∧
  (∀ (n : Fin 12) (state : ShowState) (holder : Option (Fin 16)) (s : State),
    candidate n state holder s = (takeStamp n s).modScreen n fun c => { c with state, holder })

/-- Every step keeps the grants within the available draw, with grant 0 outside demand. The computation itself: A is
the bank of the supply state less the reserve; a demander asks for its draws, a CALIBRATING one for its reduced draw
alone; the demanders are ranked by priority and then by stamp; pass 1 grants reduced draws until one does not fit; pass
2 raises those granted, in rank, where the rest of the available draw covers the difference. A recompute gives every
screen its result, counts its entries into SHED and SUSPENDED with the last change, sends a POWER notice where its
status changes, screen by screen in ascending order, and then hands the newly SUSPENDED calibrations on: a measurement
in flight on such a screen is aborted with POWER and its MEASURE notice (abortMeasurement: CalibrationRequests), and
the tone flags of the screen's outputs are cleared (08 R141, R143, R144, R147, R148, 10 R171, R175). That every POWER
notice goes before the MEASURE notice of the abort is the model's order, log 6. -/
def Obligations.PowerLawKept : Prop :=
  (∀ s t, PowerLaw s → step s = .next t → PowerLaw t) ∧
  (∀ b : Budget, b.available =
    (if b.supply = .mains then b.mains else if b.supply = .generator then b.generator
    else if b.supply = .battery then b.battery else b.batteryLow) - b.reserve) ∧
  (∀ (n : Fin 12) (c : Screen) (d : Demand), c.demand n = some d ↔
    (c.state = .show ∨ c.state = .paused ∨ c.state = .ending ∨ c.state = .calibrating) ∧
    d = { screen := n, priority := c.config.priority, stamp := c.stamp, reduced := c.config.reducedDraw,
          full := if c.state = .calibrating then c.config.reducedDraw else c.config.fullDraw }) ∧
  (∀ s : State,
    s.ranked.Perm ((List.finRange 12).filterMap fun n => (s.screens.get n).demand n) ∧
    s.ranked.Pairwise fun a b => a.priority < b.priority ∨ a.priority = b.priority ∧ a.stamp ≤ b.stamp) ∧
  (∀ available total, passOne available total [] = []) ∧
  (∀ available total d rest, passOne available total (d :: rest) =
    if total + d.reduced ≤ available then d :: passOne available (total + d.reduced) rest else []) ∧
  (∀ left, passTwo left [] = []) ∧
  (∀ left d rest, passTwo left (d :: rest) =
    if d.full - d.reduced ≤ left then (d, true) :: passTwo (left - (d.full - d.reduced)) rest
    else (d, false) :: passTwo left rest) ∧
  (∀ (s : State) (first : List Demand) (granted : List (Demand × Bool)),
    first = passOne s.budget.available 0 s.ranked →
    granted = passTwo (s.budget.available - (first.map Demand.reduced).sum) first → ∀ n,
    (∀ d, (d, true) ∈ granted → d.screen = n → s.allot.get n = { status := .full, draw := d.full }) ∧
    (∀ d, (d, false) ∈ granted → d.screen = n → s.allot.get n = { status := .shed, draw := d.reduced }) ∧
    ((∀ x ∈ granted, x.1.screen ≠ n) → s.allot.get n =
      { status := if (s.screens.get n).state.demands = true then .suspended else .none, draw := 0 })) ∧
  (∀ f s, overScreens f s = (List.finRange 12).foldl (fun t n => f n t) s) ∧
  (∀ (cause : PowerCause) (s : State),
    recompute cause s = overScreens (handSuspension s.grants) (overScreens (applyAllotment cause s.allot) s)) ∧
  (∀ (cause : PowerCause) (allot : Tab Allotment 12) (n : Fin 12) (s : State) (old : Grant) (a : Allotment),
    old = s.grants.get n → a = allot.get n →
    (old.status = a.status →
      applyAllotment cause allot n s = s.modGrant n fun g => { g with draw := a.draw }) ∧
    (old.status ≠ a.status →
      applyAllotment cause allot n s =
        (s.modGrant n fun g =>
          { status := a.status, draw := a.draw,
            sheds := if a.status = .shed then g.sheds + 1 else g.sheds,
            suspends := if a.status = .suspended then g.suspends + 1 else g.suspends,
            lastChange :=
              if a.status = .shed ∨ a.status = .suspended then
                some { status := a.status, supply := s.budget.supply, available := s.budget.available }
              else g.lastChange }).notify
          (.power n a.status old.status a.draw s.budget.supply s.budget.available cause))) ∧
  (∀ (before : Tab Grant 12) (n : Fin 12) (s : State),
    ((s.screens.get n).state = .calibrating → (s.grants.get n).status = .suspended →
      (before.get n).status ≠ .suspended → handSuspension before n s = suspendCalibration n s) ∧
    (((s.screens.get n).state ≠ .calibrating ∨ (s.grants.get n).status ≠ .suspended ∨
      (before.get n).status = .suspended) → handSuspension before n s = s)) ∧
  (∀ (n : Fin 12) (s x : State),
    x = (if s.context.phase ≠ .idle ∧ s.context.screen = some n then abortMeasurement .power s else s) →
    suspendCalibration n s =
      { x with outputs := x.outputs.map fun o => if o.screen = some n then { o with toneFlag := false } else o })

/-- Every step keeps each booth line at the value it is to show, and the notice and receive queues within their sizes;
and every step keeps every level code from 0 to 245 and every SPL code from 0 to 255, with the bounds of the energies
and sums they are formed from, and no screen with more than 32 outputs, as long as the waiting commands are ones the
outside world can form (03 R48, 05 R98, 09 R166, 11 R182, R186). -/
def Obligations.BoothAndQueueLawsKept : Prop :=
  ∀ s t, step s = .next t →
    (BoothLaw s → QueueLaw s → BoothLaw t ∧ QueueLaw t) ∧ (MeterLaw s → MeterLaw t)

/-- Every step keeps the cue pool and the lists in step, each time list in order (09 R151). -/
def Obligations.CueLawKept : Prop := ∀ s t, CueLaw s → step s = .next t → CueLaw t

/-- Every step keeps each page list and delay line at the length of its effective delay, with no page in two lists and
no BAD page in any; and so the numbers of FREE, IN USE and BAD pages always add up to 4096 (04 R75, R85, R88). -/
def Obligations.PageLawKept : Prop :=
  (∀ s t, PageLaw s → step s = .next t → PageLaw t) ∧
  ∀ s, PageLaw s →
    (s.pagesIn .bad).length = s.badPages.length ∧
    (s.pagesIn .inUse).length = ((List.finRange 192).map fun o => (s.outputs.get o).pages.length).sum ∧
    s.freePages.length + ((List.finRange 192).map fun o => (s.outputs.get o).pages.length).sum +
      s.badPages.length = 4096

/-- Every step keeps a measurement and a tone on CALIBRATING screens (10 R171, R172). -/
def Obligations.CalibrationLawKept : Prop := ∀ s t, CalibrationLaw s → step s = .next t → CalibrationLaw t

/-- Every step keeps the sense thresholds in order and a FAILED SHORT output undriven (07 R129, R132). -/
def Obligations.SenseLawKept : Prop := ∀ s t, SenseLaw s → step s = .next t → SenseLaw t

/-- Every step keeps each lane with what its sync state holds (02 R30 to R37). -/
def Obligations.LaneLawKept : Prop := ∀ s t, LaneLaw s → step s = .next t → LaneLaw t
end

