-- ==== Sys2Proof/Laws/Audio.lean ====
section
/-! SUPPORT. What a run of samples through the path of an output can do (`Output.runPath`, 04 R73 to R77): one tap for each
sample, a delay line of the same length, the same sections, and zeros at a muted gain stage. -/

namespace Sys2Proof.Machine

theorem runSection_length (c : Section) (h : History) (xs : List Int) : (runSection c h xs).1.length = xs.length := by
  induction xs generalizing h with
  | nil => rfl
  | cons x xs ih => simp [runSection, ih]

theorem runSections_length (path : List PathSection) (xs : List Int) : (runSections path xs).1.length = xs.length := by
  induction path generalizing xs with
  | nil => rfl
  | cons p rest ih => simp [runSections, ih, runSection_length]

/-- The sections keep their coefficients: a run moves only their histories. -/
theorem runSections_coef (path : List PathSection) (xs : List Int) :
    (runSections path xs).2.1.map PathSection.coef = path.map PathSection.coef := by
  induction path generalizing xs with
  | nil => rfl
  | cons p rest ih => simp [runSections, ih]

theorem runDelay_length (line xs : List Int) :
    (runDelay line xs).1.length = xs.length ∧ (runDelay line xs).2.length = line.length := by
  simp [runDelay]

theorem runGain_length (step : Option Int) (xs : List Int) : (runGain step xs).1.length = xs.length := by
  cases step <;> simp [runGain]

/-- A saturated value is a sample of 24 bits. -/
theorem sat24_sample (x : Int) : -8388608 ≤ sat24 x ∧ sat24 x ≤ 8388607 := by
  unfold sat24
  split_ifs <;> omega

theorem runGain_sample (step : Option Int) (xs : List Int) :
    ∀ y ∈ (runGain step xs).1, -8388608 ≤ y ∧ y ≤ 8388607 := by
  intro y h
  cases step with
  | none =>
    obtain ⟨_, _, rfl⟩ := List.mem_map.1 h
    exact ⟨by decide, by decide⟩
  | some g =>
    obtain ⟨z, _, rfl⟩ := List.mem_map.1 h
    exact sat24_sample z

/-- A run through a path: one tap of 24 bits for each sample, and the path and the line keep their shape. -/
theorem Output.runPath_shape (step : Option Int) (xs : List Int) (x : Output) :
    (x.runPath step xs).taps.length = xs.length ∧ (∀ y ∈ (x.runPath step xs).taps, -8388608 ≤ y ∧ y ≤ 8388607) ∧
    (x.runPath step xs).line.length = x.line.length ∧
    (x.runPath step xs).path.map PathSection.coef = x.path.map PathSection.coef := by
  refine ⟨?_, runGain_sample _ _, (runDelay_length _ _).2, runSections_coef _ _⟩
  simp [Output.runPath, runGain_length, (runDelay_length _ _).1, runSections_length]

/-- A muted output passes 0 at every sample, whatever the samples are. -/
theorem Output.runPath_muted (xs : List Int) (x : Output) :
    (x.runPath none xs).taps = List.replicate xs.length 0 := by
  refine List.eq_replicate_iff.2 ⟨(x.runPath_shape none xs).1, fun y h => ?_⟩
  obtain ⟨_, _, rfl⟩ := List.mem_map.1 h
  rfl

/-- The source samples beyond the 48th are samples of 24 bits, when those of the tone are. -/
theorem lateSamples_sample {tone : List Int} (h : ∀ y ∈ tone, -8388608 ≤ y ∧ y ≤ 8388607) (draw : Nat) (o : Fin 192)
    (kind : SourceKind) : ∀ y ∈ lateSamples tone draw o kind, -8388608 ≤ y ∧ y ≤ 8388607 := by
  intro y hy
  have free : ∀ i, -8388608 ≤ (Config.lateSource draw o i).toInt ∧ (Config.lateSource draw o i).toInt ≤ 8388607 :=
    fun i => by
      have lo := BitVec.le_toInt (Config.lateSource draw o i)
      have hi := BitVec.toInt_lt (x := Config.lateSource draw o i)
      simp only [Nat.add_one_sub_one, Int.reducePow] at lo hi
      omega
  cases kind with
  | silence =>
    obtain ⟨_, _, rfl⟩ := List.mem_map.1 hy
    exact ⟨by decide, by decide⟩
  | tone => exact h y hy
  | program =>
    obtain ⟨i, _, rfl⟩ := List.mem_mapIdx.1 hy
    exact free i
  | paging =>
    obtain ⟨i, _, rfl⟩ := List.mem_mapIdx.1 hy
    exact free i

theorem lateSamples_length (tone : List Int) (draw : Nat) (o : Fin 192) (kind : SourceKind) :
    (lateSamples tone draw o kind).length = tone.length := by
  cases kind <;> simp [lateSamples]

theorem noiseSamples_length (k : Nat) (r : BitVec 23) : (noiseSamples k r).1.length = k := by
  induction k generalizing r with
  | zero => rfl
  | succ k ih => simp [noiseSamples, ih]

theorem driveOf_length (pilot : Bool) (taps : List Int) : (driveOf pilot taps).length = taps.length := by
  cases pilot <;> simp [driveOf]

/-- A block sends one drive sample in every sample period: as many as the source has, and as many beyond them. -/
theorem runOutput_lengths (sel : Selected) (late : List Int) (comp level applied : Nat) (pilot : Bool) (x : Output) :
    (runOutput sel late comp level applied pilot x).output.drive.length = sel.samples.length ∧
    (runOutput sel late comp level applied pilot x).output.late.length = late.length := by
  simp [runOutput, driveOf_length, (Output.runPath_shape _ _ _).1]

/-- A block keeps the output's record, its place, its health and its pages: what it changes is named here. -/
theorem runOutput_frame (sel : Selected) (late : List Int) (comp level applied : Nat) (pilot : Bool) (x : Output) :
    ∃ p l k d e f, (runOutput sel late comp level applied pilot x).output =
      { x with path := p, line := l, running := k, blockScreen := x.screen, drive := d, late := e, figures := f } := by
  unfold runOutput
  by_cases h : clearsPath sel.reason = true
  · rw [if_pos h]
    exact ⟨_, _, _, _, _, _, rfl⟩
  · rw [if_neg h]
    exact ⟨_, _, _, _, _, _, rfl⟩

/-- A block keeps the coefficients of an output's sections and the length of its delay line. -/
theorem runOutput_shape (x : Output) (sel : Selected) (late : List Int) (comp level applied : Nat) (pilot : Bool) :
    (runOutput sel late comp level applied pilot x).output.path.map PathSection.coef = x.path.map PathSection.coef ∧
    (runOutput sel late comp level applied pilot x).output.line.length = x.line.length := by
  unfold runOutput
  dsimp only
  rw [(Output.runPath_shape _ _ _).2.2.1, (Output.runPath_shape _ _ _).2.2.2]
  split
  · exact ⟨by simp [Output.clearPath, Function.comp_def], by simp [Output.clearPath]⟩
  · exact ⟨rfl, rfl⟩

end Sys2Proof.Machine
end

