-- ==== Sys2Proof/Laws/Codec.lean ====
section
/-! SUPPORT. Side words and sense reports as auxiliary bits: the bits of some bytes spell those bytes, and a return block
spells its return side word (02 R27, R43, 11 R180). Readers of a request's body: what each takes from the bytes that spell
a value, and that bytes behind those a reader takes change nothing (11 R180, R183 check 3). -/

namespace Sys2Proof.Machine

theorem byteOfBits_bits (b : Byte) :
    byteOfBits (b.getLsbD 7) (b.getLsbD 6) (b.getLsbD 5) (b.getLsbD 4) (b.getLsbD 3) (b.getLsbD 2) (b.getLsbD 1)
      (b.getLsbD 0) = b := by
  obtain ⟨i⟩ := b
  revert i
  decide +kernel

/-- The auxiliary bits of some bytes spell those bytes. -/
@[simp] theorem bytesOfAux_auxOfBytes (l : List Byte) : bytesOfAux (auxOfBytes l) = l := by
  induction l with
  | nil => rfl
  | cons b rest ih =>
    have h : auxOfBytes (b :: rest) =
        (b.getLsbD 7, b.getLsbD 6) :: (b.getLsbD 5, b.getLsbD 4) :: (b.getLsbD 3, b.getLsbD 2) ::
          (b.getLsbD 1, b.getLsbD 0) :: auxOfBytes rest := by
      simp [auxOfBytes]
    rw [h, bytesOfAux, byteOfBits_bits, ih]

/-- Two auxiliary bits to a frame, four frames to a byte. -/
theorem auxOfBytes_length (l : List Byte) : (auxOfBytes l).length = 4 * l.length := by
  simp [auxOfBytes, List.length_flatMap]
  omega

/-- A return block carries its return side word. -/
theorem ReturnWord.block_side (w : ReturnWord) : w.block.side = w.bytes := bytesOfAux_auxOfBytes w.bytes

/-- A return side word has its mark and its check. -/
theorem ReturnWord.bytes_good (w : ReturnWord) : goodBlock w.bytes = true := by
  unfold goodBlock ReturnWord.bytes checkHolds
  simp [beBytes, checkBytes, List.range_succ]

/-- The bytes of a return side word before its check, each field at its place in the layout (02 R43, 11 R180). -/
def ReturnWord.spelled (w : ReturnWord) : List Byte :=
  [0xB4#8, BitVec.ofNat 8 w.state.code, if w.attention = true then 1#8 else 0#8, BitVec.ofNat 8 w.status.code,
    BitVec.ofNat 8 w.level, BitVec.ofNat 8 (w.lastFired / 256), BitVec.ofNat 8 w.lastFired, BitVec.ofNat 8 w.applied,
    BitVec.ofNat 8 w.outOfService, 0#8]

theorem ReturnWord.bytes_spelled (w : ReturnWord) : w.bytes = w.spelled ++ checkBytes w.spelled := by
  have hi : BitVec.ofInt 8 ((w.lastFired : Int) / 256 ^ 1) = BitVec.ofNat 8 (w.lastFired / 256) := by
    rw [pow_one]
    norm_cast
  have lo : BitVec.ofInt 8 ((w.lastFired : Int) / 256 ^ 0) = BitVec.ofNat 8 w.lastFired := by
    rw [pow_zero, Int.ediv_one]
    norm_cast
  have attention : BitVec.ofNat 8 w.attention.toNat = if w.attention = true then 1#8 else 0#8 := by
    cases w.attention <;> rfl
  have number : beBytes 2 w.lastFired = [BitVec.ofNat 8 (w.lastFired / 256), BitVec.ofNat 8 w.lastFired] := by
    rw [← hi, ← lo]
    rfl
  unfold ReturnWord.bytes ReturnWord.spelled
  simp only [number, attention]
  rfl

/-- A check is the two bytes of the CRC, the high one first (02 R29). -/
theorem checkBytes_toNat (l : List Byte) :
    ∃ hi lo : Byte, checkBytes l = [hi, lo] ∧ (crc l).toNat = 256 * hi.toNat + lo.toNat := by
  refine ⟨(crc l >>> 8).setWidth 8, (crc l).setWidth 8, rfl, ?_⟩
  generalize crc l = r
  have := r.isLt
  simp only [BitVec.toNat_setWidth, BitVec.toNat_ushiftRight, Nat.shiftRight_eq_div_pow]
  omega

/-! ### Readers -/

/-- A reader that takes exactly these bytes, whatever follows them. -/
def Reads {α : Type} (r : Reader α) (bytes : List Byte) (a : α) : Prop := ∀ rest, r (bytes ++ rest) = some (a, rest)

/-- What a reader takes from some bytes, it takes from them with others behind. -/
def Extends {α : Type} (r : Reader α) : Prop := ∀ b a x, r b = some (a, x) → ∀ c, r (b ++ c) = some (a, x ++ c)

variable {α β : Type}

theorem reader_bind (r : Reader α) (f : α → Reader β) (b : List Byte) :
    (r >>= f) b = (r b).bind fun p => f p.1 p.2 := rfl

theorem reader_pure (a : α) (b : List Byte) : (pure a : Reader α) b = some (a, b) := rfl

theorem Reads.pure (a : α) : Reads (pure a) [] a := fun _ => rfl

theorem Reads.bind {r : Reader α} {f : α → Reader β} {b c : List Byte} {a : α} {y : β} (h : Reads r b a)
    (k : Reads (f a) c y) : Reads (r >>= f) (b ++ c) y := by
  intro rest
  rw [reader_bind, List.append_assoc, h]
  exact k rest

/-- The last field read, and what is made of it. -/
theorem Reads.last {r : Reader α} {b : List Byte} {a : α} (g : α → β) (h : Reads r b a) :
    Reads (r >>= fun x => Pure.pure (g x)) b (g a) := by
  intro rest
  rw [reader_bind, h]
  rfl

theorem Extends.pure (a : α) : Extends (pure a) := by
  intro b x y h c
  rw [reader_pure] at h ⊢
  cases h
  rfl

theorem Extends.bind {r : Reader α} {f : α → Reader β} (h : Extends r) (k : ∀ a, Extends (f a)) :
    Extends (r >>= f) := by
  intro b a x e c
  rw [reader_bind] at e ⊢
  cases hr : r b with
  | none => rw [hr] at e; cases e
  | some p =>
    rw [hr] at e
    rw [h b p.1 p.2 hr c]
    exact k p.1 p.2 a x e c

theorem Extends.fail : Extends (fun _ => none : Reader α) := by
  intro b a x h
  cases h

theorem readBytes_extends (n : Nat) : Extends (readBytes n) := by
  intro b a x h c
  unfold readBytes at h ⊢
  split at h
  · next hn =>
    cases h
    rw [if_pos (by simp; omega), List.take_append_of_le_length hn, List.drop_append_of_le_length hn]
  · cases h

theorem readBytes_reads (n : Nat) (l : List Byte) (h : l.length = n) : Reads (readBytes n) l l := by
  intro rest
  unfold readBytes
  rw [if_pos (by simp; omega)]
  subst h
  simp

theorem readNat_extends (n : Nat) : Extends (readNat n) := (readBytes_extends n).bind fun _ => .pure _
theorem readInt_extends (n : Nat) : Extends (readInt n) := (readBytes_extends n).bind fun _ => .pure _

theorem beBytes_length (n : Nat) (v : Int) : (beBytes n v).length = n := by simp [beBytes]

theorem beBytes_succ (n : Nat) (v : Int) : beBytes (n + 1) v = BitVec.ofInt 8 (v / 256 ^ n) :: beBytes n v := by
  unfold beBytes
  rw [List.range_succ_eq_map]
  simp only [List.map_cons, List.map_map]
  congr 1
  apply List.map_congr_left
  intro i _
  simp only [Function.comp]
  congr 3
  omega

theorem beNat_cons (b : Byte) (l : List Byte) : beNat (b :: l) = b.toNat * 256 ^ l.length + beNat l := by
  have key : ∀ (l : List Byte) (a : Nat), l.foldl (fun a b => a * 256 + b.toNat) a = a * 256 ^ l.length + beNat l := by
    intro l
    induction l with
    | nil => intro a; simp [beNat]
    | cons c r ih =>
      intro a
      unfold beNat
      simp only [List.foldl_cons]
      rw [ih, ih]
      simp only [List.length_cons, Nat.pow_succ]
      ring
  unfold beNat
  simp only [List.foldl_cons]
  rw [key]
  simp [beNat]

/-- The bytes of a number, read unsigned, are the number modulo their range. -/
theorem beNat_beBytes (n : Nat) (v : Int) : (beNat (beBytes n v) : Int) = v % 256 ^ n := by
  induction n with
  | zero => simp [beBytes, beNat]
  | succ n ih =>
    rw [beBytes_succ, beNat_cons, beBytes_length]
    push_cast
    rw [ih]
    have h1 : ((BitVec.ofInt 8 (v / 256 ^ n)).toNat : Int) = v / 256 ^ n % 256 := by
      rw [BitVec.toNat_ofInt]
      omega
    rw [h1, pow_succ]
    have e1 := Int.emod_add_mul_ediv v (256 ^ n * 256)
    have e2 := Int.emod_add_mul_ediv v (256 ^ n)
    have e3 := Int.emod_add_mul_ediv (v / 256 ^ n) 256
    rw [Int.ediv_ediv_of_nonneg (by positivity)] at e3
    linear_combination e2 + 256 ^ n * e3 - e1

theorem readNat_reads {n v : Nat} (h : fitsBytes n v = true) : Reads (readNat n) (beBytes n v) v := by
  have e := Reads.last beNat (readBytes_reads n (beBytes n v) (beBytes_length n v))
  have : beNat (beBytes n v) = v := by
    have := beNat_beBytes n v
    unfold fitsBytes at h
    have h : v < 256 ^ n := by simpa using h
    have h2 : (v : Int) % 256 ^ n = v := Int.emod_eq_of_lt (by omega) (by exact_mod_cast h)
    rw [h2] at this
    exact_mod_cast this
  rw [this] at e
  exact e

theorem readInt_reads {n : Nat} {v : Int} (h : fitsSigned n v = true) : Reads (readInt n) (beBytes n v) v := by
  have e := Reads.last beInt (readBytes_reads n (beBytes n v) (beBytes_length n v))
  have : beInt (beBytes n v) = v := by
    unfold beInt
    simp only [beBytes_length]
    have hb := beNat_beBytes n v
    unfold fitsSigned at h
    simp only [Bool.and_eq_true, decide_eq_true_eq] at h
    have hp : (0 : Int) < 256 ^ n := by positivity
    have hc : ((256 ^ n : Nat) : Int) = 256 ^ n := by push_cast; rfl
    by_cases hv : 0 ≤ v
    · have h2 : v % 256 ^ n = v := Int.emod_eq_of_lt hv (by omega)
      rw [h2] at hb
      rw [if_pos (by omega)]
      exact hb
    · have h2 : v % 256 ^ n = v + 256 ^ n := by
        rw [← Int.add_emod_right]
        exact Int.emod_eq_of_lt (by omega) (by omega)
      rw [h2] at hb
      rw [if_neg (by omega)]
      omega
  rw [this] at e
  exact e

theorem readPresence_extends : Extends readPresence := by
  unfold readPresence
  refine (readNat_extends 1).bind fun a => ?_
  split
  · exact .pure _
  · exact .pure _
  · exact .fail

theorem readPresence_one : Reads readPresence [1#8] true := fun _ => rfl
theorem readPresence_zero : Reads readPresence [0#8] false := fun _ => rfl

theorem readOpt_extends {r : Reader α} (h : Extends r) : Extends (readOpt r) := by
  unfold readOpt
  refine readPresence_extends.bind fun a => ?_
  cases a
  · exact .pure _
  · exact h.bind fun _ => .pure _

theorem readOpt_some {r : Reader α} {b : List Byte} {a : α} (h : Reads r b a) :
    Reads (readOpt r) (1#8 :: b) (some a) := by
  have := readPresence_one.bind (f := fun p => if p = true then (do return some (← r)) else pure none) (y := some a)
    (c := b) (by simpa using h.last some)
  exact this

theorem readOpt_none (r : Reader α) : Reads (readOpt r) [0#8] none := by
  have := readPresence_zero.bind (f := fun p => if p = true then (do return some (← r)) else pure none) (y := none)
    (c := []) (Reads.pure none)
  exact this

/-! ### Parts of a body -/

@[simp] theorem bodyOf_nil : bodyOf [] = [] := rfl
@[simp] theorem bodyOf_cons (p : Part) (l : List Part) : bodyOf (p :: l) = p.bytes ++ bodyOf l := rfl
@[simp] theorem bodyOf_append (a b : List Part) : bodyOf (a ++ b) = bodyOf a ++ bodyOf b := by simp [bodyOf]
@[simp] theorem bodyOf_fixed (n : Nat) (v : Int) : bodyOf (fixed n v) = beBytes n v := by simp [fixed, Part.bytes]
@[simp] theorem bodyOf_counted (item : α → List Byte) (l : List α) :
    bodyOf (counted item l) = beBytes 1 l.length ++ (l.map item).flatten := by simp [counted, Part.bytes]

/-- A presence byte above 1 is none (11 R180). -/
theorem readPresence_above {b : Byte} (h : 1 < b.toNat) (rest : List Byte) : readPresence (b :: rest) = none := by
  unfold readPresence
  rw [reader_bind]
  have : readNat 1 (b :: rest) = some (b.toNat, rest) := by
    simp [readNat, readBytes, reader_bind, reader_pure, beNat]
  rw [this]
  obtain ⟨k, hk⟩ : ∃ k, b.toNat = k + 2 := ⟨b.toNat - 2, by omega⟩
  simp only [Option.bind_some, hk]

theorem readOptNat_reads {n : Nat} {v : Option Nat} (h : optFits n v = true) :
    Reads (readOpt (readNat n)) (bodyOf (omittableNat n v)) v := by
  cases v with
  | none => exact readOpt_none _
  | some k =>
    have e := readOpt_some (readNat_reads (show fitsBytes n k = true from h))
    simpa [omittableNat, omittable, Part.bytes] using e

theorem readOptInt_reads {n : Nat} {v : Option Int} (h : optFitsSigned n v = true) :
    Reads (readOpt (readInt n)) (bodyOf (omittable n v)) v := by
  cases v with
  | none => exact readOpt_none _
  | some k =>
    have e := readOpt_some (readInt_reads (show fitsSigned n k = true from h))
    simpa [omittable, Part.bytes] using e

theorem readMark_extends {r : Reader α} (h : Extends r) : Extends (readMark r) := by
  unfold readMark
  refine readPresence_extends.bind fun a => h.bind fun _ => .pure _

theorem readMark_some {r : Reader α} {b : List Byte} {a : α} (h : Reads r b a) :
    Reads (readMark r) (1#8 :: b) (some a) := by
  have := readPresence_one.bind (f := fun p => do let v ← r; return if p = true then some v else none) (y := some a)
    (c := b) (by simpa using h.last some)
  exact this

theorem readMark_none {r : Reader α} {b : List Byte} {a : α} (h : Reads r b a) :
    Reads (readMark r) (0#8 :: b) none := by
  have := readPresence_zero.bind (f := fun p => do let v ← r; return if p = true then some v else none) (y := none)
    (c := b) (by simpa using h.last fun _ => none)
  exact this

theorem readMany_extends {r : Reader α} (h : Extends r) (n : Nat) : Extends (readMany r n) := by
  induction n with
  | zero => exact .pure _
  | succ n ih => exact h.bind fun _ => ih.bind fun _ => .pure _

theorem readMany_reads {r : Reader α} {item : α → List Byte} (l : List α) (h : ∀ a ∈ l, Reads r (item a) a) :
    Reads (readMany r l.length) ((l.map item).flatten) l := by
  induction l with
  | nil => exact .pure _
  | cons a l ih =>
    have := (h a (by simp)).bind (f := fun x => do let xs ← readMany r l.length; return x :: xs) (y := a :: l)
      (c := (l.map item).flatten)
      ((ih fun b hb => h b (by simp [hb])).last (a :: ·))
    exact this

theorem readList_extends {r : Reader α} (h : Extends r) : Extends (readList r) :=
  (readNat_extends 1).bind fun n => readMany_extends h n

theorem readList_reads {r : Reader α} {item : α → List Byte} {l : List α} (hl : l.length < 256)
    (h : ∀ a ∈ l, Reads r (item a) a) : Reads (readList r) (beBytes 1 l.length ++ (l.map item).flatten) l :=
  (readNat_reads (n := 1) (v := l.length) (by simpa [fitsBytes] using hl)).bind (readMany_reads l h)

theorem readFlags_extends : Extends readFlags := (readNat_extends 2).bind fun _ => .pure _

theorem readFlags_reads (m : BitVec 16) : Reads readFlags (beBytes 2 m.toNat) m := by
  have := (readNat_reads (n := 2) (v := m.toNat) (by simp [fitsBytes]; omega)).last (BitVec.ofNat 16)
  rw [BitVec.ofNat_toNat, BitVec.setWidth_eq] at this
  exact this

/-- A body that the reader takes whole makes its request. -/
theorem fit_reads {h : Header} {r : Reader α} {b : List Byte} {a : α} (zero : α) (mk : Header → α → Instr)
    (hr : Reads r b a) : fit h b r zero mk = mk h a := by
  have := hr []
  rw [List.append_nil] at this
  unfold fit
  rw [this]

/-- A body that ends early, or goes on, does not fit. -/
theorem fit_misfit {h : Header} {r : Reader α} {b front back : List Byte} {a : α} (zero : α) (mk : Header → α → Instr)
    (hr : Reads r b a) (he : Extends r) (hb : back ≠ []) (hf : b = front ++ back ∨ front = b ++ back) :
    fit h front r zero mk = mk { h with fits := false } zero := by
  unfold fit
  split
  · next a' e =>
    exfalso
    rcases hf with rfl | rfl
    · have h1 := he _ _ _ e back
      have h2 := hr []
      rw [List.append_nil] at h2
      rw [h2] at h1
      simp at h1
      exact hb h1.2
    · rw [hr back] at e
      simp at e
      exact hb e.2
  · rfl
theorem readScreenSel_reads {c : ScreenSel} (h : c.wellFormed = true) : Reads readScreenSel
    (bodyOf (omittableNat 1 c.priority) ++ (bodyOf (omittableNat 2 c.fullDraw) ++ (bodyOf (omittableNat 2 c.reducedDraw) ++
      (bodyOf (omittableNat 1 c.shedAtt) ++ (bodyOf (omittableNat 1 c.fadeRate) ++ (bodyOf (omittableNat 2 c.lipSync) ++ (bodyOf (omittableNat 1 c.permit) ++
      (bodyOf (omittableNat 1 c.laneLevel) ++ bodyOf (omittableNat 1 c.defaultLayout))))))))) c := by
  simp only [ScreenSel.wellFormed, Bool.and_eq_true] at h
  obtain ⟨⟨⟨⟨⟨⟨⟨⟨h1, h2⟩, h3⟩, h4⟩, h5⟩, h6⟩, h7⟩, h8⟩, h9⟩ := h
  unfold readScreenSel
  refine (readOptNat_reads h1).bind ?_
  refine (readOptNat_reads h2).bind ?_
  refine (readOptNat_reads h3).bind ?_
  refine (readOptNat_reads h4).bind ?_
  refine (readOptNat_reads h5).bind ?_
  refine (readOptNat_reads h6).bind ?_
  refine (readOptNat_reads h7).bind ?_
  refine (readOptNat_reads h8).bind ?_
  exact (readOptNat_reads h9).last _

theorem readSection_reads {c : Section} (h : c.wellFormed = true) : Reads readSection c.body c := by
  simp only [Section.wellFormed, Bool.and_eq_true] at h
  obtain ⟨⟨⟨⟨h1, h2⟩, h3⟩, h4⟩, h5⟩ := h
  unfold readSection Section.body
  simp only [List.append_assoc]
  refine (readInt_reads h1).bind ?_
  refine (readInt_reads h2).bind ?_
  refine (readInt_reads h3).bind ?_
  refine (readInt_reads h4).bind ?_
  exact (readInt_reads h5).last _

theorem readSection_extends : Extends readSection := by
  unfold readSection
  repeat' (first | exact Extends.pure _ | refine (readInt_extends 3).bind fun _ => ?_)

theorem readRoleSource_reads {r : RoleSource} (h : fitsBytes 1 r.role = true) (hs : r.source.wellFormed = true) :
    Reads readRoleSource r.body r := by
  obtain ⟨role, src⟩ := r
  unfold readRoleSource RoleSource.body
  refine (readNat_reads h).bind ?_
  cases src with
  | none => exact fun _ => rfl
  | one i g =>
    simp only [Source.wellFormed, Bool.and_eq_true] at hs
    refine Reads.bind (b := [1#8]) (c := beBytes 1 i ++ beBytes 1 g) (readNat_reads (n := 1) (v := 1) rfl) ?_
    exact (readNat_reads hs.1).bind ((readInt_reads hs.2).last _)
  | two i gi j gj =>
    simp only [Source.wellFormed, Bool.and_eq_true] at hs
    obtain ⟨⟨⟨h1, h2⟩, h3⟩, h4⟩ := hs
    refine Reads.bind (b := [2#8]) (c := beBytes 1 i ++ beBytes 1 gi ++ beBytes 1 j ++ beBytes 1 gj)
      (readNat_reads (n := 1) (v := 2) rfl) ?_
    simp only [List.append_assoc]
    exact (readNat_reads h1).bind ((readInt_reads h2).bind ((readNat_reads h3).bind ((readInt_reads h4).last _)))

end Sys2Proof.Machine
end

