-- ==== Sys2Proof/Laws/State.lean ====
section
/-! SUPPORT. What each named update of State leaves in each field, one lemma for each field and update. -/

namespace Sys2Proof.Machine

variable (s : State)
/-! ### `modScreen` -/
@[simp] theorem modScreen_ports (n : Fin 12) (f : Screen → Screen) : (s.modScreen n f).ports = s.ports := rfl
@[simp] theorem modScreen_mark (n : Fin 12) (f : Screen → Screen) : (s.modScreen n f).mark = s.mark := rfl
@[simp] theorem modScreen_screens (n : Fin 12) (f : Screen → Screen) : (s.modScreen n f).screens = s.screens.modify n f := rfl
@[simp] theorem modScreen_stampCounter (n : Fin 12) (f : Screen → Screen) : (s.modScreen n f).stampCounter = s.stampCounter := rfl
@[simp] theorem modScreen_evac (n : Fin 12) (f : Screen → Screen) : (s.modScreen n f).evac = s.evac := rfl
@[simp] theorem modScreen_lanes (n : Fin 12) (f : Screen → Screen) : (s.modScreen n f).lanes = s.lanes := rfl
@[simp] theorem modScreen_clock (n : Fin 12) (f : Screen → Screen) : (s.modScreen n f).clock = s.clock := rfl
@[simp] theorem modScreen_blockCount (n : Fin 12) (f : Screen → Screen) : (s.modScreen n f).blockCount = s.blockCount := rfl
@[simp] theorem modScreen_returnWords (n : Fin 12) (f : Screen → Screen) : (s.modScreen n f).returnWords = s.returnWords := rfl
@[simp] theorem modScreen_outputs (n : Fin 12) (f : Screen → Screen) : (s.modScreen n f).outputs = s.outputs := rfl
@[simp] theorem modScreen_layouts (n : Fin 12) (f : Screen → Screen) : (s.modScreen n f).layouts = s.layouts := rfl
@[simp] theorem modScreen_routes (n : Fin 12) (f : Screen → Screen) : (s.modScreen n f).routes = s.routes := rfl
@[simp] theorem modScreen_pagingStep (n : Fin 12) (f : Screen → Screen) : (s.modScreen n f).pagingStep = s.pagingStep := rfl
@[simp] theorem modScreen_attenuations (n : Fin 12) (f : Screen → Screen) : (s.modScreen n f).attenuations = s.attenuations := rfl
@[simp] theorem modScreen_badPages (n : Fin 12) (f : Screen → Screen) : (s.modScreen n f).badPages = s.badPages := rfl
@[simp] theorem modScreen_selftest (n : Fin 12) (f : Screen → Screen) : (s.modScreen n f).selftest = s.selftest := rfl
@[simp] theorem modScreen_meters (n : Fin 12) (f : Screen → Screen) : (s.modScreen n f).meters = s.meters := rfl
@[simp] theorem modScreen_micRunning (n : Fin 12) (f : Screen → Screen) : (s.modScreen n f).micRunning = s.micRunning := rfl
@[simp] theorem modScreen_micEnergy (n : Fin 12) (f : Screen → Screen) : (s.modScreen n f).micEnergy = s.micEnergy := rfl
@[simp] theorem modScreen_alarms (n : Fin 12) (f : Screen → Screen) : (s.modScreen n f).alarms = s.alarms := rfl
@[simp] theorem modScreen_returnLanes (n : Fin 12) (f : Screen → Screen) : (s.modScreen n f).returnLanes = s.returnLanes := rfl
@[simp] theorem modScreen_budget (n : Fin 12) (f : Screen → Screen) : (s.modScreen n f).budget = s.budget := rfl
@[simp] theorem modScreen_grants (n : Fin 12) (f : Screen → Screen) : (s.modScreen n f).grants = s.grants := rfl
@[simp] theorem modScreen_pool (n : Fin 12) (f : Screen → Screen) : (s.modScreen n f).pool = s.pool := rfl
@[simp] theorem modScreen_cues (n : Fin 12) (f : Screen → Screen) : (s.modScreen n f).cues = s.cues := rfl
@[simp] theorem modScreen_booth (n : Fin 12) (f : Screen → Screen) : (s.modScreen n f).booth = s.booth := rfl
@[simp] theorem modScreen_noise (n : Fin 12) (f : Screen → Screen) : (s.modScreen n f).noise = s.noise := rfl
@[simp] theorem modScreen_blockPeriods (n : Fin 12) (f : Screen → Screen) : (s.modScreen n f).blockPeriods = s.blockPeriods := rfl
@[simp] theorem modScreen_lateDraws (n : Fin 12) (f : Screen → Screen) : (s.modScreen n f).lateDraws = s.lateDraws := rfl
@[simp] theorem modScreen_toneGain (n : Fin 12) (f : Screen → Screen) : (s.modScreen n f).toneGain = s.toneGain := rfl
@[simp] theorem modScreen_context (n : Fin 12) (f : Screen → Screen) : (s.modScreen n f).context = s.context := rfl
@[simp] theorem modScreen_micOffset (n : Fin 12) (f : Screen → Screen) : (s.modScreen n f).micOffset = s.micOffset := rfl
@[simp] theorem modScreen_blockClosed (n : Fin 12) (f : Screen → Screen) : (s.modScreen n f).blockClosed = s.blockClosed := rfl
@[simp] theorem modScreen_intervalTaken (n : Fin 12) (f : Screen → Screen) : (s.modScreen n f).intervalTaken = s.intervalTaken := rfl
@[simp] theorem modScreen_measureStepped (n : Fin 12) (f : Screen → Screen) : (s.modScreen n f).measureStepped = s.measureStepped := rfl
@[simp] theorem modScreen_pending (n : Fin 12) (f : Screen → Screen) : (s.modScreen n f).pending = s.pending := rfl

/-! ### `modLane` -/
@[simp] theorem modLane_ports (l : Fin 14) (f : Lane → Lane) : (s.modLane l f).ports = s.ports := rfl
@[simp] theorem modLane_mark (l : Fin 14) (f : Lane → Lane) : (s.modLane l f).mark = s.mark := rfl
@[simp] theorem modLane_screens (l : Fin 14) (f : Lane → Lane) : (s.modLane l f).screens = s.screens := rfl
@[simp] theorem modLane_stampCounter (l : Fin 14) (f : Lane → Lane) : (s.modLane l f).stampCounter = s.stampCounter := rfl
@[simp] theorem modLane_evac (l : Fin 14) (f : Lane → Lane) : (s.modLane l f).evac = s.evac := rfl
@[simp] theorem modLane_lanes (l : Fin 14) (f : Lane → Lane) : (s.modLane l f).lanes = s.lanes.modify l f := rfl
@[simp] theorem modLane_clock (l : Fin 14) (f : Lane → Lane) : (s.modLane l f).clock = s.clock := rfl
@[simp] theorem modLane_blockCount (l : Fin 14) (f : Lane → Lane) : (s.modLane l f).blockCount = s.blockCount := rfl
@[simp] theorem modLane_returnWords (l : Fin 14) (f : Lane → Lane) : (s.modLane l f).returnWords = s.returnWords := rfl
@[simp] theorem modLane_outputs (l : Fin 14) (f : Lane → Lane) : (s.modLane l f).outputs = s.outputs := rfl
@[simp] theorem modLane_layouts (l : Fin 14) (f : Lane → Lane) : (s.modLane l f).layouts = s.layouts := rfl
@[simp] theorem modLane_routes (l : Fin 14) (f : Lane → Lane) : (s.modLane l f).routes = s.routes := rfl
@[simp] theorem modLane_pagingStep (l : Fin 14) (f : Lane → Lane) : (s.modLane l f).pagingStep = s.pagingStep := rfl
@[simp] theorem modLane_attenuations (l : Fin 14) (f : Lane → Lane) : (s.modLane l f).attenuations = s.attenuations := rfl
@[simp] theorem modLane_badPages (l : Fin 14) (f : Lane → Lane) : (s.modLane l f).badPages = s.badPages := rfl
@[simp] theorem modLane_selftest (l : Fin 14) (f : Lane → Lane) : (s.modLane l f).selftest = s.selftest := rfl
@[simp] theorem modLane_meters (l : Fin 14) (f : Lane → Lane) : (s.modLane l f).meters = s.meters := rfl
@[simp] theorem modLane_micRunning (l : Fin 14) (f : Lane → Lane) : (s.modLane l f).micRunning = s.micRunning := rfl
@[simp] theorem modLane_micEnergy (l : Fin 14) (f : Lane → Lane) : (s.modLane l f).micEnergy = s.micEnergy := rfl
@[simp] theorem modLane_alarms (l : Fin 14) (f : Lane → Lane) : (s.modLane l f).alarms = s.alarms := rfl
@[simp] theorem modLane_returnLanes (l : Fin 14) (f : Lane → Lane) : (s.modLane l f).returnLanes = s.returnLanes := rfl
@[simp] theorem modLane_budget (l : Fin 14) (f : Lane → Lane) : (s.modLane l f).budget = s.budget := rfl
@[simp] theorem modLane_grants (l : Fin 14) (f : Lane → Lane) : (s.modLane l f).grants = s.grants := rfl
@[simp] theorem modLane_pool (l : Fin 14) (f : Lane → Lane) : (s.modLane l f).pool = s.pool := rfl
@[simp] theorem modLane_cues (l : Fin 14) (f : Lane → Lane) : (s.modLane l f).cues = s.cues := rfl
@[simp] theorem modLane_booth (l : Fin 14) (f : Lane → Lane) : (s.modLane l f).booth = s.booth := rfl
@[simp] theorem modLane_noise (l : Fin 14) (f : Lane → Lane) : (s.modLane l f).noise = s.noise := rfl
@[simp] theorem modLane_blockPeriods (l : Fin 14) (f : Lane → Lane) : (s.modLane l f).blockPeriods = s.blockPeriods := rfl
@[simp] theorem modLane_lateDraws (l : Fin 14) (f : Lane → Lane) : (s.modLane l f).lateDraws = s.lateDraws := rfl
@[simp] theorem modLane_toneGain (l : Fin 14) (f : Lane → Lane) : (s.modLane l f).toneGain = s.toneGain := rfl
@[simp] theorem modLane_context (l : Fin 14) (f : Lane → Lane) : (s.modLane l f).context = s.context := rfl
@[simp] theorem modLane_micOffset (l : Fin 14) (f : Lane → Lane) : (s.modLane l f).micOffset = s.micOffset := rfl
@[simp] theorem modLane_blockClosed (l : Fin 14) (f : Lane → Lane) : (s.modLane l f).blockClosed = s.blockClosed := rfl
@[simp] theorem modLane_intervalTaken (l : Fin 14) (f : Lane → Lane) : (s.modLane l f).intervalTaken = s.intervalTaken := rfl
@[simp] theorem modLane_measureStepped (l : Fin 14) (f : Lane → Lane) : (s.modLane l f).measureStepped = s.measureStepped := rfl
@[simp] theorem modLane_pending (l : Fin 14) (f : Lane → Lane) : (s.modLane l f).pending = s.pending := rfl

/-! ### `modOutput` -/
@[simp] theorem modOutput_ports (o : Fin 192) (f : Output → Output) : (s.modOutput o f).ports = s.ports := rfl
@[simp] theorem modOutput_mark (o : Fin 192) (f : Output → Output) : (s.modOutput o f).mark = s.mark := rfl
@[simp] theorem modOutput_screens (o : Fin 192) (f : Output → Output) : (s.modOutput o f).screens = s.screens := rfl
@[simp] theorem modOutput_stampCounter (o : Fin 192) (f : Output → Output) : (s.modOutput o f).stampCounter = s.stampCounter := rfl
@[simp] theorem modOutput_evac (o : Fin 192) (f : Output → Output) : (s.modOutput o f).evac = s.evac := rfl
@[simp] theorem modOutput_lanes (o : Fin 192) (f : Output → Output) : (s.modOutput o f).lanes = s.lanes := rfl
@[simp] theorem modOutput_clock (o : Fin 192) (f : Output → Output) : (s.modOutput o f).clock = s.clock := rfl
@[simp] theorem modOutput_blockCount (o : Fin 192) (f : Output → Output) : (s.modOutput o f).blockCount = s.blockCount := rfl
@[simp] theorem modOutput_returnWords (o : Fin 192) (f : Output → Output) : (s.modOutput o f).returnWords = s.returnWords := rfl
@[simp] theorem modOutput_outputs (o : Fin 192) (f : Output → Output) : (s.modOutput o f).outputs = s.outputs.modify o f := rfl
@[simp] theorem modOutput_layouts (o : Fin 192) (f : Output → Output) : (s.modOutput o f).layouts = s.layouts := rfl
@[simp] theorem modOutput_routes (o : Fin 192) (f : Output → Output) : (s.modOutput o f).routes = s.routes := rfl
@[simp] theorem modOutput_pagingStep (o : Fin 192) (f : Output → Output) : (s.modOutput o f).pagingStep = s.pagingStep := rfl
@[simp] theorem modOutput_attenuations (o : Fin 192) (f : Output → Output) : (s.modOutput o f).attenuations = s.attenuations := rfl
@[simp] theorem modOutput_badPages (o : Fin 192) (f : Output → Output) : (s.modOutput o f).badPages = s.badPages := rfl
@[simp] theorem modOutput_selftest (o : Fin 192) (f : Output → Output) : (s.modOutput o f).selftest = s.selftest := rfl
@[simp] theorem modOutput_meters (o : Fin 192) (f : Output → Output) : (s.modOutput o f).meters = s.meters := rfl
@[simp] theorem modOutput_micRunning (o : Fin 192) (f : Output → Output) : (s.modOutput o f).micRunning = s.micRunning := rfl
@[simp] theorem modOutput_micEnergy (o : Fin 192) (f : Output → Output) : (s.modOutput o f).micEnergy = s.micEnergy := rfl
@[simp] theorem modOutput_alarms (o : Fin 192) (f : Output → Output) : (s.modOutput o f).alarms = s.alarms := rfl
@[simp] theorem modOutput_returnLanes (o : Fin 192) (f : Output → Output) : (s.modOutput o f).returnLanes = s.returnLanes := rfl
@[simp] theorem modOutput_budget (o : Fin 192) (f : Output → Output) : (s.modOutput o f).budget = s.budget := rfl
@[simp] theorem modOutput_grants (o : Fin 192) (f : Output → Output) : (s.modOutput o f).grants = s.grants := rfl
@[simp] theorem modOutput_pool (o : Fin 192) (f : Output → Output) : (s.modOutput o f).pool = s.pool := rfl
@[simp] theorem modOutput_cues (o : Fin 192) (f : Output → Output) : (s.modOutput o f).cues = s.cues := rfl
@[simp] theorem modOutput_booth (o : Fin 192) (f : Output → Output) : (s.modOutput o f).booth = s.booth := rfl
@[simp] theorem modOutput_noise (o : Fin 192) (f : Output → Output) : (s.modOutput o f).noise = s.noise := rfl
@[simp] theorem modOutput_blockPeriods (o : Fin 192) (f : Output → Output) : (s.modOutput o f).blockPeriods = s.blockPeriods := rfl
@[simp] theorem modOutput_lateDraws (o : Fin 192) (f : Output → Output) : (s.modOutput o f).lateDraws = s.lateDraws := rfl
@[simp] theorem modOutput_toneGain (o : Fin 192) (f : Output → Output) : (s.modOutput o f).toneGain = s.toneGain := rfl
@[simp] theorem modOutput_context (o : Fin 192) (f : Output → Output) : (s.modOutput o f).context = s.context := rfl
@[simp] theorem modOutput_micOffset (o : Fin 192) (f : Output → Output) : (s.modOutput o f).micOffset = s.micOffset := rfl
@[simp] theorem modOutput_blockClosed (o : Fin 192) (f : Output → Output) : (s.modOutput o f).blockClosed = s.blockClosed := rfl
@[simp] theorem modOutput_intervalTaken (o : Fin 192) (f : Output → Output) : (s.modOutput o f).intervalTaken = s.intervalTaken := rfl
@[simp] theorem modOutput_measureStepped (o : Fin 192) (f : Output → Output) : (s.modOutput o f).measureStepped = s.measureStepped := rfl
@[simp] theorem modOutput_pending (o : Fin 192) (f : Output → Output) : (s.modOutput o f).pending = s.pending := rfl

/-! ### `modPort` -/
@[simp] theorem modPort_ports (p : Fin 4) (f : Port → Port) : (s.modPort p f).ports = s.ports.modify p f := rfl
@[simp] theorem modPort_mark (p : Fin 4) (f : Port → Port) : (s.modPort p f).mark = s.mark := rfl
@[simp] theorem modPort_screens (p : Fin 4) (f : Port → Port) : (s.modPort p f).screens = s.screens := rfl
@[simp] theorem modPort_stampCounter (p : Fin 4) (f : Port → Port) : (s.modPort p f).stampCounter = s.stampCounter := rfl
@[simp] theorem modPort_evac (p : Fin 4) (f : Port → Port) : (s.modPort p f).evac = s.evac := rfl
@[simp] theorem modPort_lanes (p : Fin 4) (f : Port → Port) : (s.modPort p f).lanes = s.lanes := rfl
@[simp] theorem modPort_clock (p : Fin 4) (f : Port → Port) : (s.modPort p f).clock = s.clock := rfl
@[simp] theorem modPort_blockCount (p : Fin 4) (f : Port → Port) : (s.modPort p f).blockCount = s.blockCount := rfl
@[simp] theorem modPort_returnWords (p : Fin 4) (f : Port → Port) : (s.modPort p f).returnWords = s.returnWords := rfl
@[simp] theorem modPort_outputs (p : Fin 4) (f : Port → Port) : (s.modPort p f).outputs = s.outputs := rfl
@[simp] theorem modPort_layouts (p : Fin 4) (f : Port → Port) : (s.modPort p f).layouts = s.layouts := rfl
@[simp] theorem modPort_routes (p : Fin 4) (f : Port → Port) : (s.modPort p f).routes = s.routes := rfl
@[simp] theorem modPort_pagingStep (p : Fin 4) (f : Port → Port) : (s.modPort p f).pagingStep = s.pagingStep := rfl
@[simp] theorem modPort_attenuations (p : Fin 4) (f : Port → Port) : (s.modPort p f).attenuations = s.attenuations := rfl
@[simp] theorem modPort_badPages (p : Fin 4) (f : Port → Port) : (s.modPort p f).badPages = s.badPages := rfl
@[simp] theorem modPort_selftest (p : Fin 4) (f : Port → Port) : (s.modPort p f).selftest = s.selftest := rfl
@[simp] theorem modPort_meters (p : Fin 4) (f : Port → Port) : (s.modPort p f).meters = s.meters := rfl
@[simp] theorem modPort_micRunning (p : Fin 4) (f : Port → Port) : (s.modPort p f).micRunning = s.micRunning := rfl
@[simp] theorem modPort_micEnergy (p : Fin 4) (f : Port → Port) : (s.modPort p f).micEnergy = s.micEnergy := rfl
@[simp] theorem modPort_alarms (p : Fin 4) (f : Port → Port) : (s.modPort p f).alarms = s.alarms := rfl
@[simp] theorem modPort_returnLanes (p : Fin 4) (f : Port → Port) : (s.modPort p f).returnLanes = s.returnLanes := rfl
@[simp] theorem modPort_budget (p : Fin 4) (f : Port → Port) : (s.modPort p f).budget = s.budget := rfl
@[simp] theorem modPort_grants (p : Fin 4) (f : Port → Port) : (s.modPort p f).grants = s.grants := rfl
@[simp] theorem modPort_pool (p : Fin 4) (f : Port → Port) : (s.modPort p f).pool = s.pool := rfl
@[simp] theorem modPort_cues (p : Fin 4) (f : Port → Port) : (s.modPort p f).cues = s.cues := rfl
@[simp] theorem modPort_booth (p : Fin 4) (f : Port → Port) : (s.modPort p f).booth = s.booth := rfl
@[simp] theorem modPort_noise (p : Fin 4) (f : Port → Port) : (s.modPort p f).noise = s.noise := rfl
@[simp] theorem modPort_blockPeriods (p : Fin 4) (f : Port → Port) : (s.modPort p f).blockPeriods = s.blockPeriods := rfl
@[simp] theorem modPort_lateDraws (p : Fin 4) (f : Port → Port) : (s.modPort p f).lateDraws = s.lateDraws := rfl
@[simp] theorem modPort_toneGain (p : Fin 4) (f : Port → Port) : (s.modPort p f).toneGain = s.toneGain := rfl
@[simp] theorem modPort_context (p : Fin 4) (f : Port → Port) : (s.modPort p f).context = s.context := rfl
@[simp] theorem modPort_micOffset (p : Fin 4) (f : Port → Port) : (s.modPort p f).micOffset = s.micOffset := rfl
@[simp] theorem modPort_blockClosed (p : Fin 4) (f : Port → Port) : (s.modPort p f).blockClosed = s.blockClosed := rfl
@[simp] theorem modPort_intervalTaken (p : Fin 4) (f : Port → Port) : (s.modPort p f).intervalTaken = s.intervalTaken := rfl
@[simp] theorem modPort_measureStepped (p : Fin 4) (f : Port → Port) : (s.modPort p f).measureStepped = s.measureStepped := rfl
@[simp] theorem modPort_pending (p : Fin 4) (f : Port → Port) : (s.modPort p f).pending = s.pending := rfl

/-! ### `modMeter` -/
@[simp] theorem modMeter_ports (n : Fin 12) (f : Meter → Meter) : (s.modMeter n f).ports = s.ports := rfl
@[simp] theorem modMeter_mark (n : Fin 12) (f : Meter → Meter) : (s.modMeter n f).mark = s.mark := rfl
@[simp] theorem modMeter_screens (n : Fin 12) (f : Meter → Meter) : (s.modMeter n f).screens = s.screens := rfl
@[simp] theorem modMeter_stampCounter (n : Fin 12) (f : Meter → Meter) : (s.modMeter n f).stampCounter = s.stampCounter := rfl
@[simp] theorem modMeter_evac (n : Fin 12) (f : Meter → Meter) : (s.modMeter n f).evac = s.evac := rfl
@[simp] theorem modMeter_lanes (n : Fin 12) (f : Meter → Meter) : (s.modMeter n f).lanes = s.lanes := rfl
@[simp] theorem modMeter_clock (n : Fin 12) (f : Meter → Meter) : (s.modMeter n f).clock = s.clock := rfl
@[simp] theorem modMeter_blockCount (n : Fin 12) (f : Meter → Meter) : (s.modMeter n f).blockCount = s.blockCount := rfl
@[simp] theorem modMeter_returnWords (n : Fin 12) (f : Meter → Meter) : (s.modMeter n f).returnWords = s.returnWords := rfl
@[simp] theorem modMeter_outputs (n : Fin 12) (f : Meter → Meter) : (s.modMeter n f).outputs = s.outputs := rfl
@[simp] theorem modMeter_layouts (n : Fin 12) (f : Meter → Meter) : (s.modMeter n f).layouts = s.layouts := rfl
@[simp] theorem modMeter_routes (n : Fin 12) (f : Meter → Meter) : (s.modMeter n f).routes = s.routes := rfl
@[simp] theorem modMeter_pagingStep (n : Fin 12) (f : Meter → Meter) : (s.modMeter n f).pagingStep = s.pagingStep := rfl
@[simp] theorem modMeter_attenuations (n : Fin 12) (f : Meter → Meter) : (s.modMeter n f).attenuations = s.attenuations := rfl
@[simp] theorem modMeter_badPages (n : Fin 12) (f : Meter → Meter) : (s.modMeter n f).badPages = s.badPages := rfl
@[simp] theorem modMeter_selftest (n : Fin 12) (f : Meter → Meter) : (s.modMeter n f).selftest = s.selftest := rfl
@[simp] theorem modMeter_meters (n : Fin 12) (f : Meter → Meter) : (s.modMeter n f).meters = s.meters.modify n f := rfl
@[simp] theorem modMeter_micRunning (n : Fin 12) (f : Meter → Meter) : (s.modMeter n f).micRunning = s.micRunning := rfl
@[simp] theorem modMeter_micEnergy (n : Fin 12) (f : Meter → Meter) : (s.modMeter n f).micEnergy = s.micEnergy := rfl
@[simp] theorem modMeter_alarms (n : Fin 12) (f : Meter → Meter) : (s.modMeter n f).alarms = s.alarms := rfl
@[simp] theorem modMeter_returnLanes (n : Fin 12) (f : Meter → Meter) : (s.modMeter n f).returnLanes = s.returnLanes := rfl
@[simp] theorem modMeter_budget (n : Fin 12) (f : Meter → Meter) : (s.modMeter n f).budget = s.budget := rfl
@[simp] theorem modMeter_grants (n : Fin 12) (f : Meter → Meter) : (s.modMeter n f).grants = s.grants := rfl
@[simp] theorem modMeter_pool (n : Fin 12) (f : Meter → Meter) : (s.modMeter n f).pool = s.pool := rfl
@[simp] theorem modMeter_cues (n : Fin 12) (f : Meter → Meter) : (s.modMeter n f).cues = s.cues := rfl
@[simp] theorem modMeter_booth (n : Fin 12) (f : Meter → Meter) : (s.modMeter n f).booth = s.booth := rfl
@[simp] theorem modMeter_noise (n : Fin 12) (f : Meter → Meter) : (s.modMeter n f).noise = s.noise := rfl
@[simp] theorem modMeter_blockPeriods (n : Fin 12) (f : Meter → Meter) : (s.modMeter n f).blockPeriods = s.blockPeriods := rfl
@[simp] theorem modMeter_lateDraws (n : Fin 12) (f : Meter → Meter) : (s.modMeter n f).lateDraws = s.lateDraws := rfl
@[simp] theorem modMeter_toneGain (n : Fin 12) (f : Meter → Meter) : (s.modMeter n f).toneGain = s.toneGain := rfl
@[simp] theorem modMeter_context (n : Fin 12) (f : Meter → Meter) : (s.modMeter n f).context = s.context := rfl
@[simp] theorem modMeter_micOffset (n : Fin 12) (f : Meter → Meter) : (s.modMeter n f).micOffset = s.micOffset := rfl
@[simp] theorem modMeter_blockClosed (n : Fin 12) (f : Meter → Meter) : (s.modMeter n f).blockClosed = s.blockClosed := rfl
@[simp] theorem modMeter_intervalTaken (n : Fin 12) (f : Meter → Meter) : (s.modMeter n f).intervalTaken = s.intervalTaken := rfl
@[simp] theorem modMeter_measureStepped (n : Fin 12) (f : Meter → Meter) : (s.modMeter n f).measureStepped = s.measureStepped := rfl
@[simp] theorem modMeter_pending (n : Fin 12) (f : Meter → Meter) : (s.modMeter n f).pending = s.pending := rfl

/-! ### `modAlarms` -/
@[simp] theorem modAlarms_ports (n : Fin 12) (f : Alarms → Alarms) : (s.modAlarms n f).ports = s.ports := rfl
@[simp] theorem modAlarms_mark (n : Fin 12) (f : Alarms → Alarms) : (s.modAlarms n f).mark = s.mark := rfl
@[simp] theorem modAlarms_screens (n : Fin 12) (f : Alarms → Alarms) : (s.modAlarms n f).screens = s.screens := rfl
@[simp] theorem modAlarms_stampCounter (n : Fin 12) (f : Alarms → Alarms) : (s.modAlarms n f).stampCounter = s.stampCounter := rfl
@[simp] theorem modAlarms_evac (n : Fin 12) (f : Alarms → Alarms) : (s.modAlarms n f).evac = s.evac := rfl
@[simp] theorem modAlarms_lanes (n : Fin 12) (f : Alarms → Alarms) : (s.modAlarms n f).lanes = s.lanes := rfl
@[simp] theorem modAlarms_clock (n : Fin 12) (f : Alarms → Alarms) : (s.modAlarms n f).clock = s.clock := rfl
@[simp] theorem modAlarms_blockCount (n : Fin 12) (f : Alarms → Alarms) : (s.modAlarms n f).blockCount = s.blockCount := rfl
@[simp] theorem modAlarms_returnWords (n : Fin 12) (f : Alarms → Alarms) : (s.modAlarms n f).returnWords = s.returnWords := rfl
@[simp] theorem modAlarms_outputs (n : Fin 12) (f : Alarms → Alarms) : (s.modAlarms n f).outputs = s.outputs := rfl
@[simp] theorem modAlarms_layouts (n : Fin 12) (f : Alarms → Alarms) : (s.modAlarms n f).layouts = s.layouts := rfl
@[simp] theorem modAlarms_routes (n : Fin 12) (f : Alarms → Alarms) : (s.modAlarms n f).routes = s.routes := rfl
@[simp] theorem modAlarms_pagingStep (n : Fin 12) (f : Alarms → Alarms) : (s.modAlarms n f).pagingStep = s.pagingStep := rfl
@[simp] theorem modAlarms_attenuations (n : Fin 12) (f : Alarms → Alarms) : (s.modAlarms n f).attenuations = s.attenuations := rfl
@[simp] theorem modAlarms_badPages (n : Fin 12) (f : Alarms → Alarms) : (s.modAlarms n f).badPages = s.badPages := rfl
@[simp] theorem modAlarms_selftest (n : Fin 12) (f : Alarms → Alarms) : (s.modAlarms n f).selftest = s.selftest := rfl
@[simp] theorem modAlarms_meters (n : Fin 12) (f : Alarms → Alarms) : (s.modAlarms n f).meters = s.meters := rfl
@[simp] theorem modAlarms_micRunning (n : Fin 12) (f : Alarms → Alarms) : (s.modAlarms n f).micRunning = s.micRunning := rfl
@[simp] theorem modAlarms_micEnergy (n : Fin 12) (f : Alarms → Alarms) : (s.modAlarms n f).micEnergy = s.micEnergy := rfl
@[simp] theorem modAlarms_alarms (n : Fin 12) (f : Alarms → Alarms) : (s.modAlarms n f).alarms = s.alarms.modify n f := rfl
@[simp] theorem modAlarms_returnLanes (n : Fin 12) (f : Alarms → Alarms) : (s.modAlarms n f).returnLanes = s.returnLanes := rfl
@[simp] theorem modAlarms_budget (n : Fin 12) (f : Alarms → Alarms) : (s.modAlarms n f).budget = s.budget := rfl
@[simp] theorem modAlarms_grants (n : Fin 12) (f : Alarms → Alarms) : (s.modAlarms n f).grants = s.grants := rfl
@[simp] theorem modAlarms_pool (n : Fin 12) (f : Alarms → Alarms) : (s.modAlarms n f).pool = s.pool := rfl
@[simp] theorem modAlarms_cues (n : Fin 12) (f : Alarms → Alarms) : (s.modAlarms n f).cues = s.cues := rfl
@[simp] theorem modAlarms_booth (n : Fin 12) (f : Alarms → Alarms) : (s.modAlarms n f).booth = s.booth := rfl
@[simp] theorem modAlarms_noise (n : Fin 12) (f : Alarms → Alarms) : (s.modAlarms n f).noise = s.noise := rfl
@[simp] theorem modAlarms_blockPeriods (n : Fin 12) (f : Alarms → Alarms) : (s.modAlarms n f).blockPeriods = s.blockPeriods := rfl
@[simp] theorem modAlarms_lateDraws (n : Fin 12) (f : Alarms → Alarms) : (s.modAlarms n f).lateDraws = s.lateDraws := rfl
@[simp] theorem modAlarms_toneGain (n : Fin 12) (f : Alarms → Alarms) : (s.modAlarms n f).toneGain = s.toneGain := rfl
@[simp] theorem modAlarms_context (n : Fin 12) (f : Alarms → Alarms) : (s.modAlarms n f).context = s.context := rfl
@[simp] theorem modAlarms_micOffset (n : Fin 12) (f : Alarms → Alarms) : (s.modAlarms n f).micOffset = s.micOffset := rfl
@[simp] theorem modAlarms_blockClosed (n : Fin 12) (f : Alarms → Alarms) : (s.modAlarms n f).blockClosed = s.blockClosed := rfl
@[simp] theorem modAlarms_intervalTaken (n : Fin 12) (f : Alarms → Alarms) : (s.modAlarms n f).intervalTaken = s.intervalTaken := rfl
@[simp] theorem modAlarms_measureStepped (n : Fin 12) (f : Alarms → Alarms) : (s.modAlarms n f).measureStepped = s.measureStepped := rfl
@[simp] theorem modAlarms_pending (n : Fin 12) (f : Alarms → Alarms) : (s.modAlarms n f).pending = s.pending := rfl

/-! ### `modRoute` -/
@[simp] theorem modRoute_ports (n : Fin 12) (f : Route → Route) : (s.modRoute n f).ports = s.ports := rfl
@[simp] theorem modRoute_mark (n : Fin 12) (f : Route → Route) : (s.modRoute n f).mark = s.mark := rfl
@[simp] theorem modRoute_screens (n : Fin 12) (f : Route → Route) : (s.modRoute n f).screens = s.screens := rfl
@[simp] theorem modRoute_stampCounter (n : Fin 12) (f : Route → Route) : (s.modRoute n f).stampCounter = s.stampCounter := rfl
@[simp] theorem modRoute_evac (n : Fin 12) (f : Route → Route) : (s.modRoute n f).evac = s.evac := rfl
@[simp] theorem modRoute_lanes (n : Fin 12) (f : Route → Route) : (s.modRoute n f).lanes = s.lanes := rfl
@[simp] theorem modRoute_clock (n : Fin 12) (f : Route → Route) : (s.modRoute n f).clock = s.clock := rfl
@[simp] theorem modRoute_blockCount (n : Fin 12) (f : Route → Route) : (s.modRoute n f).blockCount = s.blockCount := rfl
@[simp] theorem modRoute_returnWords (n : Fin 12) (f : Route → Route) : (s.modRoute n f).returnWords = s.returnWords := rfl
@[simp] theorem modRoute_outputs (n : Fin 12) (f : Route → Route) : (s.modRoute n f).outputs = s.outputs := rfl
@[simp] theorem modRoute_layouts (n : Fin 12) (f : Route → Route) : (s.modRoute n f).layouts = s.layouts := rfl
@[simp] theorem modRoute_routes (n : Fin 12) (f : Route → Route) : (s.modRoute n f).routes = s.routes.modify n f := rfl
@[simp] theorem modRoute_pagingStep (n : Fin 12) (f : Route → Route) : (s.modRoute n f).pagingStep = s.pagingStep := rfl
@[simp] theorem modRoute_attenuations (n : Fin 12) (f : Route → Route) : (s.modRoute n f).attenuations = s.attenuations := rfl
@[simp] theorem modRoute_badPages (n : Fin 12) (f : Route → Route) : (s.modRoute n f).badPages = s.badPages := rfl
@[simp] theorem modRoute_selftest (n : Fin 12) (f : Route → Route) : (s.modRoute n f).selftest = s.selftest := rfl
@[simp] theorem modRoute_meters (n : Fin 12) (f : Route → Route) : (s.modRoute n f).meters = s.meters := rfl
@[simp] theorem modRoute_micRunning (n : Fin 12) (f : Route → Route) : (s.modRoute n f).micRunning = s.micRunning := rfl
@[simp] theorem modRoute_micEnergy (n : Fin 12) (f : Route → Route) : (s.modRoute n f).micEnergy = s.micEnergy := rfl
@[simp] theorem modRoute_alarms (n : Fin 12) (f : Route → Route) : (s.modRoute n f).alarms = s.alarms := rfl
@[simp] theorem modRoute_returnLanes (n : Fin 12) (f : Route → Route) : (s.modRoute n f).returnLanes = s.returnLanes := rfl
@[simp] theorem modRoute_budget (n : Fin 12) (f : Route → Route) : (s.modRoute n f).budget = s.budget := rfl
@[simp] theorem modRoute_grants (n : Fin 12) (f : Route → Route) : (s.modRoute n f).grants = s.grants := rfl
@[simp] theorem modRoute_pool (n : Fin 12) (f : Route → Route) : (s.modRoute n f).pool = s.pool := rfl
@[simp] theorem modRoute_cues (n : Fin 12) (f : Route → Route) : (s.modRoute n f).cues = s.cues := rfl
@[simp] theorem modRoute_booth (n : Fin 12) (f : Route → Route) : (s.modRoute n f).booth = s.booth := rfl
@[simp] theorem modRoute_noise (n : Fin 12) (f : Route → Route) : (s.modRoute n f).noise = s.noise := rfl
@[simp] theorem modRoute_blockPeriods (n : Fin 12) (f : Route → Route) : (s.modRoute n f).blockPeriods = s.blockPeriods := rfl
@[simp] theorem modRoute_lateDraws (n : Fin 12) (f : Route → Route) : (s.modRoute n f).lateDraws = s.lateDraws := rfl
@[simp] theorem modRoute_toneGain (n : Fin 12) (f : Route → Route) : (s.modRoute n f).toneGain = s.toneGain := rfl
@[simp] theorem modRoute_context (n : Fin 12) (f : Route → Route) : (s.modRoute n f).context = s.context := rfl
@[simp] theorem modRoute_micOffset (n : Fin 12) (f : Route → Route) : (s.modRoute n f).micOffset = s.micOffset := rfl
@[simp] theorem modRoute_blockClosed (n : Fin 12) (f : Route → Route) : (s.modRoute n f).blockClosed = s.blockClosed := rfl
@[simp] theorem modRoute_intervalTaken (n : Fin 12) (f : Route → Route) : (s.modRoute n f).intervalTaken = s.intervalTaken := rfl
@[simp] theorem modRoute_measureStepped (n : Fin 12) (f : Route → Route) : (s.modRoute n f).measureStepped = s.measureStepped := rfl
@[simp] theorem modRoute_pending (n : Fin 12) (f : Route → Route) : (s.modRoute n f).pending = s.pending := rfl

/-! ### `modAttenuation` -/
@[simp] theorem modAttenuation_ports (n : Fin 12) (f : Attenuation → Attenuation) : (s.modAttenuation n f).ports = s.ports := rfl
@[simp] theorem modAttenuation_mark (n : Fin 12) (f : Attenuation → Attenuation) : (s.modAttenuation n f).mark = s.mark := rfl
@[simp] theorem modAttenuation_screens (n : Fin 12) (f : Attenuation → Attenuation) : (s.modAttenuation n f).screens = s.screens := rfl
@[simp] theorem modAttenuation_stampCounter (n : Fin 12) (f : Attenuation → Attenuation) : (s.modAttenuation n f).stampCounter = s.stampCounter := rfl
@[simp] theorem modAttenuation_evac (n : Fin 12) (f : Attenuation → Attenuation) : (s.modAttenuation n f).evac = s.evac := rfl
@[simp] theorem modAttenuation_lanes (n : Fin 12) (f : Attenuation → Attenuation) : (s.modAttenuation n f).lanes = s.lanes := rfl
@[simp] theorem modAttenuation_clock (n : Fin 12) (f : Attenuation → Attenuation) : (s.modAttenuation n f).clock = s.clock := rfl
@[simp] theorem modAttenuation_blockCount (n : Fin 12) (f : Attenuation → Attenuation) : (s.modAttenuation n f).blockCount = s.blockCount := rfl
@[simp] theorem modAttenuation_returnWords (n : Fin 12) (f : Attenuation → Attenuation) : (s.modAttenuation n f).returnWords = s.returnWords := rfl
@[simp] theorem modAttenuation_outputs (n : Fin 12) (f : Attenuation → Attenuation) : (s.modAttenuation n f).outputs = s.outputs := rfl
@[simp] theorem modAttenuation_layouts (n : Fin 12) (f : Attenuation → Attenuation) : (s.modAttenuation n f).layouts = s.layouts := rfl
@[simp] theorem modAttenuation_routes (n : Fin 12) (f : Attenuation → Attenuation) : (s.modAttenuation n f).routes = s.routes := rfl
@[simp] theorem modAttenuation_pagingStep (n : Fin 12) (f : Attenuation → Attenuation) : (s.modAttenuation n f).pagingStep = s.pagingStep := rfl
@[simp] theorem modAttenuation_attenuations (n : Fin 12) (f : Attenuation → Attenuation) : (s.modAttenuation n f).attenuations = s.attenuations.modify n f := rfl
@[simp] theorem modAttenuation_badPages (n : Fin 12) (f : Attenuation → Attenuation) : (s.modAttenuation n f).badPages = s.badPages := rfl
@[simp] theorem modAttenuation_selftest (n : Fin 12) (f : Attenuation → Attenuation) : (s.modAttenuation n f).selftest = s.selftest := rfl
@[simp] theorem modAttenuation_meters (n : Fin 12) (f : Attenuation → Attenuation) : (s.modAttenuation n f).meters = s.meters := rfl
@[simp] theorem modAttenuation_micRunning (n : Fin 12) (f : Attenuation → Attenuation) : (s.modAttenuation n f).micRunning = s.micRunning := rfl
@[simp] theorem modAttenuation_micEnergy (n : Fin 12) (f : Attenuation → Attenuation) : (s.modAttenuation n f).micEnergy = s.micEnergy := rfl
@[simp] theorem modAttenuation_alarms (n : Fin 12) (f : Attenuation → Attenuation) : (s.modAttenuation n f).alarms = s.alarms := rfl
@[simp] theorem modAttenuation_returnLanes (n : Fin 12) (f : Attenuation → Attenuation) : (s.modAttenuation n f).returnLanes = s.returnLanes := rfl
@[simp] theorem modAttenuation_budget (n : Fin 12) (f : Attenuation → Attenuation) : (s.modAttenuation n f).budget = s.budget := rfl
@[simp] theorem modAttenuation_grants (n : Fin 12) (f : Attenuation → Attenuation) : (s.modAttenuation n f).grants = s.grants := rfl
@[simp] theorem modAttenuation_pool (n : Fin 12) (f : Attenuation → Attenuation) : (s.modAttenuation n f).pool = s.pool := rfl
@[simp] theorem modAttenuation_cues (n : Fin 12) (f : Attenuation → Attenuation) : (s.modAttenuation n f).cues = s.cues := rfl
@[simp] theorem modAttenuation_booth (n : Fin 12) (f : Attenuation → Attenuation) : (s.modAttenuation n f).booth = s.booth := rfl
@[simp] theorem modAttenuation_noise (n : Fin 12) (f : Attenuation → Attenuation) : (s.modAttenuation n f).noise = s.noise := rfl
@[simp] theorem modAttenuation_blockPeriods (n : Fin 12) (f : Attenuation → Attenuation) : (s.modAttenuation n f).blockPeriods = s.blockPeriods := rfl
@[simp] theorem modAttenuation_lateDraws (n : Fin 12) (f : Attenuation → Attenuation) : (s.modAttenuation n f).lateDraws = s.lateDraws := rfl
@[simp] theorem modAttenuation_toneGain (n : Fin 12) (f : Attenuation → Attenuation) : (s.modAttenuation n f).toneGain = s.toneGain := rfl
@[simp] theorem modAttenuation_context (n : Fin 12) (f : Attenuation → Attenuation) : (s.modAttenuation n f).context = s.context := rfl
@[simp] theorem modAttenuation_micOffset (n : Fin 12) (f : Attenuation → Attenuation) : (s.modAttenuation n f).micOffset = s.micOffset := rfl
@[simp] theorem modAttenuation_blockClosed (n : Fin 12) (f : Attenuation → Attenuation) : (s.modAttenuation n f).blockClosed = s.blockClosed := rfl
@[simp] theorem modAttenuation_intervalTaken (n : Fin 12) (f : Attenuation → Attenuation) : (s.modAttenuation n f).intervalTaken = s.intervalTaken := rfl
@[simp] theorem modAttenuation_measureStepped (n : Fin 12) (f : Attenuation → Attenuation) : (s.modAttenuation n f).measureStepped = s.measureStepped := rfl
@[simp] theorem modAttenuation_pending (n : Fin 12) (f : Attenuation → Attenuation) : (s.modAttenuation n f).pending = s.pending := rfl

/-! ### `modGrant` -/
@[simp] theorem modGrant_ports (n : Fin 12) (f : Grant → Grant) : (s.modGrant n f).ports = s.ports := rfl
@[simp] theorem modGrant_mark (n : Fin 12) (f : Grant → Grant) : (s.modGrant n f).mark = s.mark := rfl
@[simp] theorem modGrant_screens (n : Fin 12) (f : Grant → Grant) : (s.modGrant n f).screens = s.screens := rfl
@[simp] theorem modGrant_stampCounter (n : Fin 12) (f : Grant → Grant) : (s.modGrant n f).stampCounter = s.stampCounter := rfl
@[simp] theorem modGrant_evac (n : Fin 12) (f : Grant → Grant) : (s.modGrant n f).evac = s.evac := rfl
@[simp] theorem modGrant_lanes (n : Fin 12) (f : Grant → Grant) : (s.modGrant n f).lanes = s.lanes := rfl
@[simp] theorem modGrant_clock (n : Fin 12) (f : Grant → Grant) : (s.modGrant n f).clock = s.clock := rfl
@[simp] theorem modGrant_blockCount (n : Fin 12) (f : Grant → Grant) : (s.modGrant n f).blockCount = s.blockCount := rfl
@[simp] theorem modGrant_returnWords (n : Fin 12) (f : Grant → Grant) : (s.modGrant n f).returnWords = s.returnWords := rfl
@[simp] theorem modGrant_outputs (n : Fin 12) (f : Grant → Grant) : (s.modGrant n f).outputs = s.outputs := rfl
@[simp] theorem modGrant_layouts (n : Fin 12) (f : Grant → Grant) : (s.modGrant n f).layouts = s.layouts := rfl
@[simp] theorem modGrant_routes (n : Fin 12) (f : Grant → Grant) : (s.modGrant n f).routes = s.routes := rfl
@[simp] theorem modGrant_pagingStep (n : Fin 12) (f : Grant → Grant) : (s.modGrant n f).pagingStep = s.pagingStep := rfl
@[simp] theorem modGrant_attenuations (n : Fin 12) (f : Grant → Grant) : (s.modGrant n f).attenuations = s.attenuations := rfl
@[simp] theorem modGrant_badPages (n : Fin 12) (f : Grant → Grant) : (s.modGrant n f).badPages = s.badPages := rfl
@[simp] theorem modGrant_selftest (n : Fin 12) (f : Grant → Grant) : (s.modGrant n f).selftest = s.selftest := rfl
@[simp] theorem modGrant_meters (n : Fin 12) (f : Grant → Grant) : (s.modGrant n f).meters = s.meters := rfl
@[simp] theorem modGrant_micRunning (n : Fin 12) (f : Grant → Grant) : (s.modGrant n f).micRunning = s.micRunning := rfl
@[simp] theorem modGrant_micEnergy (n : Fin 12) (f : Grant → Grant) : (s.modGrant n f).micEnergy = s.micEnergy := rfl
@[simp] theorem modGrant_alarms (n : Fin 12) (f : Grant → Grant) : (s.modGrant n f).alarms = s.alarms := rfl
@[simp] theorem modGrant_returnLanes (n : Fin 12) (f : Grant → Grant) : (s.modGrant n f).returnLanes = s.returnLanes := rfl
@[simp] theorem modGrant_budget (n : Fin 12) (f : Grant → Grant) : (s.modGrant n f).budget = s.budget := rfl
@[simp] theorem modGrant_grants (n : Fin 12) (f : Grant → Grant) : (s.modGrant n f).grants = s.grants.modify n f := rfl
@[simp] theorem modGrant_pool (n : Fin 12) (f : Grant → Grant) : (s.modGrant n f).pool = s.pool := rfl
@[simp] theorem modGrant_cues (n : Fin 12) (f : Grant → Grant) : (s.modGrant n f).cues = s.cues := rfl
@[simp] theorem modGrant_booth (n : Fin 12) (f : Grant → Grant) : (s.modGrant n f).booth = s.booth := rfl
@[simp] theorem modGrant_noise (n : Fin 12) (f : Grant → Grant) : (s.modGrant n f).noise = s.noise := rfl
@[simp] theorem modGrant_blockPeriods (n : Fin 12) (f : Grant → Grant) : (s.modGrant n f).blockPeriods = s.blockPeriods := rfl
@[simp] theorem modGrant_lateDraws (n : Fin 12) (f : Grant → Grant) : (s.modGrant n f).lateDraws = s.lateDraws := rfl
@[simp] theorem modGrant_toneGain (n : Fin 12) (f : Grant → Grant) : (s.modGrant n f).toneGain = s.toneGain := rfl
@[simp] theorem modGrant_context (n : Fin 12) (f : Grant → Grant) : (s.modGrant n f).context = s.context := rfl
@[simp] theorem modGrant_micOffset (n : Fin 12) (f : Grant → Grant) : (s.modGrant n f).micOffset = s.micOffset := rfl
@[simp] theorem modGrant_blockClosed (n : Fin 12) (f : Grant → Grant) : (s.modGrant n f).blockClosed = s.blockClosed := rfl
@[simp] theorem modGrant_intervalTaken (n : Fin 12) (f : Grant → Grant) : (s.modGrant n f).intervalTaken = s.intervalTaken := rfl
@[simp] theorem modGrant_measureStepped (n : Fin 12) (f : Grant → Grant) : (s.modGrant n f).measureStepped = s.measureStepped := rfl
@[simp] theorem modGrant_pending (n : Fin 12) (f : Grant → Grant) : (s.modGrant n f).pending = s.pending := rfl

/-! ### `modCues` -/
@[simp] theorem modCues_ports (n : Fin 12) (f : CueScreen → CueScreen) : (s.modCues n f).ports = s.ports := rfl
@[simp] theorem modCues_mark (n : Fin 12) (f : CueScreen → CueScreen) : (s.modCues n f).mark = s.mark := rfl
@[simp] theorem modCues_screens (n : Fin 12) (f : CueScreen → CueScreen) : (s.modCues n f).screens = s.screens := rfl
@[simp] theorem modCues_stampCounter (n : Fin 12) (f : CueScreen → CueScreen) : (s.modCues n f).stampCounter = s.stampCounter := rfl
@[simp] theorem modCues_evac (n : Fin 12) (f : CueScreen → CueScreen) : (s.modCues n f).evac = s.evac := rfl
@[simp] theorem modCues_lanes (n : Fin 12) (f : CueScreen → CueScreen) : (s.modCues n f).lanes = s.lanes := rfl
@[simp] theorem modCues_clock (n : Fin 12) (f : CueScreen → CueScreen) : (s.modCues n f).clock = s.clock := rfl
@[simp] theorem modCues_blockCount (n : Fin 12) (f : CueScreen → CueScreen) : (s.modCues n f).blockCount = s.blockCount := rfl
@[simp] theorem modCues_returnWords (n : Fin 12) (f : CueScreen → CueScreen) : (s.modCues n f).returnWords = s.returnWords := rfl
@[simp] theorem modCues_outputs (n : Fin 12) (f : CueScreen → CueScreen) : (s.modCues n f).outputs = s.outputs := rfl
@[simp] theorem modCues_layouts (n : Fin 12) (f : CueScreen → CueScreen) : (s.modCues n f).layouts = s.layouts := rfl
@[simp] theorem modCues_routes (n : Fin 12) (f : CueScreen → CueScreen) : (s.modCues n f).routes = s.routes := rfl
@[simp] theorem modCues_pagingStep (n : Fin 12) (f : CueScreen → CueScreen) : (s.modCues n f).pagingStep = s.pagingStep := rfl
@[simp] theorem modCues_attenuations (n : Fin 12) (f : CueScreen → CueScreen) : (s.modCues n f).attenuations = s.attenuations := rfl
@[simp] theorem modCues_badPages (n : Fin 12) (f : CueScreen → CueScreen) : (s.modCues n f).badPages = s.badPages := rfl
@[simp] theorem modCues_selftest (n : Fin 12) (f : CueScreen → CueScreen) : (s.modCues n f).selftest = s.selftest := rfl
@[simp] theorem modCues_meters (n : Fin 12) (f : CueScreen → CueScreen) : (s.modCues n f).meters = s.meters := rfl
@[simp] theorem modCues_micRunning (n : Fin 12) (f : CueScreen → CueScreen) : (s.modCues n f).micRunning = s.micRunning := rfl
@[simp] theorem modCues_micEnergy (n : Fin 12) (f : CueScreen → CueScreen) : (s.modCues n f).micEnergy = s.micEnergy := rfl
@[simp] theorem modCues_alarms (n : Fin 12) (f : CueScreen → CueScreen) : (s.modCues n f).alarms = s.alarms := rfl
@[simp] theorem modCues_returnLanes (n : Fin 12) (f : CueScreen → CueScreen) : (s.modCues n f).returnLanes = s.returnLanes := rfl
@[simp] theorem modCues_budget (n : Fin 12) (f : CueScreen → CueScreen) : (s.modCues n f).budget = s.budget := rfl
@[simp] theorem modCues_grants (n : Fin 12) (f : CueScreen → CueScreen) : (s.modCues n f).grants = s.grants := rfl
@[simp] theorem modCues_pool (n : Fin 12) (f : CueScreen → CueScreen) : (s.modCues n f).pool = s.pool := rfl
@[simp] theorem modCues_cues (n : Fin 12) (f : CueScreen → CueScreen) : (s.modCues n f).cues = s.cues.modify n f := rfl
@[simp] theorem modCues_booth (n : Fin 12) (f : CueScreen → CueScreen) : (s.modCues n f).booth = s.booth := rfl
@[simp] theorem modCues_noise (n : Fin 12) (f : CueScreen → CueScreen) : (s.modCues n f).noise = s.noise := rfl
@[simp] theorem modCues_blockPeriods (n : Fin 12) (f : CueScreen → CueScreen) : (s.modCues n f).blockPeriods = s.blockPeriods := rfl
@[simp] theorem modCues_lateDraws (n : Fin 12) (f : CueScreen → CueScreen) : (s.modCues n f).lateDraws = s.lateDraws := rfl
@[simp] theorem modCues_toneGain (n : Fin 12) (f : CueScreen → CueScreen) : (s.modCues n f).toneGain = s.toneGain := rfl
@[simp] theorem modCues_context (n : Fin 12) (f : CueScreen → CueScreen) : (s.modCues n f).context = s.context := rfl
@[simp] theorem modCues_micOffset (n : Fin 12) (f : CueScreen → CueScreen) : (s.modCues n f).micOffset = s.micOffset := rfl
@[simp] theorem modCues_blockClosed (n : Fin 12) (f : CueScreen → CueScreen) : (s.modCues n f).blockClosed = s.blockClosed := rfl
@[simp] theorem modCues_intervalTaken (n : Fin 12) (f : CueScreen → CueScreen) : (s.modCues n f).intervalTaken = s.intervalTaken := rfl
@[simp] theorem modCues_measureStepped (n : Fin 12) (f : CueScreen → CueScreen) : (s.modCues n f).measureStepped = s.measureStepped := rfl
@[simp] theorem modCues_pending (n : Fin 12) (f : CueScreen → CueScreen) : (s.modCues n f).pending = s.pending := rfl

/-! ### `modReturnLane` -/
@[simp] theorem modReturnLane_ports (l : Fin 12) (f : ReturnLane → ReturnLane) : (s.modReturnLane l f).ports = s.ports := rfl
@[simp] theorem modReturnLane_mark (l : Fin 12) (f : ReturnLane → ReturnLane) : (s.modReturnLane l f).mark = s.mark := rfl
@[simp] theorem modReturnLane_screens (l : Fin 12) (f : ReturnLane → ReturnLane) : (s.modReturnLane l f).screens = s.screens := rfl
@[simp] theorem modReturnLane_stampCounter (l : Fin 12) (f : ReturnLane → ReturnLane) : (s.modReturnLane l f).stampCounter = s.stampCounter := rfl
@[simp] theorem modReturnLane_evac (l : Fin 12) (f : ReturnLane → ReturnLane) : (s.modReturnLane l f).evac = s.evac := rfl
@[simp] theorem modReturnLane_lanes (l : Fin 12) (f : ReturnLane → ReturnLane) : (s.modReturnLane l f).lanes = s.lanes := rfl
@[simp] theorem modReturnLane_clock (l : Fin 12) (f : ReturnLane → ReturnLane) : (s.modReturnLane l f).clock = s.clock := rfl
@[simp] theorem modReturnLane_blockCount (l : Fin 12) (f : ReturnLane → ReturnLane) : (s.modReturnLane l f).blockCount = s.blockCount := rfl
@[simp] theorem modReturnLane_returnWords (l : Fin 12) (f : ReturnLane → ReturnLane) : (s.modReturnLane l f).returnWords = s.returnWords := rfl
@[simp] theorem modReturnLane_outputs (l : Fin 12) (f : ReturnLane → ReturnLane) : (s.modReturnLane l f).outputs = s.outputs := rfl
@[simp] theorem modReturnLane_layouts (l : Fin 12) (f : ReturnLane → ReturnLane) : (s.modReturnLane l f).layouts = s.layouts := rfl
@[simp] theorem modReturnLane_routes (l : Fin 12) (f : ReturnLane → ReturnLane) : (s.modReturnLane l f).routes = s.routes := rfl
@[simp] theorem modReturnLane_pagingStep (l : Fin 12) (f : ReturnLane → ReturnLane) : (s.modReturnLane l f).pagingStep = s.pagingStep := rfl
@[simp] theorem modReturnLane_attenuations (l : Fin 12) (f : ReturnLane → ReturnLane) : (s.modReturnLane l f).attenuations = s.attenuations := rfl
@[simp] theorem modReturnLane_badPages (l : Fin 12) (f : ReturnLane → ReturnLane) : (s.modReturnLane l f).badPages = s.badPages := rfl
@[simp] theorem modReturnLane_selftest (l : Fin 12) (f : ReturnLane → ReturnLane) : (s.modReturnLane l f).selftest = s.selftest := rfl
@[simp] theorem modReturnLane_meters (l : Fin 12) (f : ReturnLane → ReturnLane) : (s.modReturnLane l f).meters = s.meters := rfl
@[simp] theorem modReturnLane_micRunning (l : Fin 12) (f : ReturnLane → ReturnLane) : (s.modReturnLane l f).micRunning = s.micRunning := rfl
@[simp] theorem modReturnLane_micEnergy (l : Fin 12) (f : ReturnLane → ReturnLane) : (s.modReturnLane l f).micEnergy = s.micEnergy := rfl
@[simp] theorem modReturnLane_alarms (l : Fin 12) (f : ReturnLane → ReturnLane) : (s.modReturnLane l f).alarms = s.alarms := rfl
@[simp] theorem modReturnLane_returnLanes (l : Fin 12) (f : ReturnLane → ReturnLane) : (s.modReturnLane l f).returnLanes = s.returnLanes.modify l f := rfl
@[simp] theorem modReturnLane_budget (l : Fin 12) (f : ReturnLane → ReturnLane) : (s.modReturnLane l f).budget = s.budget := rfl
@[simp] theorem modReturnLane_grants (l : Fin 12) (f : ReturnLane → ReturnLane) : (s.modReturnLane l f).grants = s.grants := rfl
@[simp] theorem modReturnLane_pool (l : Fin 12) (f : ReturnLane → ReturnLane) : (s.modReturnLane l f).pool = s.pool := rfl
@[simp] theorem modReturnLane_cues (l : Fin 12) (f : ReturnLane → ReturnLane) : (s.modReturnLane l f).cues = s.cues := rfl
@[simp] theorem modReturnLane_booth (l : Fin 12) (f : ReturnLane → ReturnLane) : (s.modReturnLane l f).booth = s.booth := rfl
@[simp] theorem modReturnLane_noise (l : Fin 12) (f : ReturnLane → ReturnLane) : (s.modReturnLane l f).noise = s.noise := rfl
@[simp] theorem modReturnLane_blockPeriods (l : Fin 12) (f : ReturnLane → ReturnLane) : (s.modReturnLane l f).blockPeriods = s.blockPeriods := rfl
@[simp] theorem modReturnLane_lateDraws (l : Fin 12) (f : ReturnLane → ReturnLane) : (s.modReturnLane l f).lateDraws = s.lateDraws := rfl
@[simp] theorem modReturnLane_toneGain (l : Fin 12) (f : ReturnLane → ReturnLane) : (s.modReturnLane l f).toneGain = s.toneGain := rfl
@[simp] theorem modReturnLane_context (l : Fin 12) (f : ReturnLane → ReturnLane) : (s.modReturnLane l f).context = s.context := rfl
@[simp] theorem modReturnLane_micOffset (l : Fin 12) (f : ReturnLane → ReturnLane) : (s.modReturnLane l f).micOffset = s.micOffset := rfl
@[simp] theorem modReturnLane_blockClosed (l : Fin 12) (f : ReturnLane → ReturnLane) : (s.modReturnLane l f).blockClosed = s.blockClosed := rfl
@[simp] theorem modReturnLane_intervalTaken (l : Fin 12) (f : ReturnLane → ReturnLane) : (s.modReturnLane l f).intervalTaken = s.intervalTaken := rfl
@[simp] theorem modReturnLane_measureStepped (l : Fin 12) (f : ReturnLane → ReturnLane) : (s.modReturnLane l f).measureStepped = s.measureStepped := rfl
@[simp] theorem modReturnLane_pending (l : Fin 12) (f : ReturnLane → ReturnLane) : (s.modReturnLane l f).pending = s.pending := rfl

/-! ### `notify` -/
@[simp] theorem notify_ports (m : Notice) : (s.notify m).ports = s.ports.map (Port.offer m) := rfl
@[simp] theorem notify_mark (m : Notice) : (s.notify m).mark = s.mark := rfl
@[simp] theorem notify_screens (m : Notice) : (s.notify m).screens = s.screens := rfl
@[simp] theorem notify_stampCounter (m : Notice) : (s.notify m).stampCounter = s.stampCounter := rfl
@[simp] theorem notify_evac (m : Notice) : (s.notify m).evac = s.evac := rfl
@[simp] theorem notify_lanes (m : Notice) : (s.notify m).lanes = s.lanes := rfl
@[simp] theorem notify_clock (m : Notice) : (s.notify m).clock = s.clock := rfl
@[simp] theorem notify_blockCount (m : Notice) : (s.notify m).blockCount = s.blockCount := rfl
@[simp] theorem notify_returnWords (m : Notice) : (s.notify m).returnWords = s.returnWords := rfl
@[simp] theorem notify_outputs (m : Notice) : (s.notify m).outputs = s.outputs := rfl
@[simp] theorem notify_layouts (m : Notice) : (s.notify m).layouts = s.layouts := rfl
@[simp] theorem notify_routes (m : Notice) : (s.notify m).routes = s.routes := rfl
@[simp] theorem notify_pagingStep (m : Notice) : (s.notify m).pagingStep = s.pagingStep := rfl
@[simp] theorem notify_attenuations (m : Notice) : (s.notify m).attenuations = s.attenuations := rfl
@[simp] theorem notify_badPages (m : Notice) : (s.notify m).badPages = s.badPages := rfl
@[simp] theorem notify_selftest (m : Notice) : (s.notify m).selftest = s.selftest := rfl
@[simp] theorem notify_meters (m : Notice) : (s.notify m).meters = s.meters := rfl
@[simp] theorem notify_micRunning (m : Notice) : (s.notify m).micRunning = s.micRunning := rfl
@[simp] theorem notify_micEnergy (m : Notice) : (s.notify m).micEnergy = s.micEnergy := rfl
@[simp] theorem notify_alarms (m : Notice) : (s.notify m).alarms = s.alarms := rfl
@[simp] theorem notify_returnLanes (m : Notice) : (s.notify m).returnLanes = s.returnLanes := rfl
@[simp] theorem notify_budget (m : Notice) : (s.notify m).budget = s.budget := rfl
@[simp] theorem notify_grants (m : Notice) : (s.notify m).grants = s.grants := rfl
@[simp] theorem notify_pool (m : Notice) : (s.notify m).pool = s.pool := rfl
@[simp] theorem notify_cues (m : Notice) : (s.notify m).cues = s.cues := rfl
@[simp] theorem notify_booth (m : Notice) : (s.notify m).booth = s.booth := rfl
@[simp] theorem notify_noise (m : Notice) : (s.notify m).noise = s.noise := rfl
@[simp] theorem notify_blockPeriods (m : Notice) : (s.notify m).blockPeriods = s.blockPeriods := rfl
@[simp] theorem notify_lateDraws (m : Notice) : (s.notify m).lateDraws = s.lateDraws := rfl
@[simp] theorem notify_toneGain (m : Notice) : (s.notify m).toneGain = s.toneGain := rfl
@[simp] theorem notify_context (m : Notice) : (s.notify m).context = s.context := rfl
@[simp] theorem notify_micOffset (m : Notice) : (s.notify m).micOffset = s.micOffset := rfl
@[simp] theorem notify_blockClosed (m : Notice) : (s.notify m).blockClosed = s.blockClosed := rfl
@[simp] theorem notify_intervalTaken (m : Notice) : (s.notify m).intervalTaken = s.intervalTaken := rfl
@[simp] theorem notify_measureStepped (m : Notice) : (s.notify m).measureStepped = s.measureStepped := rfl
@[simp] theorem notify_pending (m : Notice) : (s.notify m).pending = s.pending := rfl

/-! ### `setCue` -/
@[simp] theorem setCue_ports (e : Fin 512) (c : Cue) : (s.setCue e c).ports = s.ports := rfl
@[simp] theorem setCue_mark (e : Fin 512) (c : Cue) : (s.setCue e c).mark = s.mark := rfl
@[simp] theorem setCue_screens (e : Fin 512) (c : Cue) : (s.setCue e c).screens = s.screens := rfl
@[simp] theorem setCue_stampCounter (e : Fin 512) (c : Cue) : (s.setCue e c).stampCounter = s.stampCounter := rfl
@[simp] theorem setCue_evac (e : Fin 512) (c : Cue) : (s.setCue e c).evac = s.evac := rfl
@[simp] theorem setCue_lanes (e : Fin 512) (c : Cue) : (s.setCue e c).lanes = s.lanes := rfl
@[simp] theorem setCue_clock (e : Fin 512) (c : Cue) : (s.setCue e c).clock = s.clock := rfl
@[simp] theorem setCue_blockCount (e : Fin 512) (c : Cue) : (s.setCue e c).blockCount = s.blockCount := rfl
@[simp] theorem setCue_returnWords (e : Fin 512) (c : Cue) : (s.setCue e c).returnWords = s.returnWords := rfl
@[simp] theorem setCue_outputs (e : Fin 512) (c : Cue) : (s.setCue e c).outputs = s.outputs := rfl
@[simp] theorem setCue_layouts (e : Fin 512) (c : Cue) : (s.setCue e c).layouts = s.layouts := rfl
@[simp] theorem setCue_routes (e : Fin 512) (c : Cue) : (s.setCue e c).routes = s.routes := rfl
@[simp] theorem setCue_pagingStep (e : Fin 512) (c : Cue) : (s.setCue e c).pagingStep = s.pagingStep := rfl
@[simp] theorem setCue_attenuations (e : Fin 512) (c : Cue) : (s.setCue e c).attenuations = s.attenuations := rfl
@[simp] theorem setCue_badPages (e : Fin 512) (c : Cue) : (s.setCue e c).badPages = s.badPages := rfl
@[simp] theorem setCue_selftest (e : Fin 512) (c : Cue) : (s.setCue e c).selftest = s.selftest := rfl
@[simp] theorem setCue_meters (e : Fin 512) (c : Cue) : (s.setCue e c).meters = s.meters := rfl
@[simp] theorem setCue_micRunning (e : Fin 512) (c : Cue) : (s.setCue e c).micRunning = s.micRunning := rfl
@[simp] theorem setCue_micEnergy (e : Fin 512) (c : Cue) : (s.setCue e c).micEnergy = s.micEnergy := rfl
@[simp] theorem setCue_alarms (e : Fin 512) (c : Cue) : (s.setCue e c).alarms = s.alarms := rfl
@[simp] theorem setCue_returnLanes (e : Fin 512) (c : Cue) : (s.setCue e c).returnLanes = s.returnLanes := rfl
@[simp] theorem setCue_budget (e : Fin 512) (c : Cue) : (s.setCue e c).budget = s.budget := rfl
@[simp] theorem setCue_grants (e : Fin 512) (c : Cue) : (s.setCue e c).grants = s.grants := rfl
@[simp] theorem setCue_pool (e : Fin 512) (c : Cue) : (s.setCue e c).pool = s.pool.set e (some c) := rfl
@[simp] theorem setCue_cues (e : Fin 512) (c : Cue) : (s.setCue e c).cues = s.cues := rfl
@[simp] theorem setCue_booth (e : Fin 512) (c : Cue) : (s.setCue e c).booth = s.booth := rfl
@[simp] theorem setCue_noise (e : Fin 512) (c : Cue) : (s.setCue e c).noise = s.noise := rfl
@[simp] theorem setCue_blockPeriods (e : Fin 512) (c : Cue) : (s.setCue e c).blockPeriods = s.blockPeriods := rfl
@[simp] theorem setCue_lateDraws (e : Fin 512) (c : Cue) : (s.setCue e c).lateDraws = s.lateDraws := rfl
@[simp] theorem setCue_toneGain (e : Fin 512) (c : Cue) : (s.setCue e c).toneGain = s.toneGain := rfl
@[simp] theorem setCue_context (e : Fin 512) (c : Cue) : (s.setCue e c).context = s.context := rfl
@[simp] theorem setCue_micOffset (e : Fin 512) (c : Cue) : (s.setCue e c).micOffset = s.micOffset := rfl
@[simp] theorem setCue_blockClosed (e : Fin 512) (c : Cue) : (s.setCue e c).blockClosed = s.blockClosed := rfl
@[simp] theorem setCue_intervalTaken (e : Fin 512) (c : Cue) : (s.setCue e c).intervalTaken = s.intervalTaken := rfl
@[simp] theorem setCue_measureStepped (e : Fin 512) (c : Cue) : (s.setCue e c).measureStepped = s.measureStepped := rfl
@[simp] theorem setCue_pending (e : Fin 512) (c : Cue) : (s.setCue e c).pending = s.pending := rfl

/-! ### The line operations -/

@[simp] theorem modLine_booth (n : Fin 12) (l : Fin 8) (f : BoothLine → BoothLine) :
    (s.modLine n l f).booth = s.booth.modify n fun t => t.modify l fun x => (f x).form s.evac := rfl

@[simp] theorem modLine_evac (n : Fin 12) (l : Fin 8) (f : BoothLine → BoothLine) : (s.modLine n l f).evac = s.evac := rfl

@[simp] theorem modLine_screens (n : Fin 12) (l : Fin 8) (f : BoothLine → BoothLine) :
    (s.modLine n l f).screens = s.screens := rfl

@[simp] theorem modLine_ports (n : Fin 12) (l : Fin 8) (f : BoothLine → BoothLine) :
    (s.modLine n l f).ports = s.ports := rfl

end Sys2Proof.Machine
end

