-- ==== Sys2Proof/Laws/Frames.lean ====
section
/-! SUPPORT. The frame of every shared operation: which fields it may change, said once, so that later proofs cite it
instead of unfolding the operation. -/

namespace Sys2Proof.Machine

/-! ### Steps made for each screen, and for each thing of a list -/

theorem overScreens_induct {P : State → Prop} {f : Fin 12 → State → State} {s : State} (hs : P s)
    (h : ∀ n t, P t → P (f n t)) : P (overScreens f s) := by
  unfold overScreens
  generalize List.finRange 12 = l
  induction l generalizing s with
  | nil => exact hs
  | cons n rest ih => exact ih (h n s hs)

theorem overList_induct {α : Type} {P : State → Prop} {f : α → State → State} {l : List α} {s : State} (hs : P s)
    (h : ∀ x, x ∈ l → ∀ t, P t → P (f x t)) : P (overList f l s) := by
  unfold overList
  induction l generalizing s with
  | nil => exact hs
  | cons x rest ih =>
    exact ih (h x (List.mem_cons_self ..) s hs) fun y hy => h y (List.mem_cons_of_mem _ hy)

/-! ### Calibration -/

theorem clearTones_frame (n : Fin 12) (s : State) : ∃ o, clearTones n s = { s with outputs := o } := ⟨_, rfl⟩

theorem setTones_frame (l : List (Fin 192)) (b : Bool) (s : State) : ∃ o, setTones l b s = { s with outputs := o } :=
  ⟨_, rfl⟩

theorem abortMeasurement_frame (c : AbortCause) (s : State) :
    ∃ o x p, abortMeasurement c s = { s with outputs := o, context := x, ports := p } := by
  unfold abortMeasurement
  dsimp only
  split
  · exact ⟨_, _, _, rfl⟩
  · exact ⟨s.outputs, s.context, s.ports, rfl⟩

theorem abortOn_frame (n : Fin 12) (c : AbortCause) (s : State) :
    ∃ o x p, abortOn n c s = { s with outputs := o, context := x, ports := p } := by
  unfold abortOn
  split
  · exact abortMeasurement_frame c s
  · exact ⟨s.outputs, s.context, s.ports, rfl⟩

theorem abortTarget_frame (o : Fin 192) (c : AbortCause) (s : State) :
    ∃ y x p, abortTarget o c s = { s with outputs := y, context := x, ports := p } := by
  unfold abortTarget
  split
  · split
    · exact abortMeasurement_frame c s
    · exact ⟨s.outputs, s.context, s.ports, rfl⟩
  · exact ⟨s.outputs, s.context, s.ports, rfl⟩

theorem suspendCalibration_frame (n : Fin 12) (s : State) :
    ∃ o x p, suspendCalibration n s = { s with outputs := o, context := x, ports := p } := by
  obtain ⟨o, x, p, h⟩ := abortOn_frame n .power s
  unfold suspendCalibration
  rw [h]
  exact ⟨_, _, _, rfl⟩

theorem addMeasured_frame (s : State) : ∃ x, addMeasured s = { s with context := x } := by
  unfold addMeasured
  dsimp only
  split
  · exact ⟨_, rfl⟩
  · exact ⟨_, rfl⟩
  · exact ⟨s.context, rfl⟩

theorem endPhase_frame (s : State) : ∃ x o, endPhase s = { s with context := x, outputs := o } := by
  unfold endPhase
  dsimp only
  split
  · exact ⟨_, s.outputs, rfl⟩
  · split
    · exact ⟨_, _, rfl⟩
    · exact ⟨_, s.outputs, rfl⟩
  · exact ⟨_, s.outputs, rfl⟩
  · exact ⟨s.context, s.outputs, rfl⟩
  · exact ⟨s.context, s.outputs, rfl⟩

theorem storeSensitivity_frame (n : Fin 12) (t : Target) (x : Int) (s : State) :
    ∃ m o, storeSensitivity n t x s = { s with meters := m, outputs := o } := by
  cases t
  · exact ⟨s.meters, _, rfl⟩
  · exact ⟨_, s.outputs, rfl⟩

theorem endMeasurement_frame (s : State) :
    ∃ x o m p, endMeasurement s = { s with context := x, outputs := o, meters := m, ports := p } := by
  unfold endMeasurement
  dsimp only
  split
  · rename_i n t _ _
    split
    · exact ⟨_, _, s.meters, _, rfl⟩
    · cases t
      · exact ⟨_, _, s.meters, _, rfl⟩
      · exact ⟨_, _, _, _, rfl⟩
  · exact ⟨_, s.outputs, s.meters, s.ports, rfl⟩

theorem stepMeasurement_frame (s : State) :
    ∃ x o m p, stepMeasurement s = { s with context := x, outputs := o, meters := m, ports := p } := by
  unfold stepMeasurement
  dsimp only
  split
  · exact ⟨s.context, s.outputs, s.meters, s.ports, rfl⟩
  · split
    · exact ⟨_, s.outputs, s.meters, s.ports, rfl⟩
    · split
      · exact endMeasurement_frame s
      · obtain ⟨x, o, h⟩ := endPhase_frame s
        exact ⟨x, o, s.meters, s.ports, h⟩

/-! ### Power -/

theorem applyAllotment_frame (c : PowerCause) (a : Tab Allotment 12) (n : Fin 12) (s : State) :
    ∃ g p, applyAllotment c a n s = { s with grants := g, ports := p } := by
  unfold applyAllotment
  dsimp only
  split
  · exact ⟨_, s.ports, rfl⟩
  · exact ⟨_, _, rfl⟩

theorem handSuspension_frame (b : Tab Grant 12) (n : Fin 12) (s : State) :
    ∃ o x p, handSuspension b n s = { s with outputs := o, context := x, ports := p } := by
  unfold handSuspension
  split
  · exact suspendCalibration_frame n s
  · exact ⟨s.outputs, s.context, s.ports, rfl⟩

theorem applyAll_frame (c : PowerCause) (a : Tab Allotment 12) (s : State) :
    ∃ g p, overScreens (applyAllotment c a) s = { s with grants := g, ports := p } := by
  refine overScreens_induct (P := fun t => ∃ g p, t = { s with grants := g, ports := p })
    ⟨s.grants, s.ports, rfl⟩ ?_
  rintro n t ⟨g, p, rfl⟩
  obtain ⟨g', p', h⟩ := applyAllotment_frame c a n { s with grants := g, ports := p }
  exact ⟨g', p', h⟩

theorem handAll_frame (b : Tab Grant 12) (s : State) :
    ∃ o x p, overScreens (handSuspension b) s = { s with outputs := o, context := x, ports := p } := by
  refine overScreens_induct (P := fun t => ∃ o x p, t = { s with outputs := o, context := x, ports := p })
    ⟨s.outputs, s.context, s.ports, rfl⟩ ?_
  rintro n t ⟨o, x, p, rfl⟩
  obtain ⟨o', x', p', h⟩ := handSuspension_frame b n { s with outputs := o, context := x, ports := p }
  exact ⟨o', x', p', h⟩

theorem recompute_frame (c : PowerCause) (s : State) :
    ∃ g o x p, recompute c s = { s with grants := g, outputs := o, context := x, ports := p } := by
  unfold recompute
  obtain ⟨g, p, h⟩ := applyAll_frame c s.allot s
  rw [h]
  obtain ⟨o, x, p', h'⟩ := handAll_frame s.grants { s with grants := g, ports := p }
  exact ⟨g, o, x, p', h'⟩

theorem takeStamp_frame (n : Fin 12) (s : State) :
    ∃ c k, takeStamp n s = { s with screens := c, stampCounter := k } := by
  unfold takeStamp
  dsimp only
  split
  · exact ⟨_, _, rfl⟩
  · exact ⟨_, _, rfl⟩

theorem enterDemand_frame (n : Fin 12) (st : ShowState) (hd : Option (Fin 16)) (s t : State)
    (ht : enterDemand n st hd s = some t) :
    ∃ c k g o x p,
      t = { s with screens := c, stampCounter := k, grants := g, outputs := o, context := x, ports := p } := by
  unfold enterDemand candidate at ht
  dsimp only at ht
  split at ht
  · exact absurd ht (by simp)
  · obtain ⟨c, k, h⟩ := takeStamp_frame n s
    rw [h] at ht
    injection ht with ht
    rw [← ht]
    obtain ⟨g, o, x, p, h'⟩ := recompute_frame .demand
      (({ s with screens := c, stampCounter := k } : State).modScreen n fun c => { c with state := st, holder := hd })
    rw [h']
    exact ⟨_, _, _, _, _, _, rfl⟩

/-! ### Cues and booth lines -/

theorem modLine_frame (n : Fin 12) (l : Fin 8) (f : BoothLine → BoothLine) (s : State) :
    ∃ b, s.modLine n l f = { s with booth := b } := ⟨_, rfl⟩

theorem perform_frame (n : Fin 12) (a : Action) (s : State) :
    ∃ b c, perform n a s = { s with booth := b, screens := c } := by
  cases a
  · exact ⟨_, s.screens, rfl⟩
  · exact ⟨_, s.screens, rfl⟩
  · exact ⟨_, s.screens, rfl⟩
  · exact ⟨s.booth, _, rfl⟩
  · exact ⟨s.booth, s.screens, rfl⟩

/-- Firing and skipping change the booth lines, house levels, cue fields, the pool and the ports alone. -/
def CueFrame (s t : State) : Prop :=
  ∃ b c e q p, t = { s with booth := b, screens := c, pool := e, cues := q, ports := p }

theorem CueFrame.refl (s : State) : CueFrame s s := ⟨s.booth, s.screens, s.pool, s.cues, s.ports, rfl⟩

theorem CueFrame.trans {s t u : State} (h : CueFrame s t) (h' : CueFrame t u) : CueFrame s u := by
  obtain ⟨_, _, _, _, _, rfl⟩ := h
  obtain ⟨_, _, _, _, _, rfl⟩ := h'
  exact ⟨_, _, _, _, _, rfl⟩

theorem CueFrame.overList {α : Type} {f : α → State → State} (h : ∀ x t, CueFrame t (f x t)) (l : List α) (s : State) :
    CueFrame s (overList f l s) :=
  overList_induct (P := fun t => CueFrame s t) (CueFrame.refl s) fun x _ t ht => ht.trans (h x t)

theorem fire_frame (e : Fin 512) (s : State) : CueFrame s (fire e s) := by
  unfold fire
  split
  · rename_i c _ _
    obtain ⟨b, d, h⟩ := perform_frame c.screen c.action s
    dsimp only
    rw [h]
    exact ⟨_, _, _, _, _, rfl⟩
  · exact CueFrame.refl s

theorem skip_frame (e : Fin 512) (s : State) : CueFrame s (skip e s) := by
  unfold skip
  split
  · exact ⟨s.booth, s.screens, _, s.cues, _, rfl⟩
  · exact CueFrame.refl s

theorem rearm_frame (e : Fin 512) (s : State) : CueFrame s (rearm e s) := by
  unfold rearm
  split
  · exact ⟨s.booth, s.screens, _, s.cues, s.ports, rfl⟩
  · exact CueFrame.refl s

theorem notify_cueFrame (m : Notice) (s : State) : CueFrame s (s.notify m) :=
  ⟨s.booth, s.screens, s.pool, s.cues, _, rfl⟩

theorem modCues_cueFrame (n : Fin 12) (f : CueScreen → CueScreen) (s : State) : CueFrame s (s.modCues n f) :=
  ⟨s.booth, s.screens, s.pool, _, s.ports, rfl⟩

theorem advanceEntry_frame (j : Bool) (low : Option Nat) (time : Nat) (e : Fin 512) (s : State) :
    CueFrame s (advanceEntry j low time e s) := by
  unfold advanceEntry
  split
  · split
    · split
      · exact skip_frame e s
      · exact fire_frame e s
    · exact CueFrame.refl s
  · exact CueFrame.refl s

theorem chaseEntry_frame (time : Nat) (e : Fin 512) (s : State) : CueFrame s (chaseEntry time e s) := by
  unfold chaseEntry
  split
  · split
    · exact fire_frame e s
    · exact CueFrame.refl s
  · exact CueFrame.refl s

theorem processTime_frame (n : Fin 12) (time : Nat) (s : State) : CueFrame s (processTime n time s) := by
  unfold processTime
  dsimp only
  split
  · exact modCues_cueFrame n _ s
  · split
    · exact (((modCues_cueFrame n _ s).trans (CueFrame.overList rearm_frame _ _)).trans (notify_cueFrame _ _)).trans
        (CueFrame.overList (chaseEntry_frame time) _ _)
    · exact (modCues_cueFrame n _ s).trans (CueFrame.overList (advanceEntry_frame _ _ time) _ _)

theorem fireState_frame (n : Fin 12) (ev : CueEvent) (s : State) : CueFrame s (fireState n ev s) :=
  CueFrame.overList fire_frame _ s

theorem fireAlarm_frame (n : Fin 12) (k : AlarmKind) (s : State) : CueFrame s (fireAlarm n k s) := by
  unfold fireAlarm
  split
  · exact CueFrame.overList fire_frame _ s
  · exact CueFrame.refl s

theorem takeWord_frame (n : Fin 12) (w : SideWord) (s : State) : CueFrame s (takeWord n w s) := by
  unfold takeWord
  dsimp only
  refine CueFrame.trans ?_ (modCues_cueFrame n _ _)
  split
  · split
    · exact (processTime_frame n _ s).trans (CueFrame.overList fire_frame _ _)
    · exact processTime_frame n _ s
  · exact CueFrame.refl s

theorem startCues_frame (n : Fin 12) (s : State) : CueFrame s (startCues n s) := by
  unfold startCues
  dsimp only
  split
  · exact (((CueFrame.overList rearm_frame _ s).trans (modCues_cueFrame n _ _)).trans
      (CueFrame.overList (advanceEntry_frame _ _ _) _ _)).trans (fireState_frame n _ _)
  · exact (CueFrame.overList rearm_frame _ s).trans (fireState_frame n _ _)

/-! ### Alarms -/

theorem withdrawAlarms_frame (n : Fin 12) (s : State) :
    ∃ a p, withdrawAlarms n s = { s with alarms := a, ports := p } := by
  unfold withdrawAlarms
  dsimp only
  refine overList_induct (P := fun t => ∃ a p, t = { s with alarms := a, ports := p }) ⟨_, s.ports, rfl⟩ ?_
  rintro k _ t ⟨a, p, rfl⟩
  unfold announceWithdrawal
  dsimp only
  split
  · exact ⟨a, _, rfl⟩
  · exact ⟨a, p, rfl⟩

/-- The judgement of a screen changes its alarms beside what firing changes. -/
theorem judgeScreen_frame (sl : Fin 14 → Nat) (n : Fin 12) (s : State) :
    ∃ a, CueFrame { s with alarms := a } (judgeScreen sl n s) := by
  unfold judgeScreen
  dsimp only
  refine ⟨_, CueFrame.overList (s := s.modAlarms n (Alarms.judge (s.gather sl n))) ?_ _⟩
  intro k t
  unfold announce
  dsimp only
  split
  · exact CueFrame.refl t
  · exact CueFrame.trans ⟨t.booth, t.screens, t.pool, t.cues, _, rfl⟩ (fireAlarm_frame n k _)
  · exact ⟨t.booth, t.screens, t.pool, t.cues, _, rfl⟩

/-! ### Meter, sound and store -/

theorem closeBlock_frame (s : State) :
    ∃ o e m x, closeBlock s = { s with outputs := o, micEnergy := e, micRunning := 0, meters := m, context := x } := by
  unfold closeBlock
  dsimp only
  obtain ⟨x, h⟩ := addMeasured_frame
    { s with
      outputs := s.outputs.map Output.closeEnergy
      micEnergy := s.micRunning
      micRunning := 0
      meters := s.meters.update fun n m => m.closeBlock
        (State.blockSum
          { s with
            outputs := s.outputs.map Output.closeEnergy
            micEnergy := s.micRunning
            micRunning := 0 } n) }
  exact ⟨_, _, _, x, h⟩

theorem raiseBases_frame (s : State) : ∃ a, overScreens raiseBase s = { s with attenuations := a } := by
  refine overScreens_induct (P := fun t => ∃ a, t = { s with attenuations := a }) ⟨s.attenuations, rfl⟩ ?_
  rintro n t ⟨a, rfl⟩
  exact ⟨_, rfl⟩

theorem stepBases_frame (s : State) : ∃ a, overScreens stepBase s = { s with attenuations := a } := by
  refine overScreens_induct (P := fun t => ∃ a, t = { s with attenuations := a }) ⟨s.attenuations, rfl⟩ ?_
  rintro n t ⟨a, rfl⟩
  exact ⟨_, rfl⟩

theorem runSound_frame (periods : Nat) (flags : Tab Bool 192) (old s : State) :
    ∃ a l z o k m r w, runSound periods flags old s =
      { s with
        attenuations := a, lanes := l, noise := z, blockPeriods := max Config.blockSamples periods, lateDraws := s.lateDraws + 1,
        outputs := o, micRunning := k, meters := m, routes := r, returnWords := w } := by
  unfold runSound
  obtain ⟨a, h⟩ := raiseBases_frame s
  dsimp only
  rw [h]
  exact ⟨_, _, _, _, _, _, _, _, rfl⟩

theorem passReset_frame (k : Nat) (s : State) : ∃ z, passReset k s = { s with noise := z } := by
  unfold passReset
  split
  · exact ⟨_, rfl⟩
  · exact ⟨s.noise, rfl⟩

/-- Where a house block has come since the reset, its noise has been made. -/
theorem passReset_later {s : State} (h : s.blockPeriods ≠ 0) (k : Nat) : passReset k s = s := if_neg h

theorem reallocate_frame (cs : List Change) (s : State) : ∃ o, reallocate cs s = { s with outputs := o } := by
  unfold reallocate
  refine overList_induct (P := fun t => ∃ o, t = { s with outputs := o }) ?_ ?_
  · refine overList_induct (P := fun t => ∃ o, t = { s with outputs := o }) ⟨s.outputs, rfl⟩ ?_
    rintro c _ t ⟨o, rfl⟩
    unfold shrink
    split
    · exact ⟨_, rfl⟩
    · exact ⟨o, rfl⟩
  · rintro c _ t ⟨o, rfl⟩
    unfold grow
    split
    · exact ⟨_, rfl⟩
    · exact ⟨o, rfl⟩

theorem tickSelftest_frame (a b : Bool) (s : State) :
    ∃ t g p, tickSelftest a b s = { s with selftest := t, badPages := g, ports := p } := by
  unfold tickSelftest
  split
  · exact ⟨_, _, _, rfl⟩
  · split
    · exact ⟨_, s.badPages, s.ports, rfl⟩
    · exact ⟨s.selftest, s.badPages, s.ports, rfl⟩

/-! ### Health -/

theorem healthChanged_frame (o : Fin 192) (pr : Health) (c : HealthCause) (z : Option Nat) (st : Option (Fin 16))
    (s : State) : ∃ y x p, healthChanged o pr c z st s = { s with outputs := y, context := x, ports := p } := by
  unfold healthChanged
  dsimp only
  split
  · exact ⟨s.outputs, s.context, s.ports, rfl⟩
  · split
    · obtain ⟨y, x, p, h⟩ := abortTarget_frame o .failed
        (s.notify (.health o (s.outputs.get o).screen (s.outputs.get o).sense.health pr c z st))
      exact ⟨y, x, p, h⟩
    · split
      · obtain ⟨y, x, p, h⟩ := abortTarget_frame o .excluded
          (s.notify (.health o (s.outputs.get o).screen (s.outputs.get o).sense.health pr c z st))
        exact ⟨y, x, p, h⟩
      · exact ⟨s.outputs, s.context, _, rfl⟩

/-- The events of line sense change outputs, the measurement context and the ports alone. -/
def SenseFrame (s t : State) : Prop := ∃ y x p, t = { s with outputs := y, context := x, ports := p }

theorem SenseFrame.refl (s : State) : SenseFrame s s := ⟨s.outputs, s.context, s.ports, rfl⟩

theorem SenseFrame.trans {s t u : State} (h : SenseFrame s t) (h' : SenseFrame t u) : SenseFrame s u := by
  obtain ⟨_, _, _, rfl⟩ := h
  obtain ⟨_, _, _, rfl⟩ := h'
  exact ⟨_, _, _, rfl⟩

theorem SenseFrame.overList {α : Type} {f : α → State → State} (h : ∀ x t, SenseFrame t (f x t)) (l : List α)
    (s : State) : SenseFrame s (overList f l s) :=
  overList_induct (P := fun t => SenseFrame s t) (SenseFrame.refl s) fun x _ t ht => ht.trans (h x t)

theorem modOutput_senseFrame (o : Fin 192) (f : Output → Output) (s : State) : SenseFrame s (s.modOutput o f) :=
  ⟨_, s.context, s.ports, rfl⟩

theorem takeReport_frame (o : Fin 192) (r : Report) (s : State) : SenseFrame s (takeReport o r s) := by
  unfold takeReport
  dsimp only
  split
  · exact SenseFrame.refl s
  · exact (modOutput_senseFrame o _ s).trans (healthChanged_frame ..)

theorem loseOutput_frame (o : Fin 192) (s : State) : SenseFrame s (loseOutput o s) := by
  unfold loseOutput
  dsimp only
  split
  · exact SenseFrame.refl s
  · exact (modOutput_senseFrame o _ s).trans (healthChanged_frame ..)

theorem findOutput_frame (o : Fin 192) (s : State) : SenseFrame s (findOutput o s) := by
  unfold findOutput
  dsimp only
  split
  · exact (modOutput_senseFrame o _ s).trans (healthChanged_frame ..)
  · exact SenseFrame.refl s

theorem returnBlock_frame (lane : Fin 12) (r : Option Report) (s : State) :
    ∃ l, SenseFrame { s with returnLanes := l } (returnBlock lane r s) := by
  unfold returnBlock
  dsimp only
  split
  · split
    · exact ⟨_, (SenseFrame.overList findOutput_frame _ (s.modReturnLane lane _)).trans (takeReport_frame ..)⟩
    · exact ⟨_, SenseFrame.refl (s.modReturnLane lane _)⟩
  · exact ⟨_, SenseFrame.refl (s.modReturnLane lane _)⟩
  · exact ⟨_, takeReport_frame _ _ (s.modReturnLane lane _)⟩
  · split
    · exact ⟨_, SenseFrame.overList loseOutput_frame _ (s.modReturnLane lane _)⟩
    · exact ⟨_, SenseFrame.refl (s.modReturnLane lane _)⟩

end Sys2Proof.Machine
end

