-- ==== Sys2Proof/Laws/House.lean ====
section
/-! SUPPORT. What a house block keeps (02 R42): a recompute and the completion of a fade change nothing of an output but its
tone flag, the measurement nothing but its tone flag and its sensitivity, and of the lanes the interval event takes the
interval slips and the sound what a read takes. -/

namespace Sys2Proof.Machine

/-! ### Steps that change only tone flags of the outputs -/

/-- Nothing of an output changes but its tone flag. -/
def ToneOnly (s t : State) : Prop :=
  ∀ o, t.outputs.get o = { s.outputs.get o with toneFlag := (t.outputs.get o).toneFlag }

theorem ToneOnly.of_outputs {s t : State} (h : t.outputs = s.outputs) : ToneOnly s t := fun o => by rw [h]

theorem ToneOnly.refl (s : State) : ToneOnly s s := .of_outputs rfl

theorem ToneOnly.trans {s t u : State} (h : ToneOnly s t) (h' : ToneOnly t u) : ToneOnly s u := fun o => by
  rw [h' o, h o]

theorem ToneOnly.overScreens {f : Fin 12 → State → State} (h : ∀ n t, ToneOnly t (f n t)) (s : State) :
    ToneOnly s (overScreens f s) :=
  overScreens_induct (P := ToneOnly s) (.refl s) fun n t ht => ht.trans (h n t)

theorem clearTones_toneOnly (n : Fin 12) (s : State) : ToneOnly s (clearTones n s) := fun o => by
  simp only [clearTones, Tab.get_map]
  split <;> rfl

theorem setTones_toneOnly (l : List (Fin 192)) (b : Bool) (s : State) : ToneOnly s (setTones l b s) := fun o => by
  simp only [setTones, Tab.get_update]
  split <;> rfl

theorem abortMeasurement_toneOnly (c : AbortCause) (s : State) : ToneOnly s (abortMeasurement c s) := by
  unfold abortMeasurement
  dsimp only
  split
  · exact clearTones_toneOnly _ s
  · exact .refl s

theorem suspendCalibration_toneOnly (n : Fin 12) (s : State) : ToneOnly s (suspendCalibration n s) := by
  refine ToneOnly.trans ?_ (clearTones_toneOnly n _)
  unfold abortOn
  split
  · exact abortMeasurement_toneOnly _ s
  · exact .refl s

theorem recompute_toneOnly (c : PowerCause) (s : State) : ToneOnly s (recompute c s) := by
  unfold recompute
  obtain ⟨g, p, h⟩ := applyAll_frame c s.allot s
  refine ToneOnly.trans (.of_outputs (by rw [h])) (.overScreens (fun n t => ?_) _)
  unfold handSuspension
  split
  · exact suspendCalibration_toneOnly n t
  · exact .refl t

theorem CueFrame.toneOnly {s t : State} (h : CueFrame s t) : ToneOnly s t := by
  obtain ⟨b, c, p, q, r, rfl⟩ := h
  exact .of_outputs rfl

theorem notify_toneOnly (m : Notice) (s : State) : ToneOnly s (s.notify m) := .of_outputs rfl

theorem clearLoudTrim_toneOnly (n : Fin 12) (s : State) : ToneOnly s (clearLoudTrim n s) := .of_outputs rfl

theorem completeFade_toneOnly (n : Fin 12) (s : State) : ToneOnly s (completeFade n s) := by
  unfold completeFade
  dsimp only
  refine ToneOnly.trans ?_ (notify_toneOnly _ _)
  refine ToneOnly.trans ?_ (fireState_frame n .endDone _).toneOnly
  have h : ToneOnly s (recompute .demand (clearBase n
      (s.modScreen n fun c => { c.dropFade with state := .armed, stamp := 0 }))) :=
    ToneOnly.trans (t := clearBase n (s.modScreen n fun c => { c.dropFade with state := .armed, stamp := 0 }))
      (.of_outputs rfl) (recompute_toneOnly .demand _)
  exact h.trans (clearLoudTrim_toneOnly n _)

theorem finishFade_toneOnly (n : Fin 12) (s : State) : ToneOnly s (finishFade n s) := by
  unfold finishFade
  split
  · exact completeFade_toneOnly n s
  · exact .refl s

theorem readSupply_toneOnly (a b : Bool) (s : State) : ToneOnly s (readSupply a b s) := by
  unfold readSupply
  dsimp only
  split
  · exact .of_outputs rfl
  · refine ToneOnly.trans (ToneOnly.trans (.of_outputs ?_) (recompute_toneOnly .supply _)) (notify_toneOnly _ _)
    rfl

/-! ### What an interval event and the sound take -/

/-- Nothing of an output changes but its tone flag and its sensitivity. -/
def MeasuredOnly (s t : State) : Prop :=
  ∀ o, t.outputs.get o =
    { s.outputs.get o with toneFlag := (t.outputs.get o).toneFlag, sensitivity := (t.outputs.get o).sensitivity }

theorem ToneOnly.measuredOnly {s t : State} (h : ToneOnly s t) : MeasuredOnly s t := fun o => by rw [h o]

theorem MeasuredOnly.trans {s t u : State} (h : MeasuredOnly s t) (h' : MeasuredOnly t u) : MeasuredOnly s u := fun o => by
  rw [h' o, h o]

theorem storeSensitivity_measuredOnly (n : Fin 12) (g : Target) (x : Int) (s : State) :
    MeasuredOnly s (storeSensitivity n g x s) := by
  cases g with
  | reference => exact (ToneOnly.of_outputs rfl).measuredOnly
  | output o =>
    intro q
    simp only [storeSensitivity, State.modOutput, Tab.get_modify]
    split
    · next h => rw [h]
    · rfl

theorem idle_toneOnly (n : Fin 12) (c : Context) (s : State) : ToneOnly s { clearTones n s with context := c } :=
  clearTones_toneOnly n s

theorem endMeasurement_measuredOnly (s : State) : MeasuredOnly s (endMeasurement s) := by
  unfold endMeasurement
  dsimp only
  split
  · rename_i n g _ _
    have h := (idle_toneOnly n Context.reset s).measuredOnly
    revert h
    generalize ({ clearTones n s with context := Context.reset } : State) = idle
    intro h
    split
    · exact h.trans (notify_toneOnly _ _).measuredOnly
    · exact (h.trans (storeSensitivity_measuredOnly n g _ idle)).trans (notify_toneOnly _ _).measuredOnly
  · exact (ToneOnly.of_outputs rfl).measuredOnly

theorem endPhase_toneOnly (s : State) : ToneOnly s (endPhase s) := by
  unfold endPhase
  dsimp only
  split
  · exact .of_outputs rfl
  · split
    · exact fun o => setTones_toneOnly _ true s o
    · exact .of_outputs rfl
  · exact .of_outputs rfl
  · exact .refl s
  · exact .refl s

theorem stepMeasurement_measuredOnly (s : State) : MeasuredOnly s (stepMeasurement s) := by
  unfold stepMeasurement
  dsimp only
  split
  · exact (ToneOnly.refl s).measuredOnly
  · split
    · exact (ToneOnly.of_outputs rfl).measuredOnly
    · split
      · exact endMeasurement_measuredOnly s
      · exact (endPhase_toneOnly s).measuredOnly

theorem judgeAll_outputs (slips : Fin 14 → Nat) (s : State) :
    (overScreens (judgeScreen slips) s).outputs = s.outputs ∧ (overScreens (judgeScreen slips) s).lanes = s.lanes := by
  refine overScreens_induct (P := fun t => t.outputs = s.outputs ∧ t.lanes = s.lanes) ⟨rfl, rfl⟩ fun n t ht => ?_
  obtain ⟨a, b, c, e, q, p, h⟩ := judgeScreen_frame slips n t
  rw [h]
  exact ht

/-- The outputs at the judgement of an interval event are those of the closed block, and the measurement changes their
tone flags and sensitivities; every lane's interval slips are 0 (02 R38, R42). -/
theorem takeInterval_keeps (s : State) : MeasuredOnly (ensureClosed s) (takeInterval s) ∧
    (takeInterval s).lanes = (ensureClosed s).lanes.map fun l => { l with intervalSlips := 0 } := by
  unfold takeInterval
  dsimp only
  generalize hc : closeIntervals { ensureClosed s with blockCount := 0, intervalTaken := true } = c
  have ho : c.outputs = (ensureClosed s).outputs := by rw [← hc]; rfl
  have hl : c.lanes = (ensureClosed s).lanes := by rw [← hc]; rfl
  obtain ⟨jo, jl⟩ := judgeAll_outputs c.slipsHanded (clearSlips c)
  generalize overScreens (judgeScreen c.slipsHanded) (clearSlips c) = j at jo jl
  obtain ⟨b, hb⟩ := stepBases_frame j
  rw [hb]
  have first : MeasuredOnly (ensureClosed s) { j with attenuations := b } :=
    (ToneOnly.of_outputs (jo.trans ho)).measuredOnly
  have lanes : j.lanes = (ensureClosed s).lanes.map fun l => { l with intervalSlips := 0 } := by
    rw [jl, ← hl]; rfl
  split
  · exact ⟨first, lanes⟩
  · refine ⟨first.trans (stepMeasurement_measuredOnly _), ?_⟩
    obtain ⟨x, o, m, p, h⟩ := stepMeasurement_frame { j with attenuations := b }
    rw [h]
    exact lanes

/-- The close of a block moves energies alone, of the outputs, and leaves the lanes (05 R91). -/
theorem ensureClosed_keeps (s : State) : (ensureClosed s).lanes = s.lanes ∧ ∀ o, (ensureClosed s).outputs.get o =
    { s.outputs.get o with
      running := ((ensureClosed s).outputs.get o).running, energy := ((ensureClosed s).outputs.get o).energy } := by
  unfold ensureClosed
  split
  · exact ⟨rfl, fun _ => rfl⟩
  · unfold closeBlock
    dsimp only
    obtain ⟨x, h⟩ := addMeasured_frame
      { s with
        outputs := s.outputs.map Output.closeEnergy
        micEnergy := s.micRunning
        micRunning := 0
        meters := s.meters.update fun n m => m.closeBlock
          (State.blockSum
            { s with
              outputs := s.outputs.map Output.closeEnergy
              micEnergy := s.micRunning
              micRunning := 0 } n) }
    rw [h]
    exact ⟨rfl, fun o => by simp only [Tab.get_map, Output.closeEnergy]⟩

/-- The first part of a house block leaves the lanes, the block count and its mark, and of the outputs moves the energies
alone (02 R42). -/
theorem atHouseBlock_keeps (inp : BlockInputs) (s : State) :
    (atHouseBlock inp s).lanes = s.lanes ∧ (atHouseBlock inp s).blockCount = s.blockCount ∧
    (atHouseBlock inp s).intervalTaken = s.intervalTaken ∧ ∀ o, (atHouseBlock inp s).outputs.get o =
      { s.outputs.get o with
        running := ((atHouseBlock inp s).outputs.get o).running
        energy := ((atHouseBlock inp s).outputs.get o).energy } := by
  unfold atHouseBlock
  dsimp only
  obtain ⟨z, hz⟩ := passReset_frame inp.sinceReset s
  rw [hz]
  obtain ⟨g, b, p, h⟩ := tickSelftest_frame inp.fault0 inp.fault1 (tickLines (advanceFades { s with noise := z }))
  rw [h]
  generalize hx : ({ tickLines (advanceFades { s with noise := z }) with selftest := g, badPages := b, ports := p } : State) = x
  have hl : x.lanes = s.lanes := by rw [← hx]; rfl
  have ho : x.outputs = s.outputs := by rw [← hx]; rfl
  have hc : x.blockCount = s.blockCount := by rw [← hx]; rfl
  have ht : x.intervalTaken = s.intervalTaken := by rw [← hx]; rfl
  obtain ⟨kl, ko⟩ := ensureClosed_keeps x
  rw [hl] at kl
  rw [ho] at ko
  refine ⟨kl, ?_, ?_, ko⟩
  · rw [← hc]; unfold ensureClosed; split
    · rfl
    · obtain ⟨o, e, m, c, h'⟩ := closeBlock_frame x
      rw [h']
  · rw [← ht]; unfold ensureClosed; split
    · rfl
    · obtain ⟨o, e, m, c, h'⟩ := closeBlock_frame x
      rw [h']

/-- The state in which a house block runs its sound: its lanes have lost their interval slips where it is an interval
event, and of its outputs the energies have moved, and at such an event the tone flags and sensitivities (02 R38, R42). -/
theorem beforeSound_keeps (inp : BlockInputs) (s : State) :
    (∀ l, (beforeSound inp s).lanes.get l =
      if s.intervalTaken = false ∧ s.blockCount + 1 = 1024 then { s.lanes.get l with intervalSlips := 0 }
      else s.lanes.get l) ∧
    (∀ o x y, x = s.outputs.get o → y = (beforeSound inp s).outputs.get o →
      y = { x with
        running := y.running, energy := y.energy, toneFlag := y.toneFlag, sensitivity := y.sensitivity } ∧
      (s.intervalTaken = true ∨ s.blockCount + 1 ≠ 1024 → y.sensitivity = x.sensitivity)) := by
  obtain ⟨kl, kc, kt, ko⟩ := atHouseBlock_keeps inp s
  unfold beforeSound countBlock State.intervalDue
  rw [kt, kc]
  generalize atHouseBlock inp s = u at kl ko
  have kept : ∀ o x y, x = s.outputs.get o → y = u.outputs.get o →
      y = { x with
        running := y.running, energy := y.energy, toneFlag := y.toneFlag, sensitivity := y.sensitivity } ∧
      y.sensitivity = x.sensitivity := by
    rintro o x y rfl rfl
    rw [ko o]
    exact ⟨rfl, rfl⟩
  by_cases ht : s.intervalTaken = true
  · rw [if_pos ht]
    exact ⟨fun l => by rw [if_neg (by simp [ht]), kl],
      fun o x y hx hy => ⟨(kept o x y hx hy).1, fun _ => (kept o x y hx hy).2⟩⟩
  · have ht' : s.intervalTaken = false := by simpa using ht
    rw [if_neg ht, ht']
    by_cases hc : s.blockCount + 1 = 1024
    · have hd : (decide (s.blockCount + 1 = Config.intervalBlocks) && !false) = true := by
        simpa [Config.intervalBlocks] using hc
      rw [if_pos hd]
      obtain ⟨mo, ml⟩ := takeInterval_keeps u
      obtain ⟨el, eo⟩ := ensureClosed_keeps u
      refine ⟨fun l => ?_, ?_⟩
      · rw [if_pos ⟨rfl, hc⟩, ml, el, kl, Tab.get_map]
      · intro o x y hx hy
        have h1 := mo o
        have h2 := eo o
        have h3 := ko o
        rw [← hy] at h1
        rw [← hx] at h3
        generalize (ensureClosed u).outputs.get o = e at h1 h2
        generalize u.outputs.get o = w at h2 h3
        refine ⟨?_, fun h => ?_⟩
        · rw [h1, h2, h3]
        · rcases h with h | h
          · exact (Bool.false_ne_true h).elim
          · exact (h hc).elim
    · have hd : ¬(decide (s.blockCount + 1 = Config.intervalBlocks) && !false) = true := by
        simpa [Config.intervalBlocks] using hc
      rw [if_neg hd]
      exact ⟨fun l => by rw [if_neg (fun h => hc h.2), kl],
        fun o x y hx hy => ⟨(kept o x y hx hy).1, fun _ => (kept o x y hx hy).2⟩⟩

/-- The sound reads every lane, and of an output moves its block's fields alone, the sections and the line keeping their
shape (02 R36, 04 R73 to R81). -/
theorem runSound_keeps (periods : Nat) (flags : Tab Bool 192) (old s : State) :
    (∀ l, (runSound periods flags old s).lanes.get l = (s.lanes.get l).read.2) ∧
    ∀ o x y, x = s.outputs.get o → y = (runSound periods flags old s).outputs.get o →
      y = { x with
        path := y.path, line := y.line, running := y.running, blockScreen := y.blockScreen, drive := y.drive,
        late := y.late, figures := y.figures } ∧
      y.path.map PathSection.coef = x.path.map PathSection.coef ∧ y.line.length = x.line.length := by
  unfold runSound
  obtain ⟨a, h⟩ := raiseBases_frame s
  dsimp only
  rw [h]
  refine ⟨fun l => Tab.get_map Lane.afterRead s.lanes l, ?_⟩
  rintro o x y rfl rfl
  rw [Tab.get_map, Tab.get_ofFn]
  have one : ∀ sel late comp level applied pilot,
      ((runOutput sel late comp level applied pilot (s.outputs.get o)).output.path.map PathSection.coef =
        (s.outputs.get o).path.map PathSection.coef) ∧
      (runOutput sel late comp level applied pilot (s.outputs.get o)).output.line.length =
        (s.outputs.get o).line.length := runOutput_shape _
  unfold State.runOne
  dsimp only
  split
  · obtain ⟨p, l, k, d, e, f, hf⟩ := runOutput_frame _ _ 0 80 0 false (s.outputs.get o)
    refine ⟨?_, one ..⟩
    rw [hf]
  · obtain ⟨p, l, k, d, e, f, hf⟩ := runOutput_frame _ _ _ _ _ _ (s.outputs.get o)
    refine ⟨?_, one ..⟩
    rw [hf]

theorem finishFade_lanes (n : Fin 12) (s : State) : (finishFade n s).lanes = s.lanes := by
  unfold finishFade
  split
  · unfold completeFade
    dsimp only
    obtain ⟨g, o, x, p, h⟩ := recompute_frame .demand
      (clearBase n (s.modScreen n fun c => { c.dropFade with state := .armed, stamp := 0 }))
    rw [h]
    generalize hz : clearLoudTrim n _ = z
    have hl : z.lanes = s.lanes := by rw [← hz]; rfl
    obtain ⟨b, c, p, q, r, h'⟩ := fireState_frame n .endDone z
    rw [h']
    exact hl
  · rfl

theorem readSupply_lanes (a b : Bool) (s : State) : (readSupply a b s).lanes = s.lanes := by
  unfold readSupply
  dsimp only
  split
  · rfl
  · obtain ⟨g, o, x, p, h⟩ := recompute_frame .supply
      { s with budget := { s.budget with supply1 := a, supply2 := b, supply := supplyOf a b } }
    rw [h]
    rfl

/-- After its sound a house block leaves the lanes, and of the outputs changes tone flags alone (02 R42). -/
theorem houseBlock_keeps (inp : BlockInputs) (s : State) :
    ToneOnly (afterSound inp s) (houseBlock inp s) ∧ (houseBlock inp s).lanes = (afterSound inp s).lanes := by
  unfold houseBlock
  generalize afterSound inp s = a
  have h1 := readSupply_toneOnly inp.supply1 inp.supply2 a
  have h2 := readSupply_lanes inp.supply1 inp.supply2 a
  generalize readSupply inp.supply1 inp.supply2 a = r at h1 h2
  have h3 := ToneOnly.overScreens finishFade_toneOnly r
  have h4 : (overScreens finishFade r).lanes = r.lanes :=
    overScreens_induct (P := fun z => z.lanes = r.lanes) rfl fun n z hz => (finishFade_lanes n z).trans hz
  generalize overScreens finishFade r = z at h3 h4
  exact ⟨(h1.trans h3).trans (.of_outputs rfl), h4.trans h2⟩

end Sys2Proof.Machine
end

