-- ==== Sys2Proof/Laws/Requests.lean ====
section
/-! SUPPORT. What the Port Controller does with a request, said once: it hands it to its owner, refuses it, or lets it
wait (11 R182, R183); and what each step of a port leaves of its queues (11 R186). -/

namespace Sys2Proof.Machine

variable {i : Instr} {h : Header} {kind : Nat} {act : State → Result} {s : State}

/-- A ready request whose owner accepts it: the owner's effects, then the answer DONE. -/
theorem takeRequest_accept {t : State} {c : Bool} {f : List Field} (hr : s.ready i h kind)
    (ha : act (s.taking i h) = .accept t c f) :
    takeRequest i h kind act s = .next (t.answering h (doneAnswer h kind c f)) := by
  obtain ⟨h1, h2, h3⟩ := hr
  unfold takeRequest checked finish State.taking at *
  simp only [h1, h2, h3, ha]
  rfl

/-- A ready request that its owner refuses changes nothing but its port's answer. -/
theorem takeRequest_refuse {why : Reason} (hr : s.ready i h kind) (ha : act (s.taking i h) = .refuse why) :
    takeRequest i h kind act s = .next (s.replying i h (refusalAnswer h kind why)) := by
  obtain ⟨h1, h2, h3⟩ := hr
  unfold takeRequest checked finish State.taking at *
  simp only [h1, h2, h3, ha]
  rfl

/-- A station whose role is not allowed the kind is refused with ROLE. -/
theorem takeRequest_role (h1 : (s.ports.get h.port).canTake i = true) (h2 : allowed kind h.station = false) :
    takeRequest i h kind act s = .next (s.replying i h (refusalAnswer h kind .role)) := by
  unfold takeRequest checked finish
  simp only [h1, h2]
  rfl

/-- A body that does not fit is refused with RANGE. -/
theorem takeRequest_range (h1 : (s.ports.get h.port).canTake i = true) (h2 : allowed kind h.station = true)
    (h3 : h.fits = false) :
    takeRequest i h kind act s = .next (s.replying i h (refusalAnswer h kind .range)) := by
  unfold takeRequest checked finish
  simp only [h1, h2, h3]
  rfl

/-- A request that cannot be taken yet waits in its port's queue, or is lost to a full one. -/
theorem takeRequest_waits (h1 : (s.ports.get h.port).canTake i = false) :
    takeRequest i h kind act s = .next (s.modPort h.port (Port.receive i)) := by
  unfold takeRequest
  simp [h1]

/-- Every request is answered with a next state. -/
theorem takeRequest_next : ∃ t, takeRequest i h kind act s = .next t := by
  unfold takeRequest
  split <;> exact ⟨_, rfl⟩

theorem onScreen_valid {screen : Nat} {n : Fin 12} (hn : ident 12 screen = some n) (f : Fin 12 → State → Result)
    (s : State) : onScreen screen f s = f n s := by
  unfold onScreen
  rw [hn]

theorem onScreen_invalid {screen : Nat} (hn : ident 12 screen = none) (f : Fin 12 → State → Result) (s : State) :
    onScreen screen f s = .refuse .range := by
  unfold onScreen
  rw [hn]

theorem onOutput_valid {output : Nat} {o : Fin 192} (ho : ident 192 output = some o) (f : Fin 192 → State → Result)
    (s : State) : onOutput output f s = f o s := by
  unfold onOutput
  rw [ho]

theorem onOutput_invalid {output : Nat} (ho : ident 192 output = none) (f : Fin 192 → State → Result) (s : State) :
    onOutput output f s = .refuse .range := by
  unfold onOutput
  rw [ho]

theorem onLane_valid {lane : Nat} {l : Fin 14} (hl : ident 14 lane = some l) (f : Fin 14 → State → Result)
    (s : State) : onLane lane f s = f l s := by
  unfold onLane
  rw [hl]

/-- The numbers 1 to `count` name the things, and no other number does. -/
theorem ident_eq_some {count n : Nat} {i : Fin count} : ident count n = some i ↔ n = number i := by
  unfold ident number
  constructor
  · split
    · intro h
      injection h with h
      subst h
      simp only
      omega
    · intro h
      cases h
  · intro h
    have := i.isLt
    rw [dif_pos (by omega)]
    simp [h]

theorem ident_number {count : Nat} (i : Fin count) : ident count (number i) = some i := ident_eq_some.2 rfl

theorem ident_eq_none {count n : Nat} : ident count n = none ↔ n = 0 ∨ count < n := by
  unfold ident
  split
  · constructor
    · intro h
      cases h
    · omega
  · constructor
    · intro _
      omega
    · intro _
      rfl

/-- The target of a TONE or a MEASURE: REFERENCE, or the output named where it is mapped to the screen (10 R171, R172). -/
theorem readTarget_eq_some {n : Fin 12} {target : Option Nat} {t : Target} :
    s.readTarget n target = some t ↔ target = none ∧ t = .reference ∨
      ∃ o, target = some (number o) ∧ (s.outputs.get o).screen = some n ∧ t = .output o := by
  cases target with
  | none => simp [State.readTarget, eq_comm]
  | some k =>
    cases hi : ident 192 k with
    | none =>
      have hk : ∀ o : Fin 192, k ≠ number o := fun o e => by simp [ident_eq_some.2 e] at hi
      simp [State.readTarget, hi, hk]
    | some o =>
      have hk := ident_eq_some.1 hi
      have ho : ∀ o' : Fin 192, k = number o' ↔ o' = o := fun o' => by
        rw [← ident_eq_some, hi, Option.some.injEq, eq_comm]
      simp only [State.readTarget, hi, reduceCtorEq, false_and, false_or, Option.some.injEq, ho, exists_eq_left]
      split
      · next h => simp [h, eq_comm]
      · next h => simp [h]

/-! ### Fields left alone by the taking and the answering of a request -/

theorem taking_eq (s : State) (i : Instr) (h : Header) :
    s.taking i h = { s with ports := s.ports.modify h.port (Port.hold i) } := rfl

theorem answering_eq (s : State) (h : Header) (a : Answer) :
    s.answering h a = { s with ports := s.ports.modify h.port (Port.answerWith a) } := rfl

/-! ### Ports -/

/-- The taking of a request changes its port's receive queue alone. -/
theorem Port.hold_frame (i : Instr) (p : Port) : ∃ q, p.hold i = { p with queue := q } := by
  unfold Port.hold
  split
  · exact ⟨_, rfl⟩
  · exact ⟨p.queue, rfl⟩

theorem Port.pump_queue (p : Port) : p.pump.queue = p.queue := by
  unfold Port.pump
  split
  · rfl
  · rfl
  · split
    · rfl
    · split <;> rfl

theorem Port.pump_notices (p : Port) : p.pump.notices.length ≤ p.notices.length := by
  unfold Port.pump
  split
  · exact Nat.le_refl _
  · exact Nat.le_refl _
  · split
    · exact Nat.le_refl _
    · split
      · exact Nat.le_refl _
      · rename_i h
        simp [h]

theorem Port.push_notices (n : Notice) (p : Port) (hp : p.notices.length ≤ 32) : (p.push n).notices.length ≤ 32 := by
  unfold Port.push Config.noticeLimit
  split
  · simp
    omega
  · simp
    omega

theorem Port.push_queue (n : Notice) (p : Port) : (p.push n).queue = p.queue := by
  unfold Port.push
  split <;> rfl

theorem Port.offer_queue (n : Notice) (p : Port) : (p.offer n).queue = p.queue := by
  unfold Port.offer
  split
  · rw [Port.pump_queue, Port.push_queue]
  · rfl

theorem Port.offer_notices (n : Notice) (p : Port) (hp : p.notices.length ≤ 32) : (p.offer n).notices.length ≤ 32 := by
  unfold Port.offer
  split
  · exact Nat.le_trans (Port.pump_notices _) (Port.push_notices n p hp)
  · exact hp

/-- A port whose transmitter is handed an answer holds it or sends it. -/
theorem Port.answerWith_hasAnswer (a : Answer) (p : Port) : (p.answerWith a).hasAnswer a := by
  unfold Port.answerWith Port.hasAnswer Port.pump
  split
  · exact Or.inl rfl
  · rename_i h
    simp only at h
    injection h with h
    subst h
    exact Or.inr rfl
  · rename_i h
    cases h

end Sys2Proof.Machine
end

