-- ==== Sys2Proof/Laws/Kept.lean ====
section
/-! SUPPORT. What the shared operations keep of the screens, of the cue pool and of the booth lines: the relations that
the proofs of the laws compose. -/

namespace Sys2Proof.Machine

/-! ### Requests -/

/-- A property that ports do not matter to is kept by a request when the request's own rule keeps it. -/
theorem takeRequest_keeps {P : State → Prop} {i : Instr} {h : Header} {kind : Nat} {act : State → Result} {s t : State}
    (hport : ∀ u p f, P u → P (u.modPort p f))
    (hact : ∀ u v c f, P u → act u = .accept v c f → P v) (hs : P s)
    (ht : takeRequest i h kind act s = .next t) : P t := by
  unfold takeRequest at ht
  split at ht
  · injection ht with ht
    subst ht
    unfold finish
    apply hport
    have hh : P (s.modPort h.port (Port.hold i)) := hport _ _ _ hs
    unfold checked
    split
    · exact hh
    · split
      · exact hh
      · cases ha : act (s.modPort h.port (Port.hold i)) with
        | refuse why => exact hh
        | accept v c f => exact hact _ _ _ _ hh ha
  · injection ht with ht
    subst ht
    exact hport _ _ _ hs

theorem onScreen_keeps {P : State → Prop} {screen : Nat} {act : Fin 12 → State → Result}
    (hact : ∀ n u v c f, P u → act n u = .accept v c f → P v) (u v : State) (c : Bool) (f : List Field) (hu : P u)
    (hv : onScreen screen act u = .accept v c f) : P v := by
  unfold onScreen at hv
  split at hv
  · cases hv
  · exact hact _ _ _ _ _ hu hv

theorem onOutput_keeps {P : State → Prop} {output : Nat} {act : Fin 192 → State → Result}
    (hact : ∀ o u v c f, P u → act o u = .accept v c f → P v) (u v : State) (c : Bool) (f : List Field) (hu : P u)
    (hv : onOutput output act u = .accept v c f) : P v := by
  unfold onOutput at hv
  split at hv
  · cases hv
  · exact hact _ _ _ _ _ hu hv

theorem ofHolder_keeps {P : State → Prop} {h : Header} {act : Fin 12 → State → Result}
    (hact : ∀ n u v c f, P u → (u.screens.get n).holder = some h.station → act n u = .accept v c f → P v)
    (n : Fin 12) (u v : State) (c : Bool) (f : List Field) (hu : P u) (hv : ofHolder h act n u = .accept v c f) :
    P v := by
  unfold ofHolder at hv
  split at hv
  · rename_i hh
    exact hact _ _ _ _ _ hu (of_decide_eq_true hh) hv
  · cases hv

theorem ofHolderOrManagement_keeps {P : State → Prop} {h : Header} {act : Fin 12 → State → Result}
    (hact : ∀ n u v c f, P u → act n u = .accept v c f → P v) (n : Fin 12) (u v : State) (c : Bool) (f : List Field)
    (hu : P u) (hv : ofHolderOrManagement h act n u = .accept v c f) : P v := by
  unfold ofHolderOrManagement at hv
  split at hv
  · exact hact _ _ _ _ _ hu hv
  · cases hv

/-! ### Screens -/

/-- Two states agree on EVAC, the stamp counter, and every screen's configuration, state, holder and stamp. -/
structure ShowKept (s t : State) : Prop where
  evac : t.evac = s.evac
  counter : t.stampCounter = s.stampCounter
  config : ∀ n, (t.screens.get n).config = (s.screens.get n).config
  state : ∀ n, (t.screens.get n).state = (s.screens.get n).state
  holder : ∀ n, (t.screens.get n).holder = (s.screens.get n).holder
  stamp : ∀ n, (t.screens.get n).stamp = (s.screens.get n).stamp

theorem ShowKept.refl (s : State) : ShowKept s s :=
  ⟨rfl, rfl, fun _ => rfl, fun _ => rfl, fun _ => rfl, fun _ => rfl⟩

theorem ShowKept.trans {s t u : State} (h : ShowKept s t) (h' : ShowKept t u) : ShowKept s u :=
  ⟨h'.evac.trans h.evac, h'.counter.trans h.counter, fun n => (h'.config n).trans (h.config n),
    fun n => (h'.state n).trans (h.state n), fun n => (h'.holder n).trans (h.holder n),
    fun n => (h'.stamp n).trans (h.stamp n)⟩

theorem ShowKept.overScreens {f : Fin 12 → State → State} (h : ∀ n t, ShowKept t (f n t)) (s : State) :
    ShowKept s (overScreens f s) :=
  overScreens_induct (P := fun t => ShowKept s t) (ShowKept.refl s) fun n t ht => ht.trans (h n t)

theorem ShowKept.overList {α : Type} {f : α → State → State} (h : ∀ x t, ShowKept t (f x t)) (l : List α) (s : State) :
    ShowKept s (overList f l s) :=
  overList_induct (P := fun t => ShowKept s t) (ShowKept.refl s) fun x _ t ht => ht.trans (h x t)

/-- A change of one screen that keeps its configuration, state, holder and stamp. -/
theorem ShowKept.modScreen (s : State) (n : Fin 12) {f : Screen → Screen} (h1 : ∀ c, (f c).config = c.config)
    (h2 : ∀ c, (f c).state = c.state) (h3 : ∀ c, (f c).holder = c.holder) (h4 : ∀ c, (f c).stamp = c.stamp) :
    ShowKept s (s.modScreen n f) := by
  refine ⟨rfl, rfl, ?_, ?_, ?_, ?_⟩
  · intro m
    simp only [modScreen_screens, Tab.get_modify]
    split
    · rename_i hm
      rw [h1, hm]
    · rfl
  · intro m
    simp only [modScreen_screens, Tab.get_modify]
    split
    · rename_i hm
      rw [h2, hm]
    · rfl
  · intro m
    simp only [modScreen_screens, Tab.get_modify]
    split
    · rename_i hm
      rw [h3, hm]
    · rfl
  · intro m
    simp only [modScreen_screens, Tab.get_modify]
    split
    · rename_i hm
      rw [h4, hm]
    · rfl

/-- Nothing about shows depends on the other fields. -/
theorem ShowKept.of_fields {s t : State} (h1 : t.screens = s.screens) (h2 : t.evac = s.evac)
    (h3 : t.stampCounter = s.stampCounter) : ShowKept s t := by
  refine ⟨h2, h3, ?_, ?_, ?_, ?_⟩ <;> intro n <;> rw [h1]

/-! ### Cues and booth lines -/

/-- What firing, skipping and re-arming keep: the screens but for house levels, the lists, the entries but for their
states, the evacuation settings and the law of the booth lines. -/
structure CueKept (s t : State) : Prop where
  frame : CueFrame s t
  screens : ∀ n, t.screens.get n = { s.screens.get n with level := (t.screens.get n).level }
  levels : ∀ n, (s.screens.get n).state ≠ .show → (t.screens.get n).level = (s.screens.get n).level
  lists : ∀ n, (t.cues.get n).timeList = (s.cues.get n).timeList ∧ (t.cues.get n).eventList = (s.cues.get n).eventList
  pool : ∀ e, (t.pool.get e).map (fun c => { c with state := none }) =
    (s.pool.get e).map fun c => { c with state := none }
  booth : BoothLaw s → BoothLaw t

theorem CueKept.refl (s : State) : CueKept s s :=
  ⟨CueFrame.refl s, fun _ => rfl, fun _ _ => rfl, fun _ => ⟨rfl, rfl⟩, fun _ => rfl, fun h => h⟩

theorem CueKept.trans {s t u : State} (h : CueKept s t) (h' : CueKept t u) : CueKept s u := by
  refine ⟨h.frame.trans h'.frame, ?_, ?_, ?_, ?_, fun hb => h'.booth (h.booth hb)⟩
  · intro n
    rw [h'.screens n, h.screens n]
  · intro n hn
    rw [h'.levels n, h.levels n hn]
    rw [h.screens n]
    exact hn
  · intro n
    exact ⟨(h'.lists n).1.trans (h.lists n).1, (h'.lists n).2.trans (h.lists n).2⟩
  · intro e
    exact (h'.pool e).trans (h.pool e)

theorem CueKept.overList {α : Type} {f : α → State → State} (h : ∀ x t, CueKept t (f x t)) (l : List α) (s : State) :
    CueKept s (overList f l s) :=
  overList_induct (P := fun t => CueKept s t) (CueKept.refl s) fun x _ t ht => ht.trans (h x t)

theorem CueKept.showKept {s t : State} (h : CueKept s t) : ShowKept s t := by
  obtain ⟨b, c, e, q, p, rfl⟩ := h.frame
  refine ⟨rfl, rfl, ?_, ?_, ?_, ?_⟩ <;> intro n <;> rw [h.screens n]

theorem notify_cueKept (m : Notice) (s : State) : CueKept s (s.notify m) :=
  ⟨notify_cueFrame m s, fun _ => rfl, fun _ _ => rfl, fun _ => ⟨rfl, rfl⟩, fun _ => rfl, fun h => h⟩

/-- A change of a line forms its output value again. -/
theorem modLine_line (n m : Fin 12) (l k : Fin 8) (f : BoothLine → BoothLine) (s : State) :
    (s.modLine n l f).line m k = if m = n ∧ k = l then (f (s.line n l)).form s.evac else s.line m k := by
  unfold State.modLine State.line
  simp only [Tab.get_modify]
  by_cases hm : n = m
  · subst hm
    by_cases hk : l = k
    · subst hk
      simp
    · simp [hk, Ne.symm hk]
  · simp [hm, Ne.symm hm]

theorem form_shown (e : Bool) (x : BoothLine) : (x.form e).output = (x.form e).shown e := by
  unfold BoothLine.form BoothLine.shown
  rfl

theorem modLine_keepsBooth (n : Fin 12) (l : Fin 8) (f : BoothLine → BoothLine) (s : State) (h : BoothLaw s) :
    BoothLaw (s.modLine n l f) := by
  intro m k
  rw [modLine_line]
  split
  · exact form_shown _ _
  · exact h m k

theorem modLine_cueKept (n : Fin 12) (l : Fin 8) (f : BoothLine → BoothLine) (s : State) : CueKept s (s.modLine n l f) :=
  ⟨⟨_, s.screens, s.pool, s.cues, s.ports, rfl⟩, fun _ => rfl, fun _ _ => rfl, fun _ => ⟨rfl, rfl⟩, fun _ => rfl,
    modLine_keepsBooth n l f s⟩

theorem perform_cueKept (n : Fin 12) (a : Action) (s : State) : CueKept s (perform n a s) := by
  cases a with
  | lineOn l => exact modLine_cueKept _ _ _ _
  | lineOff l => exact modLine_cueKept _ _ _ _
  | linePulse l k => exact modLine_cueKept _ _ _ _
  | noticeOnly => exact CueKept.refl s
  | houseLevel v =>
    refine ⟨⟨s.booth, _, s.pool, s.cues, s.ports, rfl⟩, ?_, ?_, fun _ => ⟨rfl, rfl⟩, fun _ => rfl, fun h => h⟩
    · intro m
      simp only [perform, modScreen_screens, Tab.get_modify]
      split
      · rename_i hm
        subst hm
        split <;> rfl
      · rfl
    · intro m hm
      simp only [perform, modScreen_screens, Tab.get_modify]
      split
      · rename_i hn
        subst hn
        rw [if_neg hm]
      · rfl

theorem setCue_cueKept (e : Fin 512) (c d : Cue) (s : State) (hc : s.pool.get e = some c)
    (hd : ({ d with state := none } : Cue) = { c with state := none }) : CueKept s (s.setCue e d) := by
  refine ⟨⟨s.booth, s.screens, _, s.cues, s.ports, rfl⟩, fun _ => rfl, fun _ _ => rfl, fun _ => ⟨rfl, rfl⟩, ?_,
    fun h => h⟩
  intro x
  simp only [State.setCue, Tab.get_set]
  split
  · rename_i hx
    subst hx
    rw [hc]
    simp [hd]
  · rfl

theorem modCues_cueKept (n : Fin 12) (f : CueScreen → CueScreen) (s : State) (h1 : ∀ x, (f x).timeList = x.timeList)
    (h2 : ∀ x, (f x).eventList = x.eventList) : CueKept s (s.modCues n f) := by
  refine ⟨modCues_cueFrame n f s, fun _ => rfl, fun _ _ => rfl, ?_, fun _ => rfl, fun h => h⟩
  intro m
  simp only [modCues_cues, Tab.get_modify]
  split
  · rename_i hm
    subst hm
    exact ⟨h1 _, h2 _⟩
  · exact ⟨rfl, rfl⟩

theorem fire_cueKept (e : Fin 512) (s : State) : CueKept s (fire e s) := by
  unfold fire
  split
  · rename_i c he hc
    have hp : (perform c.screen c.action s).pool = s.pool := by
      obtain ⟨b, d, h⟩ := perform_frame c.screen c.action s
      rw [h]
    have hd : ({ c.afterFiring with state := none } : Cue) = { c with state := none } := by
      unfold Cue.afterFiring
      split <;> rfl
    dsimp only
    refine CueKept.trans ?_ (notify_cueKept _ _)
    refine CueKept.trans ?_ (modCues_cueKept c.screen _ _ (fun _ => rfl) fun _ => rfl)
    exact (perform_cueKept c.screen c.action s).trans (setCue_cueKept e c c.afterFiring _ (by rw [hp, hc]) hd)
  · exact CueKept.refl s

theorem skip_cueKept (e : Fin 512) (s : State) : CueKept s (skip e s) := by
  unfold skip
  split
  · rename_i c hc
    dsimp only
    exact (setCue_cueKept e c { c with state := some .skipped } s hc rfl).trans (notify_cueKept _ _)
  · exact CueKept.refl s

theorem rearm_cueKept (e : Fin 512) (s : State) : CueKept s (rearm e s) := by
  unfold rearm
  split
  · rename_i c hc
    exact setCue_cueKept e c { c with state := some .armed } s hc rfl
  · exact CueKept.refl s

theorem advanceEntry_cueKept (j : Bool) (low : Option Nat) (time : Nat) (e : Fin 512) (s : State) :
    CueKept s (advanceEntry j low time e s) := by
  unfold advanceEntry
  split
  · split
    · split
      · exact skip_cueKept e s
      · exact fire_cueKept e s
    · exact CueKept.refl s
  · exact CueKept.refl s

theorem chaseEntry_cueKept (time : Nat) (e : Fin 512) (s : State) : CueKept s (chaseEntry time e s) := by
  unfold chaseEntry
  split
  · split
    · exact fire_cueKept e s
    · exact CueKept.refl s
  · exact CueKept.refl s

theorem processTime_cueKept (n : Fin 12) (time : Nat) (s : State) : CueKept s (processTime n time s) := by
  unfold processTime
  dsimp only
  have hc : ∀ u, CueKept u (setClock n time u) := fun u => modCues_cueKept n _ u (fun _ => rfl) fun _ => rfl
  split
  · exact hc s
  · split
    · refine CueKept.trans ?_ (CueKept.overList (chaseEntry_cueKept time) _ _)
      refine CueKept.trans ?_ (notify_cueKept _ _)
      exact (hc s).trans (CueKept.overList rearm_cueKept _ _)
    · exact (hc s).trans (CueKept.overList (advanceEntry_cueKept _ _ time) _ _)

theorem fireState_cueKept (n : Fin 12) (ev : CueEvent) (s : State) : CueKept s (fireState n ev s) :=
  CueKept.overList fire_cueKept _ s

theorem fireAlarm_cueKept (n : Fin 12) (k : AlarmKind) (s : State) : CueKept s (fireAlarm n k s) := by
  unfold fireAlarm
  split
  · exact CueKept.overList fire_cueKept _ s
  · exact CueKept.refl s

theorem takeWord_cueKept (n : Fin 12) (w : SideWord) (s : State) : CueKept s (takeWord n w s) := by
  unfold takeWord
  dsimp only
  refine CueKept.trans ?_ (modCues_cueKept n _ _ (fun _ => rfl) fun _ => rfl)
  split
  · split
    · exact (processTime_cueKept n _ s).trans (CueKept.overList fire_cueKept _ _)
    · exact processTime_cueKept n _ s
  · exact CueKept.refl s

theorem startCues_cueKept (n : Fin 12) (s : State) : CueKept s (startCues n s) := by
  unfold startCues
  dsimp only
  split
  · refine CueKept.trans ?_ (fireState_cueKept n _ _)
    refine CueKept.trans ?_ (CueKept.overList (advanceEntry_cueKept _ _ _) _ _)
    refine CueKept.trans ?_ (modCues_cueKept n _ _ (fun _ => rfl) fun _ => rfl)
    exact CueKept.overList rearm_cueKept _ s
  · exact (CueKept.overList rearm_cueKept _ s).trans (fireState_cueKept n _ _)

end Sys2Proof.Machine
end

