-- ==== Sys2Proof/Laws/Meter.lean ====
section
/-! SUPPORT. The bounds that the ranges of levels and SPL codes rest on: samples of 24 bits, the energy of a block
(05 R91), the level of a bounded sum (05 R93), and SPL codes (05 R98). -/

namespace Sys2Proof.Machine

/-- Saturation gives a sample of 24 bits. -/
theorem sat24_range (x : Int) : -8388608 ≤ sat24 x ∧ sat24 x ≤ 8388607 := by
  unfold sat24
  split <;> (try split) <;> omega

/-- The energy of a sample of 24 bits is at most 2^30. -/
theorem sampleEnergy_le {y : Int} (lo : -8388608 ≤ y) (hi : y ≤ 8388607) : sampleEnergy y ≤ 2 ^ 30 := by
  unfold sampleEnergy
  have h1 : -32768 ≤ y / 256 := by omega
  have h2 : y / 256 ≤ 32767 := by omega
  have h : y / 256 * (y / 256) ≤ 2 ^ 30 := by nlinarith
  omega

/-- The energy of samples of 24 bits is at most 2^30 for each. -/
theorem blockEnergy_le {ys : List Int} (h : ∀ y ∈ ys, -8388608 ≤ y ∧ y ≤ 8388607) :
    blockEnergy ys ≤ ys.length * 2 ^ 30 := by
  unfold blockEnergy
  have := List.sum_le_card_nsmul (ys.map sampleEnergy) (2 ^ 30) (by
    intro e he
    obtain ⟨y, hy, rfl⟩ := List.mem_map.mp he
    exact sampleEnergy_le (h y hy).1 (h y hy).2)
  simpa using this

/-- T(m) is at most 5, and at most 4 up to m = 5. -/
theorem levelFraction_le (m : Nat) : levelFraction m ≤ 5 ∧ (m ≤ 5 → levelFraction m ≤ 4) := by
  rcases m with _ | _ | _ | _ | _ | _ | m <;> simp [levelFraction]

/-- The level of a sum of at most 1.5 × 2^(k+1): the largest block, interval and window sums have k = 39, 49 and 58. -/
theorem lvl_le {v k : Nat} (h : v ≤ 3 * 2 ^ k) : lvl v ≤ 6 * (k + 1) + 5 := by
  unfold lvl
  split
  · omega
  · next hv =>
    have hp : 0 < 2 ^ k := Nat.two_pow_pos k
    have hlog : Nat.log2 v < k + 2 := (Nat.log2_lt hv).mpr (by rw [Nat.pow_add]; omega)
    have hf := levelFraction_le (v * 8 / 2 ^ Nat.log2 v - 8)
    by_cases hk : Nat.log2 v = k + 1
    · have hm : v * 8 / 2 ^ Nat.log2 v - 8 ≤ 5 := by
        rw [hk, Nat.pow_succ]
        have : v * 8 / (2 ^ k * 2) ≤ 12 := Nat.div_le_of_le_mul (by omega)
        omega
      have := hf.2 hm
      simp only
      omega
    · have := hf.1
      simp only
      omega

/-- An SPL code is at most 255. -/
theorem splCode_le (level : Nat) (offset : Int) : splCode level offset ≤ 255 := by
  unfold splCode clampInt
  split <;> (try split) <;> omega

/-- The largest block sum has the level 245. -/
theorem lvl_blockSum_le {v : Nat} (h : v ≤ maxBlockSum) : lvl v ≤ 245 := lvl_le (k := 39) (by
  unfold maxBlockSum maxEnergy at h
  omega)

/-- The largest interval sum has the level 245. -/
theorem lvl_intervalSum_le {v : Nat} (h : v ≤ maxIntervalSum) : lvl v - 60 ≤ 245 := by
  have := lvl_le (v := v) (k := 49) (by unfold maxIntervalSum maxBlockSum maxEnergy at h; omega)
  omega

/-- The largest window sum has the level 245. -/
theorem lvl_windowSum_le {v : Nat} (h : v ≤ 512 * maxIntervalSum) : lvl v - 114 ≤ 245 := by
  have := lvl_le (v := v) (k := 58) (by unfold maxIntervalSum maxBlockSum maxEnergy at h; omega)
  omega

/-- The close of a block keeps the meter's law, with one more block in the interval (05 R94). -/
theorem Meter.closeBlock_lawful {k sum : Nat} {m : Meter} (h : m.lawful k) (hs : sum ≤ maxBlockSum) :
    (m.closeBlock sum).lawful (k + 1) := by
  obtain ⟨⟨_, hi⟩, hseg, hring, ⟨_, hl⟩, ⟨_, hc⟩, ho⟩ := h
  refine ⟨⟨hs, ?_⟩, hseg, hring, ⟨lvl_blockSum_le hs, hl⟩, ⟨splCode_le _ _, hc⟩, ho⟩
  rw [Nat.succ_mul]
  exact Nat.add_le_add hi hs

/-- A segment that takes an interval sum stays in its bounds, and so do the ring and its entries (05 R96, R97). -/
theorem Meter.addSegment_bounds {m : Meter} (hi : m.intervalSum ≤ maxIntervalSum) (hf : m.segmentFill ≤ 31)
    (hs : m.segmentSum ≤ m.segmentFill * maxIntervalSum) (hr : m.ring.length ≤ 16)
    (hx : ∀ x ∈ m.ring, x ≤ 32 * maxIntervalSum) :
    (m.addSegment.segmentFill ≤ 31 ∧ m.addSegment.segmentSum ≤ m.addSegment.segmentFill * maxIntervalSum) ∧
    m.addSegment.ring.length ≤ 16 ∧ ∀ x ∈ m.addSegment.ring, x ≤ 32 * maxIntervalSum := by
  unfold Meter.addSegment
  split
  · refine ⟨⟨by show m.segmentFill + 1 ≤ 31; omega, ?_⟩, hr, hx⟩
    show m.segmentSum + m.intervalSum ≤ (m.segmentFill + 1) * maxIntervalSum
    rw [Nat.succ_mul]
    exact Nat.add_le_add hs hi
  · next hn =>
    have h31 : m.segmentFill = 31 := by omega
    rw [h31] at hs
    refine ⟨⟨Nat.zero_le _, Nat.zero_le _⟩, ?_, ?_⟩
    · show ((if 16 ≤ m.ring.length then m.ring.drop 1 else m.ring) ++ [m.segmentSum + m.intervalSum]).length ≤ 16
      split <;> simp <;> omega
    · intro x hm
      rcases List.mem_append.mp hm with h | h
      · refine hx x ?_
        split at h
        · exact List.mem_of_mem_drop h
        · exact h
      · rw [List.mem_singleton.mp h]
        omega

/-- The sum of at most 16 ring entries in their bounds. -/
theorem ring_sum_le {l : List Nat} (hr : l.length ≤ 16) (hx : ∀ x ∈ l, x ≤ 32 * maxIntervalSum) :
    l.sum ≤ 512 * maxIntervalSum := by
  have h := List.sum_le_card_nsmul l _ hx
  rw [smul_eq_mul] at h
  calc l.sum ≤ l.length * (32 * maxIntervalSum) := h
    _ ≤ 16 * (32 * maxIntervalSum) := Nat.mul_le_mul_right _ hr
    _ = 512 * maxIntervalSum := by omega

/-- The close of an interval of 1024 blocks keeps the meter's law, with no block in the new interval
(05 R95 to R101). -/
theorem Meter.closeInterval_lawful {m : Meter} (state : ShowState) (h : m.lawful Config.intervalBlocks) :
    (m.closeInterval state).lawful 0 := by
  obtain ⟨⟨hb, hi⟩, ⟨hf, hs⟩, ⟨hr, hx, hw⟩, ⟨hl, _⟩, ⟨hp, _, _, hm⟩, ho⟩ := h
  have hi' : m.intervalSum ≤ maxIntervalSum := hi
  have hseg := Meter.addSegment_bounds hi' hf hs hr hx
  have key : ∀ seg : Meter, seg = (if state = .show then m.addSegment else m) →
      (seg.segmentFill ≤ 31 ∧ seg.segmentSum ≤ seg.segmentFill * maxIntervalSum) ∧
      (seg.ring.length ≤ 16 ∧ ∀ x ∈ seg.ring, x ≤ 32 * maxIntervalSum) ∧ seg.blockSum = m.blockSum ∧
      seg.blockLevel = m.blockLevel ∧ seg.blockSpl = m.blockSpl ∧ seg.offset = m.offset := by
    intro seg e
    subst e
    split
    · refine ⟨hseg.1, hseg.2, ?_, ?_, ?_, ?_⟩ <;> (unfold Meter.addSegment; split <;> rfl)
    · exact ⟨⟨hf, hs⟩, ⟨hr, hx⟩, rfl, rfl, rfl, rfl⟩
  obtain ⟨k1, k2, k3, k4, k5, k6⟩ := key _ rfl
  have hsum := ring_sum_le k2.1 k2.2
  refine ⟨⟨?_, Nat.zero_le _⟩, k1, ⟨k2.1, k2.2, hsum⟩, ⟨?_, lvl_intervalSum_le hi', lvl_windowSum_le hsum⟩,
    ⟨?_, splCode_le _ _, splCode_le _ _, ?_⟩, ?_⟩
  · exact k3 ▸ hb
  · exact k4 ▸ hl
  · exact k5 ▸ hp
  · show (if raisesMax state = true then _ else m.showMax) ≤ 255
    split
    · exact max_le hm (splCode_le _ _)
    · exact hm
  · show -128 ≤ _ ∧ _ ≤ (127 : Int)
    exact k6 ▸ ho

end Sys2Proof.Machine
end

