-- ==== Sys2Proof/Laws/Notices.lean ====
section
/-! SUPPORT. What the shared operations tell the stations, said once: the notices of a withdrawal of alarms and of a change of
several screens, as lists handed to every port (`tell`). -/

namespace Sys2Proof.Machine

@[simp] theorem tell_nil (p : Tab Port 4) : tell [] p = p := rfl

@[simp] theorem tell_cons (n : Notice) (l : List Notice) (p : Tab Port 4) :
    tell (n :: l) p = tell l (p.map (Port.offer n)) := rfl

theorem tell_append (a b : List Notice) (p : Tab Port 4) : tell (a ++ b) p = tell b (tell a p) := by
  simp [tell, List.foldl_append]

/-- A notice is told to every port, and nothing else changes. -/
theorem notify_eq (n : Notice) (s : State) : s.notify n = { s with ports := tell [n] s.ports } := rfl

/-- Steps that only tell notices, each its own, tell them in the order of the list. -/
theorem overList_tell {α : Type} (f : α → State → State) (g : α → Option Notice) (l : List α) (s : State)
    (h : ∀ x ∈ l, ∀ p, f x { s with ports := p } = { s with ports := tell (g x).toList p }) :
    overList f l s = { s with ports := tell (l.filterMap g) s.ports } := by
  have key : ∀ l : List α, (∀ x ∈ l, ∀ p, f x { s with ports := p } = { s with ports := tell (g x).toList p }) →
      ∀ p, overList f l { s with ports := p } = { s with ports := tell (l.filterMap g) p } := by
    intro l
    induction l with
    | nil => intro _ p; rfl
    | cons x rest ih =>
      intro h p
      have e : overList f (x :: rest) { s with ports := p } = overList f rest (f x { s with ports := p }) := rfl
      rw [e, h x (by simp) p, ih (fun y hy => h y (by simp [hy]))]
      cases hg : g x <;> simp [hg]
  exact key l h s.ports

/-- The alarms of a screen are withdrawn, with their notices (06 R116, R118). -/
theorem withdrawAlarms_eq (n : Fin 12) (s : State) : withdrawAlarms n s =
    { s with
      alarms := s.alarms.modify n fun a =>
        { a with records := a.records.map AlarmRecord.withdraw, silenceRun := 0, loudTrim := 0, attention := false },
      ports := tell (withdrawals n (s.alarms.get n)) s.ports } := by
  unfold withdrawAlarms
  dsimp only
  rw [overList_tell _ fun k =>
    let r := (s.alarms.get n).records.get k.ix
    if r.state = .raised ∨ r.state = .clearing then
      some (.alarm n k .withdrawn .clear r.state r.raises r.lastShow r.detail false) else none]
  · rfl
  · intro k _ p
    unfold announceWithdrawal State.notifyAlarm
    dsimp only
    simp only [State.modAlarms, Tab.get_modify, Tab.get_map, AlarmRecord.withdraw, if_true]
    cases hr : ((s.alarms.get n).records.get k.ix).state <;> simp [AlarmState.alerting, State.notify, tell]

/-- The SHOW notices of an event that changed several screens (01 R26). -/
theorem notifyChanges_eq (before : Tab Screen 12) (cause : ShowCause) (s : State) : notifyChanges before cause s =
    { s with
      ports := tell ((List.finRange 12).filterMap fun n =>
        if (before.get n).state = (s.screens.get n).state then none
        else some (.showN n (s.screens.get n).state (before.get n).state (s.screens.get n).holder cause none none none))
        s.ports } := by
  refine overList_tell _ _ _ s fun n _ p => ?_
  split <;> rfl

end Sys2Proof.Machine
end

