-- ==== Sys2Proof/Laws/Ports.lean ====
section
/-! SUPPORT. The receiver of a port over the bytes of several frames (11 R181): what is left of its fuel does not matter,
and the bytes behind a whole frame are taken as a hunt of their own. -/

namespace Sys2Proof.Machine

/-! ### One port of the state -/

/-- A write that leaves the port as it is leaves the state as it is. -/
theorem modPort_self {s : State} {port : Fin 4} {f : Port → Port} (h : f (s.ports.get port) = s.ports.get port) :
    s.modPort port f = s := by
  have hp : s.ports.modify port f = s.ports := Tab.ext_get fun i => by
    rw [Tab.get_modify]
    split
    · next e => exact e ▸ h
    · rfl
  unfold State.modPort
  rw [hp]

/-- Two writes of one port that come to a third. -/
theorem modPort_modPort {s : State} {port : Fin 4} {f g k : Port → Port}
    (h : g (f (s.ports.get port)) = k (s.ports.get port)) : (s.modPort port f).modPort port g = s.modPort port k := by
  have hp : (s.ports.modify port f).modify port g = s.ports.modify port k := Tab.ext_get fun i => by
    simp only [Tab.get_modify]
    split
    · simpa using h
    · rfl
  unfold State.modPort
  simp only [hp]

/-! ### The receiver -/

/-- Fuel that exceeds the number of bytes is enough: more of it changes nothing. -/
theorem scan_fuel (port : Fin 4) (fuel : Nat) : ∀ (k : Nat) (buf : List LineByte) (p : Port), buf.length < fuel →
    buf.length < k → scan port fuel buf p = scan port k buf p := by
  induction fuel with
  | zero => intro k buf p h; omega
  | succ fuel ih =>
    intro k buf p hf hk
    cases k with
    | zero => omega
    | succ k =>
      cases buf with
      | nil => rfl
      | cons b rest =>
        simp only [List.length_cons] at hf hk
        have hrest : ∀ q, scan port fuel rest q = scan port k rest q := fun q => ih k rest q (by omega) (by omega)
        cases rest with
        | nil =>
          simp only [scan, hrest]
        | cons len tail =>
          have hdrop : ∀ q, scan port fuel ((b :: len :: tail).drop (len.val.toNat + 4)) q =
              scan port k ((b :: len :: tail).drop (len.val.toNat + 4)) q := fun q =>
            ih k _ q (by simp only [List.length_drop, List.length_cons] at *; omega)
              (by simp only [List.length_drop, List.length_cons] at *; omega)
          simp only [scan, hrest, hdrop]

/-- One pass over two bytes or more. -/
theorem scan_pair (port : Fin 4) (fuel : Nat) (b len : LineByte) (tail whole : List LineByte) (p : Port)
    (hw : (b :: len :: tail).take (len.val.toNat + 4) = whole) :
    scan port (fuel + 1) (b :: len :: tail) p =
      if b.val ≠ 0x7E#8 then scan port fuel (len :: tail) p
      else if len.val.toNat < 4 ∨ 250 < len.val.toNat then scan port fuel (len :: tail) p.countBad
      else if (len :: tail).length < len.val.toNat + 3 then { p with gathered := b :: len :: tail }
      else if frameHolds whole && decide (byteAt (whole.map LineByte.val) 2 / 16 = 0) then
        scan port fuel ((b :: len :: tail).drop (len.val.toNat + 4)) (p.receive (frameRequest port whole))
      else scan port fuel (len :: tail) p.countBad := by
  subst hw
  rfl

/-- A hunting receiver takes bytes as a scan with fuel enough. -/
theorem arrive_hunting (port : Fin 4) (bytes : List LineByte) (p : Port) (k : Nat) (hp : p.gathered = [])
    (hk : bytes.length < k) : p.arrive port bytes = scan port k bytes p := by
  unfold Port.arrive
  rw [hp]
  exact scan_fuel port _ k _ p (by simp) (by simpa using hk)

@[simp] theorem receive_gathered (i : Instr) (p : Port) : (p.receive i).gathered = p.gathered := by
  unfold Port.receive
  split <;> rfl

/-- A whole frame with any bytes behind it: a good request joins the queue and the rest is hunted through; any other frame
is counted and hunted through from the byte behind its start mark (11 R181, R182). -/
theorem arrive_frame (port : Fin 4) (bytes behind : List LineByte) (p : Port) (hp : p.gathered = [])
    (lo : 4 ≤ byteAt (bytes.map LineByte.val) 1) (hi : byteAt (bytes.map LineByte.val) 1 ≤ 250)
    (hlen : bytes.length = byteAt (bytes.map LineByte.val) 1 + 4) (hstart : byteAt (bytes.map LineByte.val) 0 = 0x7E) :
    p.arrive port (bytes ++ behind) =
      if frameHolds bytes = true ∧ byteAt (bytes.map LineByte.val) 2 < 16 then
        (p.receive (frameRequest port bytes)).arrive port behind
      else p.countBad.arrive port (bytes.drop 1 ++ behind) := by
  obtain ⟨start, len, tail, rfl⟩ : ∃ a b c, bytes = a :: b :: c := by
    match bytes, hlen with
    | [], h => simp at h
    | [_], h => simp at h
    | a :: b :: c, _ => exact ⟨a, b, c, rfl⟩
  have hb : start.val = 0x7E#8 := BitVec.eq_of_toNat_eq (by simpa [byteAt] using hstart)
  have hn : byteAt ((start :: len :: tail).map LineByte.val) 1 = len.val.toNat := by simp [byteAt]
  rw [hn] at lo hi hlen
  simp only [List.length_cons] at hlen
  have htake : (start :: len :: (tail ++ behind)).take (len.val.toNat + 4) = start :: len :: tail := by
    rw [show start :: len :: (tail ++ behind) = (start :: len :: tail) ++ behind from rfl]
    exact List.take_left' (by simp; omega)
  have hdrop : (start :: len :: (tail ++ behind)).drop (len.val.toNat + 4) = behind := by
    rw [show start :: len :: (tail ++ behind) = (start :: len :: tail) ++ behind from rfl]
    exact List.drop_left' (by simp; omega)
  obtain ⟨k, hk⟩ : ∃ k, tail.length + behind.length + 2 ≤ k := ⟨_, le_rfl⟩
  rw [arrive_hunting port _ p (k + 1) hp (by simp; omega), List.cons_append, List.cons_append, scan_pair _ _ _ _ _ _ _ htake, hb,
    if_neg (by simp), if_neg (by omega), if_neg (by simp; omega), hdrop]
  by_cases h : frameHolds (start :: len :: tail) = true ∧ byteAt ((start :: len :: tail).map LineByte.val) 2 < 16
  · have hd : byteAt ((start :: len :: tail).map LineByte.val) 2 / 16 = 0 := Nat.div_eq_of_lt h.2
    rw [if_pos h, h.1, hd, if_pos (by decide), arrive_hunting port behind _ k (by simp [hp]) (by omega)]
  · rw [if_neg h, if_neg (by
        simp only [Bool.and_eq_true, decide_eq_true_eq]
        exact fun g => h ⟨g.1, by omega⟩),
      arrive_hunting port _ p.countBad k hp (by simp; omega)]
    rfl

end Sys2Proof.Machine
end

