-- ==== Sys2Proof/Laws/Power.lean ====
section
/-! SUPPORT. What a recompute leaves: the grants of the computation on the state as it stands, which fit the available
draw, and 0 outside demand (08 R144). -/

namespace Sys2Proof.Machine

/-! ### The computation -/

theorem passOne_sum (a total : Nat) (l : List Demand) (h : total ≤ a) :
    total + ((passOne a total l).map Demand.reduced).sum ≤ a := by
  induction l generalizing total with
  | nil => simpa [passOne] using h
  | cons d rest ih =>
    unfold passOne
    split
    · rename_i hd
      have := ih (total + d.reduced) hd
      simp only [List.map_cons, List.sum_cons]
      omega
    · simpa using h

theorem passTwo_sum (r : Nat) (l : List Demand) :
    ((passTwo r l).map fun x => (allotGranted x).draw).sum ≤ (l.map Demand.reduced).sum + r := by
  induction l generalizing r with
  | nil => simp [passTwo]
  | cons d rest ih =>
    unfold passTwo
    split
    · rename_i hd
      have := ih (r - (d.full - d.reduced))
      simp only [List.map_cons, List.sum_cons]
      have h1 : (allotGranted (d, true)).draw = d.full := rfl
      omega
    · have := ih r
      simp only [List.map_cons, List.sum_cons]
      have h1 : (allotGranted (d, false)).draw = d.reduced := rfl
      omega

theorem granted_sum (a : Nat) (l : List Demand) : ((grantedOf a l).map fun x => (allotGranted x).draw).sum ≤ a := by
  unfold grantedOf
  dsimp only
  have h1 := passOne_sum a 0 l (Nat.zero_le _)
  have h2 := passTwo_sum (a - ((passOne a 0 l).map Demand.reduced).sum) (passOne a 0 l)
  omega

theorem passTwo_fst (r : Nat) (l : List Demand) : (passTwo r l).map Prod.fst = l := by
  induction l generalizing r with
  | nil => rfl
  | cons d rest ih =>
    unfold passTwo
    split <;> simp [ih]

theorem passOne_sublist (a total : Nat) (l : List Demand) : (passOne a total l).Sublist l := by
  induction l generalizing total with
  | nil => exact List.Sublist.refl _
  | cons d rest ih =>
    unfold passOne
    split
    · exact (ih _).cons_cons d
    · exact List.nil_sublist _

theorem granted_fst (a : Nat) (l : List Demand) : ((grantedOf a l).map Prod.fst).Sublist l := by
  unfold grantedOf
  dsimp only
  rw [passTwo_fst]
  exact passOne_sublist _ _ _

theorem rankInsert_perm (d : Demand) (l : List Demand) : (rankInsert d l).Perm (d :: l) := by
  induction l with
  | nil => exact List.Perm.refl _
  | cons e rest ih =>
    unfold rankInsert
    split
    · exact List.Perm.refl _
    · exact (ih.cons e).trans (List.Perm.swap d e rest)

theorem rank_perm (l : List Demand) : (l.foldr rankInsert []).Perm l := by
  induction l with
  | nil => exact List.Perm.refl _
  | cons d rest ih => exact (rankInsert_perm d _).trans (ih.cons d)

/-- The demanders are the screens that demand, each once. -/
theorem demanders_screens (s : State) :
    ((List.finRange 12).filterMap fun n => (s.screens.get n).demand n).map Demand.screen =
      (List.finRange 12).filter fun n => (s.screens.get n).state.demands := by
  generalize List.finRange 12 = l
  induction l with
  | nil => rfl
  | cons n rest ih =>
    rw [List.filterMap_cons, List.filter_cons, Screen.demand]
    by_cases h : (s.screens.get n).state.demands = true
    · rw [if_pos h, if_pos h, List.map_cons, ih]
    · rw [if_neg h, if_neg h, ih]

theorem ranked_screens (s : State) :
    (s.ranked.map Demand.screen).Perm ((List.finRange 12).filter fun n => (s.screens.get n).state.demands) := by
  unfold State.ranked
  rw [← demanders_screens]
  exact (rank_perm _).map _

theorem granted_screens (s : State) :
    ((grantedOf s.budget.available s.ranked).map fun x => x.1.screen).Nodup ∧
      ∀ x ∈ grantedOf s.budget.available s.ranked, (s.screens.get x.1.screen).state.demands = true := by
  have h1 : ((grantedOf s.budget.available s.ranked).map fun x => x.1.screen).Sublist (s.ranked.map Demand.screen) := by
    have := (granted_fst s.budget.available s.ranked).map Demand.screen
    simpa [List.map_map, Function.comp_def] using this
  have h2 := ranked_screens s
  have h3 : (s.ranked.map Demand.screen).Nodup := h2.nodup_iff.2 ((List.nodup_finRange 12).filter _)
  refine ⟨h1.nodup h3, ?_⟩
  intro x hx
  have hm : x.1.screen ∈ s.ranked.map Demand.screen := h1.subset (List.mem_map_of_mem hx)
  have := h2.subset hm
  simpa using (List.mem_filter.1 this).2

/-- A table's sum over the screens of what a list with one entry for each screen grants. -/
theorem find_sum (l : List (Demand × Bool)) (h : (l.map fun x => x.1.screen).Nodup) (k : List (Fin 12)) (hk : k.Nodup) :
    (k.map fun n => ((l.find? fun x => x.1.screen == n).map fun x => (allotGranted x).draw).getD 0).sum ≤
      (l.map fun x => (allotGranted x).draw).sum := by
  induction l generalizing k with
  | nil =>
    simp
  | cons x rest ih =>
    simp only [List.map_cons, List.nodup_cons] at h
    simp only [List.map_cons, List.sum_cons, List.find?_cons]
    generalize hf : (fun n => ((match x.1.screen == n with
          | true => some x
          | false => List.find? (fun x => x.1.screen == n) rest).map fun x => (allotGranted x).draw).getD 0) = f
    have hf1 : f x.1.screen = (allotGranted x).draw := by
      rw [← hf]
      simp
    have hf2 : ∀ n, n ≠ x.1.screen →
        f n = ((rest.find? fun x => x.1.screen == n).map fun x => (allotGranted x).draw).getD 0 := by
      intro n hn
      rw [← hf]
      have hb : (x.1.screen == n) = false := by simpa using Ne.symm hn
      simp only [hb]
    by_cases hx : x.1.screen ∈ k
    · have hp := List.perm_cons_erase hx
      rw [(hp.map f).sum_eq, List.map_cons, List.sum_cons, hf1]
      apply Nat.add_le_add_left
      refine Nat.le_trans (Nat.le_of_eq ?_) (ih h.2 (k.erase x.1.screen) (hk.erase _))
      congr 1
      apply List.map_congr_left
      intro n hn
      exact hf2 n ((hk.mem_erase_iff).1 hn).1
    · refine Nat.le_trans (Nat.le_of_eq ?_) (Nat.le_trans (ih h.2 k hk) (Nat.le_add_left _ _))
      congr 1
      apply List.map_congr_left
      intro n hn
      exact hf2 n fun hc => hx (hc ▸ hn)

theorem allot_draw (s : State) (n : Fin 12) :
    (s.allot.get n).draw =
      (((grantedOf s.budget.available s.ranked).find? fun x => x.1.screen == n).map fun x =>
        (allotGranted x).draw).getD 0 := by
  unfold State.allot
  simp only [Tab.get_ofFn]
  split
  · rename_i x hx
    rw [hx]
    rfl
  · rename_i hx
    rw [hx]
    rfl

/-- The draws of the computation fit the available draw (08 R144). -/
theorem allot_sum (s : State) : ((List.finRange 12).map fun n => (s.allot.get n).draw).sum ≤ s.budget.available := by
  simp only [allot_draw]
  exact Nat.le_trans (find_sum _ (granted_screens s).1 _ (List.nodup_finRange 12)) (granted_sum _ _)

/-- A screen that does not demand is allotted nothing (08 R144). -/
theorem allot_idle (s : State) (n : Fin 12) (h : (s.screens.get n).state.demands = false) :
    s.allot.get n = { status := .none, draw := 0 } := by
  unfold State.allot
  simp only [Tab.get_ofFn]
  split
  · rename_i x hx
    have h1 := (granted_screens s).2 x (List.mem_of_find?_eq_some hx)
    have h2 : x.1.screen = n := by simpa using List.find?_some hx
    rw [h2, h] at h1
    cases h1
  · rw [h]
    rfl

/-! ### The recompute -/

theorem applyAll_grants (c : PowerCause) (a : Tab Allotment 12) (l : List (Fin 12)) (hl : l.Nodup) (s : State) (n : Fin 12) :
    ((l.foldl (fun t n => applyAllotment c a n t) s).grants.get n) =
      if n ∈ l then Grant.take s.budget (a.get n) (s.grants.get n) else s.grants.get n := by
  induction l generalizing s with
  | nil => rfl
  | cons m rest ih =>
    obtain ⟨h1, h2⟩ := List.nodup_cons.1 hl
    have hg : ∀ s' : State, s'.grants = s.grants.modify m (Grant.take s.budget (a.get m)) → s'.budget = s.budget →
        ((rest.foldl (fun t n => applyAllotment c a n t) s').grants.get n) =
          if n ∈ m :: rest then Grant.take s.budget (a.get n) (s.grants.get n) else s.grants.get n := by
      intro s' e1 e2
      rw [ih h2, e1, e2, Tab.get_modify]
      by_cases hm : m = n
      · subst hm
        simp [h1]
      · simp [hm, Ne.symm hm]
    rw [List.foldl_cons]
    refine hg _ ?_ ?_
    · unfold applyAllotment
      dsimp only
      split <;> rfl
    · unfold applyAllotment
      dsimp only
      split <;> rfl

/-- The grants of a recompute (08 R144, R148). -/
theorem recompute_grants (c : PowerCause) (s : State) (n : Fin 12) :
    (recompute c s).grants.get n = Grant.take s.budget (s.allot.get n) (s.grants.get n) := by
  unfold recompute
  obtain ⟨o, x, p, h⟩ := handAll_frame s.grants (overScreens (applyAllotment c s.allot) s)
  rw [h]
  have := applyAll_grants c s.allot (List.finRange 12) (List.nodup_finRange 12) s n
  simpa [overScreens] using this

/-- The grants stand as computed on any state with the same screens, budget and grants. -/
theorem granted_of {s t : State} (h1 : t.screens = s.screens) (h2 : t.budget = s.budget) (h3 : t.grants = s.grants)
    (h : s.granted) : t.granted := by
  intro n
  have : t.allot = s.allot := by
    unfold State.allot State.ranked
    rw [h1, h2]
  rw [this, h3]
  exact h n

theorem allot_of {s t : State} (h1 : t.screens = s.screens) (h2 : t.budget = s.budget) : t.allot = s.allot := by
  unfold State.allot State.ranked
  rw [h1, h2]

theorem recompute_screens (c : PowerCause) (s : State) : (recompute c s).screens = s.screens := by
  obtain ⟨g, o, x, p, h⟩ := recompute_frame c s
  rw [h]

theorem recompute_budget (c : PowerCause) (s : State) : (recompute c s).budget = s.budget := by
  obtain ⟨g, o, x, p, h⟩ := recompute_frame c s
  rw [h]

theorem recompute_granted (c : PowerCause) (s : State) : (recompute c s).granted := by
  intro n
  rw [recompute_grants, allot_of (recompute_screens c s) (recompute_budget c s)]
  exact ⟨rfl, rfl⟩

theorem Tab.items_eq {α : Type} {n : Nat} (t : Tab α n) : t.items = (List.finRange n).map t.get := by
  obtain ⟨l, h⟩ := t
  apply List.ext_getElem
  · simp [h]
  · intro i h1 h2
    simp [Tab.get]

/-- The computation gives a state of the power law. -/
theorem powerLaw_of_granted {s : State} (h : s.granted) : PowerLaw s := by
  constructor
  · unfold State.grantSum
    rw [Tab.items_eq, List.map_map]
    have : (List.finRange 12).map (fun n => (s.grants.get n).draw) = (List.finRange 12).map fun n => (s.allot.get n).draw := by
      apply List.map_congr_left
      intro n _
      exact (h n).2
    have h2 := allot_sum s
    rw [← this] at h2
    exact h2
  · intro n hn
    rw [(h n).2, allot_idle s n hn]

end Sys2Proof.Machine
end

