-- ==== Sys2Proof/Tests/Slice0.lean ====
section
/-! SUPPORT. Tests: the well-formedness check refuses an ill-formed command for each of its checks; the numbers of the
spec's tables and worked examples; the commands at work; and, for every statement with hypotheses, a state and operands
that meet them (`test_witness_…`). -/

namespace Sys2Proof.Tests

open Sys2Proof Sys2Proof.Machine

set_option Elab.async false

/-! ### Well-formedness -/

def man : Header := { port := 0, station := 0, tag := 7#8, fits := true }
def booth : Header := { man with station := 2 }
def service : Header := { man with station := 14 }

def quiet : LaneBlock := { frames := List.replicate 48 (List.replicate 16 0), aux := List.replicate 48 (false, false) }
def noScreenSel : ScreenSel := ⟨none, none, none, none, none, none, none, none, none⟩
def noAlarmSel : AlarmSel := ⟨none, none, none, none, none, none, none, none, none⟩
def noSenseSel : SenseSel := ⟨none, none, none, none⟩
def noBudgetSel : BudgetSel := ⟨none, none, none, none, none⟩
def flat : Section := ⟨4194304, 0, 0, 0, 0⟩

/-- Ill-formed events and requests on screens, one for each check. -/
def illFormedA : List Instr :=
  [.blockFound 0 { quiet with aux := [] } 0 0, .blockFound 0 { quiet with frames := [] } 0 0, .blockFound 0 quiet 48 0,
   .laneBlockEvent 0 { quiet with frames := List.replicate 48 [0] } 0 false,
   .laneBlockEvent 0 { quiet with frames := List.replicate 48 (List.replicate 16 8388608) } 0 false,
   .laneBlockEvent 0 { quiet with aux := List.replicate 47 (true, true) } 0 false,
   .automaticStart ⟨0, { quiet with frames := [] }, 0, false⟩, .automaticStart ⟨0, { quiet with aux := [] }, 0, true⟩,
   .returnBlockEvent 0 (List.replicate 47 (true, true)), .houseBlock ⟨false, false, false, false, false, 47, 48⟩,
   .houseBlock ⟨false, false, false, false, false, 97, 48⟩, .houseBlock ⟨false, false, false, false, false, 48, 47⟩,
   .referenceLost ⟨false, false, false, false, false, 48, 97⟩,
   .frameReceived 0 [], .frameReceived 3 [⟨1#10⟩],
   .unknownRequest man 1, .unknownRequest man 52, .unknownRequest man 256, .enable man 256, .disable man 256,
   .hold man 256, .calibrate man 256, .free man 256, .start man 256, .pause man 256, .resume man 256,
   .endShow man 256 none, .endShow man 1 (some 256), .level man 256 0, .level man 1 256,
   .screenSet man 256 noScreenSel, .screenSet man 1 { noScreenSel with priority := some 256 },
   .screenSet man 1 { noScreenSel with fullDraw := some 65536 },
   .screenSet man 1 { noScreenSel with reducedDraw := some 65536 },
   .screenSet man 1 { noScreenSel with shedAtt := some 256 }, .screenSet man 1 { noScreenSel with fadeRate := some 256 },
   .screenSet man 1 { noScreenSel with lipSync := some 65536 }, .screenSet man 1 { noScreenSel with permit := some 256 },
   .screenSet man 1 { noScreenSel with laneLevel := some 256 },
   .screenSet man 1 { noScreenSel with defaultLayout := some 256 }, .screenQuery man 256]

/-- Ill-formed requests on lanes, the map, tuning, the meter and the alarms. -/
def illFormedB : List Instr :=
  [.laneSet man 256 0, .laneQuery man 256, .outputMap man 256 none, .outputMap man 1 (some (256, 1)),
   .outputMap man 1 (some (1, 256)), .outputQuery man 256, .layoutSet man 256 [],
   .layoutSet man 0 (List.replicate 256 ⟨1, .none⟩), .layoutSet man 0 [⟨256, .none⟩], .layoutSet man 0 [⟨1, .one 256 0⟩],
   .layoutSet man 0 [⟨1, .one 1 128⟩], .layoutSet man 0 [⟨1, .two 256 0 1 0⟩], .layoutSet man 0 [⟨1, .two 1 128 1 0⟩],
   .layoutSet man 0 [⟨1, .two 1 0 256 0⟩], .layoutSet man 0 [⟨1, .two 1 0 1 128⟩], .layoutQuery man 256,
   .pagingSet man (some 128), .routeQuery man 256, .tuneLoad man 256 0 0 [] 0, .tuneLoad man 1 128 0 [] 0,
   .tuneLoad man 1 0 256 [] 0, .tuneLoad man 1 0 0 (List.replicate 256 flat) 0,
   .tuneLoad man 1 0 0 [{ flat with b0 := 8388608 }] 0, .tuneLoad man 1 0 0 [{ flat with b1 := 8388608 }] 0,
   .tuneLoad man 1 0 0 [{ flat with b2 := 8388608 }] 0, .tuneLoad man 1 0 0 [{ flat with a1 := -8388609 }] 0,
   .tuneLoad man 1 0 0 [{ flat with a2 := 8388608 }] 0, .tuneLoad man 1 0 0 [] 65536, .trim man 256 0, .trim man 1 128,
   .tuneQuery man 256 1, .tuneQuery man 1 256, .gainQuery man 256, .storeQuery man 65536, .offsetSet man 256 none,
   .offsetSet man 1 (some 128), .levelQuery man 256 none, .levelQuery man 1 (some 256), .alarmSet man 256 noAlarmSel,
   .alarmSet man 1 { noAlarmSel with peakLimit := some 256 }, .alarmSet man 1 { noAlarmSel with loudLimit := some 256 },
   .alarmSet man 1 { noAlarmSel with silenceFloor := some 256 },
   .alarmSet man 1 { noAlarmSel with silenceRun := some 256 }, .alarmSet man 1 { noAlarmSel with clipLimit := some 65536 },
   .alarmSet man 1 { noAlarmSel with raiseHold := some 256 }, .alarmSet man 1 { noAlarmSel with clearHold := some 256 },
   .alarmSet man 1 { noAlarmSel with autoTrim := some 256 }, .alarmSet man 1 { noAlarmSel with trimMax := some 256 },
   .alarmQuery man 256]

/-- Ill-formed requests on line sense, power, cues, lines, calibration and the ports. -/
def illFormedC : List Instr :=
  [.senseSet man 256 noSenseSel, .senseSet man 1 { noSenseSel with shortMax := some 65536 },
   .senseSet man 1 { noSenseSel with lowDrift := some 65536 }, .senseSet man 1 { noSenseSel with highDrift := some 65536 },
   .senseSet man 1 { noSenseSel with openMin := some 65536 }, .exclude man 256, .includeOutput man 256,
   .healthQuery man 256, .budgetSet man { noBudgetSel with mains := some 65536 },
   .budgetSet man { noBudgetSel with generator := some 65536 }, .budgetSet man { noBudgetSel with battery := some 65536 },
   .budgetSet man { noBudgetSel with batteryLow := some 65536 },
   .budgetSet man { noBudgetSel with reserve := some 65536 }, .cueAdd man 256 (.time 0) .noticeOnly 0 [],
   .cueAdd man 1 (.time 16777216) .noticeOnly 0 [], .cueAdd man 1 (.state 256) .noticeOnly 0 [],
   .cueAdd man 1 (.alarm 256) .noticeOnly 0 [], .cueAdd man 1 (.call 256) .noticeOnly 0 [],
   .cueAdd man 1 (.time 0) (.lineOn 256) 0 [], .cueAdd man 1 (.time 0) (.lineOff 256) 0 [],
   .cueAdd man 1 (.time 0) (.linePulse 256 1) 0 [], .cueAdd man 1 (.time 0) (.linePulse 1 65536) 0 [],
   .cueAdd man 1 (.time 0) (.houseLevel 256) 0 [], .cueAdd man 1 (.time 0) .noticeOnly 256 [],
   .cueAdd man 1 (.time 0) .noticeOnly 0 (List.replicate 256 0x41#8), .cueRemove man 256 1, .cueRemove man 1 65536,
   .cueClear man 256, .cueQuery man 256 1, .cueQuery man 1 65536, .lineSet man 256 1 .on, .lineSet man 1 256 .on,
   .lineSet man 1 1 (.pulse 65536), .lineEvacSet man 256 1 0, .lineEvacSet man 1 256 0, .lineEvacSet man 1 1 256,
   .lineQuery man 256, .tone man 256 none 0 none, .tone man 1 (some 256) 0 none, .tone man 1 none 256 none,
   .tone man 1 none 0 (some 128), .measure man 256 none, .measure man 1 (some 256), .abort man 256, .micSet man (some 128),
   .calibrationQuery man (some 256), .markSet man 256]

theorem test_illFormed_refused :
    ((illFormedA ++ illFormedB ++ illFormedC).all fun i => !i.wellFormed) = true := by decide +kernel

/-- A few well-formed commands, at the ends of their fields. -/
def wellFormedSome : List Instr :=
  [.houseBlock ⟨true, true, true, true, true, 48, 96⟩, .houseBlock ⟨true, true, true, true, true, 96, 48⟩,
   .referenceLost ⟨true, true, true, true, true, 48, 48⟩, .laneBlockEvent 13 quiet 0 true, .blockFound 0 quiet 47 0,
   .automaticStart ⟨11, quiet, 95, true⟩,
   .returnBlockEvent 11 (List.replicate 48 (true, true)), .returnBlockEvent 11 [], .frameReceived 3 [sentByte 0x7E#8],
   .unknownRequest man 0, .unknownRequest man 53, .unknownRequest man 255, .enable man 255,
   .tuneLoad man 192 (-128) 255 [flat] 65535, .cueAdd man 12 (.time 16777215) (.linePulse 255 65535) 255 [],
   .micSet man (some (-128)), .markSet man 255, .restart man]

theorem test_wellFormed_accepted : (wellFormedSome.all Instr.wellFormed) = true := by decide +kernel

/-- The table gives no row any bits, so no word spells a command. -/
theorem test_noWordDecodes : decodeTableWord 0 0 = none ∧ State.reset.withFetchWord 16 1 = State.reset := ⟨rfl, rfl⟩

/-! ### The numbers of the spec -/

/-- The CRC of the nine characters "123456789" for the generator, start and order of 02 R29. -/
theorem test_crc : crc [0x31#8, 0x32#8, 0x33#8, 0x34#8, 0x35#8, 0x36#8, 0x37#8, 0x38#8, 0x39#8] = 0x29B1#16 := by
  decide +kernel

theorem test_gainFactor : [gainFactor 24, gainFactor 8, gainFactor (-9), gainFactor (-10), gainFactor 0,
    gainFactor (-255)] = [4174456, 1661881, 624597, 589658, 1048576, 0] := by decide +kernel

theorem test_level : [lvl 0, lvl 1, lvl 3, lvl (48 * 2 ^ 30), lvl (3 * 2 ^ 39)] = [0, 1, 11, 215, 245] := by
  decide +kernel

theorem test_saturation : [sat24 8388608, sat24 (-8388609), polarity true (-8388608), scaled 3 1048576] =
    [8388607, -8388608, 8388607, 3] := by decide +kernel

theorem test_compensation : [compStep 2 1, compStep 4 3, compStep 8 1, compStep 32 31] = [6, 2, 12, 0] := by
  decide +kernel

/-- The reports of 07 R128, with the default thresholds. -/
theorem test_reports :
    ([(2830, 354), (2000, 400), (2860, 190), (120, 1600), (2900, 20), (2900, 0)].map fun x => z16Of x.1 x.2) =
        [127, 80, 240, 1, 2320, 4095] ∧
      ([127, 80, 240, 1, 2320, 4095].map (classify Thresholds.reset)) = [.good, .low, .high, .short, .open, .open] := by
  decide +kernel

/-- 01 R1 and 08 R141: the available draw of each supply state at the defaults. -/
theorem test_available :
    [(Budget.reset false false).available, (Budget.reset true false).available, (Budget.reset false true).available,
      (Budget.reset true true).available] = [3850, 2250, 450, 50] := by decide +kernel

/-- 06 R113: with the defaults a fault is raised at the third event in a row and cleared at the fourth without it. -/
theorem test_alarmHolds :
    ([1, 2, 3].map fun k => (alarmAfter 2 3 (.clear, 0) (List.replicate k true)).1) = [.pending, .pending, .raised] ∧
      ([1, 2, 3, 4].map fun k => (alarmAfter 2 3 (.raised, 0) (List.replicate k false)).1) =
        [.clearing, .clearing, .clearing, .clear] := by decide +kernel

/-! ### Commands at work -/

/-- The state in which a screen stands so, with its holder, all else as after reset. -/
def scr (n : Fin 12) (state : ShowState) (holder : Option (Fin 16)) : State :=
  State.reset.modScreen n fun c => { c with state, holder }

/-- A side word of frame 100, rolling, level 60, from server 2, with cue call 9. -/
def word : SideWord :=
  { mark := 0xB4, layout := 0, flags := 1, reel := 1, time := 100, level := 60, server := 2, cueCall := 9, check := 11965 }

/-- The lane of screen n delivers that word. -/
def delivering (n : Fin 12) (s : State) : State :=
  s.modLane (programLane n) fun l =>
    { l with sync := .locked, alignment := some 0, skew := some 0, store := [], accepted := some word }

def next (c : Instr) (s : State) : State :=
  match exec c s with
  | .next t => t
  | _ => s

theorem test_enable : ((next (.enable man 12) State.reset).screens.get 11).state = .dark ∧
    ((next (.enable man 12) State.reset).ports.get 0).tx = some (.answer (doneAnswer man 1 false [])) := by decide +kernel

theorem test_hold : ((next (.hold booth 1) (scr 0 .dark none)).screens.get 0).holder = some 2 := by decide +kernel

theorem test_start : ((next (.start booth 1) (delivering 0 (scr 0 .armed (some 2)))).screens.get 0).state = .show ∧
    ((next (.start booth 1) (delivering 0 (scr 0 .armed (some 2)))).screens.get 0).stamp = 1 ∧
    ((next (.start booth 1) (delivering 0 (scr 0 .armed (some 2)))).cues.get 0).clock = some 100 := by decide +kernel

theorem test_role : ((next (.enable booth 1) State.reset).ports.get 0).tx =
    some (.answer (refusalAnswer booth 1 .role)) := by decide +kernel

theorem test_evac : ((next .evacAsserted (scr 0 .show (some 2))).screens.get 0).state = .evacuated := by decide +kernel

theorem test_restart : (next (.frameSent 0 true false) (next (.restart man) { State.reset with mark := 9 })).mark = 0 ∧
    (next (.restart man) { State.reset with mark := 9 }).mark = 9 := by decide +kernel

/-! ### Witnesses: states and operands that meet the hypotheses of each statement -/

def withPort (f : Port → Port) (s : State) : State := s.modPort 0 f
def fed (i : Instr) : Queued := { request := i, answered := true }
def withEvac (s : State) : State := { s with evac := true }
def mapped (o : Fin 192) (n : Fin 12) (r : Role) (s : State) : State := s.modOutput o fun x => { x with place := some (n, r) }
def lip (n : Fin 12) (v : Nat) (s : State) : State :=
  s.modScreen n fun c => { c with config := { c.config with lipSync := v } }
def draws (n : Fin 12) (v : Nat) (s : State) : State :=
  s.modScreen n fun c => { c with config := { c.config with fullDraw := v, reducedDraw := v } }
def permitted (n : Fin 12) (s : State) : State :=
  s.modScreen n fun c => { c with config := { c.config with permit := true } }
def laneIn (l : Fin 14) (f : Lane → Lane) : State := State.reset.modLane l f
def tested : State := { State.reset with selftest := { running := false, blocks := 2048, faults := [] } }
def healthOf (h : Health) (s : State) : State := s.modOutput 0 fun x => { x with sense := { x.sense with health := h } }
def sent (f : TxFrame) : State := withPort (fun p => { p with tx := some f }) State.reset

theorem test_witness_RequestsWaitTheirTurn :
    requestOf (.portStatus man) = some (man, 49) ∧
    ∀ k ∈ [1, 4], let s := withPort (fun p => { p with queue := List.replicate k (fed (.markQuery man)) }) State.reset
      (s.ports.get man.port).canTake (.portStatus man) = false ∧ (s.ports.get man.port).queue.length = k := by
  decide +kernel

theorem test_witness_RefusedBeforeTheOwner :
    requestOf (.enable booth 1) = some (booth, 1) ∧ (State.reset.ports.get 0).canTake (.enable booth 1) = true ∧
    allowed 1 booth.station = false ∧ allowed 52 man.station = true ∧ ({ man with fits := false } : Header).fits = false ∧
    (State.reset.ports.get 0).canTake (.unknownRequest booth 0) = true ∧
    (State.reset.ports.get 0).canTake (.unknownRequest booth 53) = true ∧ (State.reset.ports.get 0).queue = [] ∧
    (let r : Instr := .unknownRequest man 0;
      ((withPort (fun p => { p with queue := [{ request := r, answered := false }, fed r] }) State.reset).ports.get 0).queue =
        { request := r, answered := false } :: [fed r]) ∧
    (∀ k ∈ [1, 4],
      let p := (withPort (fun p => { p with queue := List.replicate k (fed (.markQuery man)) }) State.reset).ports.get 0
      p.canTake (.unknownRequest man 255) = false ∧ p.queue.length = k) := by decide +kernel

theorem test_witness_PortRequestsAnswered :
    State.reset.ready (.subscribe service 0xFFFF 0xFFFF) service 48 ∧ State.reset.ready (.portStatus booth) booth 49 ∧
    State.reset.ready (.markSet man 255) man 50 ∧ State.reset.ready (.markQuery service) service 51 ∧
    State.reset.ready (.restart man) man 52 := by
  unfold State.ready
  decide +kernel

/-- The frame of an ENABLE of screen 12 from station 0 with tag 7. -/
def enableFrame : List LineByte :=
  (0x7E#8 :: ([4#8, 0#8, 7#8, 1#8, 12#8] ++ checkBytes [4#8, 0#8, 7#8, 1#8, 12#8])).map sentByte

/-- A frame with the longest length, 250. -/
def longFrame : List LineByte :=
  let body := 250#8 :: List.replicate 250 0#8
  (0x7E#8 :: (body ++ checkBytes body)).map sentByte

/-- The same frame with a wrong check, and a whole good frame of another type. -/
def spoiledFrame : List LineByte := enableFrame.set 5 (sentByte 13#8)
def otherFrame : List LineByte :=
  (0x7E#8 :: ([4#8, 16#8, 7#8, 1#8, 12#8] ++ checkBytes [4#8, 16#8, 7#8, 1#8, 12#8])).map sentByte

theorem test_badFrames :
    (∀ f ∈ [spoiledFrame, otherFrame], 4 ≤ byteAt (f.map LineByte.val) 1 ∧ byteAt (f.map LineByte.val) 1 ≤ 250 ∧
      f.length = byteAt (f.map LineByte.val) 1 + 4 ∧ byteAt (f.map LineByte.val) 0 = 0x7E ∧
      (frameHolds f = false ∨ 16 ≤ byteAt (f.map LineByte.val) 2) ∧
      ((next (.frameReceived 0 (f ++ enableFrame)) State.reset).ports.get 0).badFrames = 1 ∧
      ((next (.frameReceived 0 (f ++ enableFrame)) State.reset).ports.get 0).queue.map Queued.request =
        [.enable man 12]) ∧
    (∀ k ∈ [2, 7], 2 ≤ (enableFrame.take k).length ∧
      (enableFrame.take k).length < byteAt ((enableFrame.take k).map LineByte.val) 1 + 4 ∧
      byteAt ((enableFrame.take k).map LineByte.val) 0 = 0x7E ∧
      ((next (.frameReceived 0 (enableFrame.drop k)) (next (.frameReceived 0 (enableFrame.take k)) State.reset)).ports.get
        0).queue.map Queued.request = [.enable man 12]) := by decide +kernel

/-- Two whole frames and the first three bytes of a third in one command, to a hunting receiver with an empty queue and to
one with a full queue; and no bytes at all. -/
theorem test_framesBehindFrames :
    (let bytes := enableFrame ++ (enableFrame ++ enableFrame.take 3)
     let p := (next (.frameReceived 0 bytes) State.reset).ports.get 0
     p.queue.map Queued.request = [.enable man 12, .enable man 12] ∧ p.gathered = enableFrame.take 3 ∧
      p.overruns = 0 ∧ p.badFrames = 0) ∧
    (let full := State.reset.modPort 0 fun p => { p with queue := List.replicate 4 ⟨.markQuery man, false⟩ }
     let p := (next (.frameReceived 0 (enableFrame ++ enableFrame)) full).ports.get 0
     ¬(full.ports.get 0).queue.length < 4 ∧ p.queue = (full.ports.get 0).queue ∧ p.overruns = 2) ∧
    (State.reset.ports.get 0).queue.length < 4 ∧ (next (.frameReceived 0 []) State.reset).ports = State.reset.ports := by
  decide +kernel

def evacNotice : Notice := .site (.evac true false)

/-- A port that takes every notice, with `k` of them waiting and a transmitter that is busy. -/
def subscribed (k : Nat) : Port :=
  { Port.reset with
    kinds := 0x01FF, screens := 0x0FFF, notices := List.replicate k evacNotice, tx := some (.notice evacNotice false) }

/-- The notice queue: admitted at 31, admitted with a discard at 32, not admitted without a kind or a screen flag; the
pump with an answer, a request in hand, no notice and a notice. -/
theorem test_witness_Notices :
    (subscribed 31).admits evacNotice = true ∧ (subscribed 31).notices.length < 32 ∧ 32 ≤ (subscribed 32).notices.length ∧
    ((subscribed 31).offer evacNotice).notices.length = 32 ∧ ((subscribed 31).offer evacNotice).gap = false ∧
    ((subscribed 32).offer evacNotice).notices.length = 32 ∧ ((subscribed 32).offer evacNotice).gap = true ∧
    ((subscribed 32).offer evacNotice).discarded = 1 ∧ Port.reset.admits evacNotice = false ∧
    ({ subscribed 0 with screens := 0 } : Port).admits (.power 0 .full .none 0 .mains 0 .demand) = false ∧
    (subscribed 0).tx ≠ none ∧ Port.reset.tx = none ∧ Port.reset.answer = none ∧ Port.reset.queue = [] ∧
    ({ Port.reset with queue := [{ request := .markQuery man, answered := false }] } : Port).awaiting = true ∧
    ({ subscribed 1 with tx := none, gap := true } : Port).pump.tx = some (.notice evacNotice true) ∧
    ({ subscribed 1 with tx := none, gap := true } : Port).pump.gap = false ∧
    ({ subscribed 1 with tx := none, answer := some (refusalAnswer man 1 .state) } : Port).pump.tx =
      some (.answer (refusalAnswer man 1 .state)) := by decide +kernel

set_option maxRecDepth 100000 in
theorem test_witness_FramesReceivedAndSent :
    (State.reset.ports.get 0).gathered = [] ∧
    (∀ f ∈ [enableFrame, longFrame], 4 ≤ byteAt (f.map LineByte.val) 1 ∧ byteAt (f.map LineByte.val) 1 ≤ 250 ∧
      f.length = byteAt (f.map LineByte.val) 1 + 4 ∧ byteAt (f.map LineByte.val) 0 = 0x7E ∧ frameHolds f = true ∧
      byteAt (f.map LineByte.val) 2 < 16) ∧
    frameRequest 0 enableFrame = .enable man 12 ∧ (State.reset.ports.get 0).tx = none ∧ 0#8 ≠ 0x7E#8 ∧
    (∀ v ∈ [3#8, 251#8], v ≠ 0x7E#8 ∧ (v.toNat < 4 ∨ 250 < v.toNat)) ∧
    ((sent (.notice (.site (.evac true false)) false)).ports.get 0).tx = some (.notice (.site (.evac true false)) false) ∧
    ((sent (.answer (refusalAnswer man 52 .role))).ports.get 0).tx = some (.answer (refusalAnswer man 52 .role)) ∧
    (refusalAnswer man 52 .role).outcome ≠ .done ∧
    ((sent (.answer (doneAnswer man 52 false []))).ports.get 0).tx = some (.answer (doneAnswer man 52 false [])) ∧
    (doneAnswer man 52 false []).kind = 52 ∧ (doneAnswer man 52 false []).outcome = .done := by decide +kernel

/-- A body written out by 11 R180: a TIME trigger at frame 65,793 with chase, pulsing line 8 for 513 blocks, label AB. -/
def cueBody : List Byte := [12#8, 0#8, 1#8, 1#8, 1#8, 2#8, 8#8, 2#8, 1#8, 1#8, 2#8, 0x41#8, 0x42#8]

theorem test_requestBodies :
    readRequest man 36 cueBody = .cueAdd man 12 (.time 65793) (.linePulse 8 513) 1 [0x41#8, 0x42#8] ∧
    readRequest man 22 [192#8, 0xB0#8] = .trim man 192 (-80) ∧
    readRequest man 15 [192#8, 1#8, 12#8, 2#8] = .outputMap man 192 (some (12, 2)) ∧
    readRequest man 15 [192#8, 0#8, 0#8, 0#8] = .outputMap man 192 none ∧
    readRequest man 40 [1#8, 8#8, 2#8, 0#8, 25#8] = .lineSet man 1 8 (.pulse 25) ∧
    readRequest man 17 [15#8, 2#8, 2#8, 1#8, 3#8, 0xFA#8, 1#8, 0#8] =
      .layoutSet man 15 [⟨2, .one 3 (-6)⟩, ⟨1, .none⟩] := by decide +kernel

/-- The requests of the bodies above, with kinds without fields, with every field carried, and with none. -/
theorem test_witness_RequestBodies :
    (∀ i ∈ [Instr.cueAdd man 12 (.time 65793) (.linePulse 8 513) 1 [0x41#8, 0x42#8], .restart man, .pagingSet man none,
        .budgetSet man ⟨some 65535, none, some 0, none, some 1⟩, .tuneLoad man 192 (-80) 1 [flat] 9599],
      ∃ kind ∈ [19, 21, 34, 36, 52], requestOf i = some (man, kind) ∧ man.fits = true ∧ i.wellFormed = true ∧
        readRequest man kind i.body = i ∧ requestOf (readRequest man kind (i.body ++ [0#8])) =
          some ({ man with fits := false }, kind) ∧
        requestOf (readRequest man kind (i.body.drop i.body.length)) = some ({ man with fits := false }, kind)) ∧
    (Instr.cueAdd man 12 (.time 65793) (.linePulse 8 513) 1 [0x41#8, 0x42#8]).body = cueBody ∧
    (2#8 : Byte).toNat > 1 ∧ (0 = 0 ∨ 52 < 0) ∧ 52 < 53 := by decide +kernel

/-- A body whose parts each stand in turn with a presence byte of 2, or a count one too high. -/
def spoiledBodies (i : Instr) : List (List Byte) :=
  (List.range i.parts.length).filterMap fun k =>
    let around (b : Byte) := bodyOf (i.parts.take k) ++ b :: bodyOf (i.parts.drop (k + 1))
    match i.parts[k]? with
    | some (.presence _) => some (around 2#8)
    | some (.count n) => some (around (BitVec.ofNat 8 (n + 1)))
    | _ => none

/-- Presence bytes and counts at the front, in the middle and at the end of a body; none of the spoiled bodies fits. -/
theorem test_witness_SpoiledBodies :
    ([(Instr.screenSet man 12 { noScreenSel with priority := some 1, lipSync := some 7 }, 9),
        (.tone service 1 none 1 (some (-3)), 2), (.outputMap man 192 (some (12, 2)), 1), (.pagingSet man (some 12), 1),
        (.layoutSet man 15 [⟨2, .one 3 (-6)⟩, ⟨1, .none⟩], 1), (.tuneLoad man 192 (-80) 1 [flat] 9599, 1),
        (.cueAdd man 12 (.time 65793) (.linePulse 8 513) 1 [0x41#8, 0x42#8], 1)].all fun x =>
      x.1.wellFormed && decide ((spoiledBodies x.1).length = x.2) && ((requestOf x.1).any fun r =>
        decide (readRequest r.1 r.2 x.1.body = x.1) && (spoiledBodies x.1).all fun b =>
          decide (requestOf (readRequest r.1 r.2 b) = some ({ r.1 with fits := false }, r.2)))) = true ∧
    (2#8 : Byte).toNat > 1 ∧ (3#8 : Byte).toNat ≠ 2 := by decide +kernel

/-- A byte on the line written out bit by bit in order of time, and frames of an answer and a notice byte by byte. -/
theorem test_sentFrames :
    (List.range 10).map (fun k => (sentByte 0x7D#8).bits.getLsbD k) =
      [false, true, false, true, true, true, true, true, false, true] ∧
    ((TxFrame.answer (doneAnswer { man with station := 15 } 19 true [.num 1 (-40)])).bytes.take 8 =
      [0x7E#8, 6#8, 31#8, 7#8, 19#8, 0#8, 1#8, 0xD8#8]) ∧
    ((TxFrame.notice (.selftest 4094 2) true).bytes.take 10 =
      [0x7E#8, 8#8, 0x20#8, 0#8, 9#8, 1#8, 15#8, 254#8, 0#8, 2#8]) := by decide +kernel

theorem test_witness_Roles : [0, 1, 2, 13, 14, 15].map roleOf =
    [.management, .management, .booth, .booth, .service, .service] := by decide +kernel

/-- Identifiers below and above their range reach the owner of every request on a screen or an output. -/
theorem test_witness_Ranges :
    (∀ k ∈ [0, 13], ∀ x ∈ [(Instr.enable man k, 1), (.disable man k, 2), (.hold man k, 3), (.free man k, 5),
        (.start man k, 6), (.pause man k, 7), (.resume man k, 8), (.endShow man k none, 9), (.level man k 0, 10),
        (.screenSet man k noScreenSel, 11), (.gainQuery man k, 24), (.levelQuery man k none, 27),
        (.alarmSet man k noAlarmSel, 28), (.alarmQuery man k, 29), (.cueAdd man k (.time 0) .noticeOnly 0 [], 36),
        (.cueRemove man k 1, 37), (.cueClear man k, 38), (.cueQuery man k 1, 39), (.lineSet man k 1 .on, 40),
        (.lineEvacSet man k 1 0, 41), (.lineQuery man k, 42), (.calibrationQuery man (some k), 47)],
      State.reset.ready x.1 man x.2) ∧
    (∀ k ∈ [0, 13], ∀ x ∈ [(Instr.calibrate service k, 4), (.tone service k none 0 none, 43), (.measure service k none, 44),
        (.abort service k, 45)], State.reset.ready x.1 service x.2) ∧
    (∀ k ∈ [0, 193], ∀ x ∈ [(Instr.tuneLoad man k 0 0 [] 0, 21), (.trim man k 0, 22), (.tuneQuery man k 1, 23),
        (.levelQuery man 1 (some k), 27), (.senseSet man k noSenseSel, 30), (.exclude man k, 31),
        (.includeOutput man k, 32), (.healthQuery man k, 33)], State.reset.ready x.1 man x.2) := by
  unfold State.ready
  decide +kernel

theorem test_witness_SiteQueriesAnswered :
    ident 12 12 = some 11 ∧ State.reset.ready (.screenQuery man 12) man 12 ∧ ident 14 14 = some 13 ∧
    State.reset.ready (.laneQuery man 14) man 14 ∧ ident 192 192 = some 191 ∧
    State.reset.ready (.outputQuery man 192) man 16 ∧ ident0 16 15 = some 15 ∧
    State.reset.ready (.layoutQuery man 15) man 18 ∧ State.reset.ready (.routeQuery man 12) man 20 ∧
    State.reset.ready (.screenQuery man 0) man 12 ∧ State.reset.ready (.screenQuery man 13) man 12 ∧
    (∀ k ∈ [0, 15], State.reset.ready (.laneQuery man k) man 14) ∧
    (∀ k ∈ [0, 193], State.reset.ready (.outputQuery man k) man 16) ∧
    (∀ k ∈ [0, 13], State.reset.ready (.routeQuery man k) man 20) ∧
    State.reset.ready (.layoutQuery man 16) man 18 := by
  unfold State.ready
  decide +kernel

theorem test_witness_SoundQueriesAnswered :
    State.reset.ready (.tuneQuery man 192 1) man 23 ∧ State.reset.ready (.tuneQuery man 192 0) man 23 ∧
    State.reset.ready (.gainQuery man 12) man 24 ∧ State.reset.ready (.storeQuery man 1) man 25 ∧
    State.reset.ready (.storeQuery man 0) man 25 ∧ State.reset.ready (.levelQuery man 12 none) man 27 ∧
    State.reset.ready (.levelQuery man 12 (some 192)) man 27 := by
  unfold State.ready
  decide +kernel

theorem test_witness_UnitQueriesAnswered :
    State.reset.ready (.healthQuery man 192) man 33 ∧ State.reset.ready (.powerQuery man) man 35 ∧
    State.reset.ready (.cueQuery man 12 1) man 39 ∧ State.reset.ready (.lineQuery man 12) man 42 ∧
    State.reset.ready (.calibrationQuery man none) man 47 ∧ State.reset.ready (.calibrationQuery man (some 12)) man 47 ∧
    State.reset.ready (.alarmQuery man 12) man 29 := by
  unfold State.ready
  decide +kernel

/-- Screens 12 and 1 demand: the one with the smaller priority number stands first. -/
theorem test_placeInRank :
    (let s := (scr 11 .show (some 2)).modScreen 0 fun c =>
       { c with state := .show, config := { c.config with priority := 3 } }
     (s.place 11, s.place 0, s.place 1)) = (some 1, some 2, none) := by decide +kernel

theorem test_witness_EnableAndDisable :
    State.reset.ready (.enable man 12) man 1 ∧ (State.reset.screens.get 11).state = .offline ∧
    (scr 11 .dark none).ready (.enable man 12) man 1 ∧ ((scr 11 .dark none).screens.get 11).state ≠ .offline ∧
    State.reset.ready (.disable man 12) man 2 ∧ (State.reset.screens.get 11).state ≠ .dark ∧
    (scr 11 .dark none).ready (.disable man 12) man 2 ∧ ((scr 11 .dark none).screens.get 11).state = .dark := by
  unfold State.ready
  decide +kernel

/-- A DISABLE with a RAISED and a CLEARING alarm tells two withdrawals, then the SHOW notice. -/
theorem test_disableNotices :
    (let s : State := { scr 0 .dark none with ports := .fill 4 (subscribed 0) }.modAlarms 0 fun a =>
        { a with records := (a.records.modify 1 fun r => { r with state := .raised, raises := 4 }).modify 3 fun r =>
          { r with state := .clearing } }
     ((next (.disable man 1) s).ports.get 2).notices =
      [.alarm 0 .loud .withdrawn .clear .raised 4 none none false,
       .alarm 0 .clip .withdrawn .clear .clearing 0 none none false,
       .showN 0 .offline .dark none .request (some 0) none none]) := by decide +kernel

/-- The same with a word of station 3's server. -/
def otherWord (s : State) : State :=
  s.modLane 0 fun l => { l with sync := .locked, accepted := some { word with server := 3 } }

theorem test_witness_HoldClaims :
    (scr 0 .armed (some 3)).ready (.hold booth 1) booth 3 ∧ ((scr 0 .armed (some 3)).screens.get 0).holder ≠ none ∧
    State.reset.ready (.hold booth 1) booth 3 ∧ (State.reset.screens.get 0).holder = none ∧
    (State.reset.screens.get 0).state ≠ .dark ∧
    (otherWord (scr 0 .dark none)).ready (.hold booth 1) booth 3 ∧ roleOf booth.station = .booth ∧
    ((otherWord (scr 0 .dark none)).lanes.get (programLane 0)).delivering = true ∧
    ((otherWord (scr 0 .dark none)).lanes.get (programLane 0)).accepted = some { word with server := 3 } ∧
    word.server = booth.station.val ∧ (delivering 0 (scr 0 .dark none)).ready (.hold booth 1) booth 3 ∧
    ((delivering 0 (scr 0 .dark none)).lanes.get (programLane 0)).accepted = some word := by
  unfold State.ready
  decide +kernel

theorem test_witness_CalibrateClaims :
    State.reset.ready (.calibrate service 1) service 4 ∧
    ((scr 0 .armed (some 3)).screens.get 0).holder ≠ none ∧ (State.reset.screens.get 0).state ≠ .dark ∧
    (withEvac (scr 0 .dark none)).evac = true ∧ ((withEvac (scr 0 .dark none)).screens.get 0).state = .dark ∧
    ((candidate 0 .calibrating (some 14) (draws 0 3851 (scr 0 .dark none))).allot.get 0).status = .suspended ∧
    ((candidate 0 .calibrating (some 14) (draws 0 3850 (scr 0 .dark none))).allot.get 0).status ≠ .suspended ∧
    (draws 0 3850 (scr 0 .dark none)).stampCounter < 4294967295 := by
  unfold State.ready
  decide +kernel

/-- A screen in calibration under station 14, with a measurement of its reference group in flight. -/
def measuring : State :=
  { scr 0 .calibrating (some 14) with
    context :=
      { phase := .quiet, screen := some 0, target := some .reference, station := some 14, count := 0, micSum := 0,
        targetSum := 0, background := none } }

theorem measuring_law : CalibrationLaw measuring := by
  refine ⟨fun h => ?_, fun _ => ⟨0, .reference, rfl, rfl, rfl, fun o h => ?_⟩, fun o h => ?_⟩
  · cases h
  · cases h
  · have : (measuring.outputs.get o).toneFlag = false := by
      show ((Tab.fill 192 Output.reset).get o).toneFlag = false
      rw [Tab.get_fill]
      rfl
    rw [this] at h
    cases h

theorem test_witness_FreeReleasesOrTakesOver :
    (scr 0 .armed (some 3)).ready (.free booth 1) booth 5 ∧
    ((scr 0 .armed (some 3)).screens.get 0).holder ≠ some booth.station ∧ roleOf booth.station ≠ .management ∧
    ((scr 0 .show (some 2)).screens.get 0).holder = some booth.station ∧
    ((scr 0 .show (some 2)).screens.get 0).state ≠ .armed ∧
    ((scr 0 .show (some 2)).screens.get 0).state ≠ .calibrating ∧
    State.reset.ready (.free man 1) man 5 ∧ roleOf man.station = .management ∧
    ((scr 0 .evacuated (some 2)).screens.get 0).state = .evacuated ∧
    ((scr 0 .ending (some 2)).screens.get 0).state.playing = true ∧
    measuring.ready (.free service 1) service 5 ∧ (measuring.screens.get 0).holder = some service.station ∧
    (measuring.screens.get 0).state = .calibrating ∧ measuring.context.screen = some 0 := by
  unfold State.ready
  decide +kernel

theorem test_witness_StartJudged :
    (scr 0 .armed (some 2)).ready (.start booth 1) booth 6 ∧
    ((scr 0 .armed (some 3)).screens.get 0).holder ≠ some booth.station ∧
    ((scr 0 .ending (some 2)).screens.get 0).state = .ending ∧ ((scr 0 .show (some 2)).screens.get 0).state ≠ .armed ∧
    (withEvac (scr 0 .armed (some 2))).evac = true ∧
    ((scr 0 .armed (some 2)).lanes.get (programLane 0)).delivering = false ∧
    ((delivering 0 (scr 0 .armed (some 2))).lanes.get (programLane 0)).delivering = true ∧
    ((candidate 0 .show (some 2) (draws 0 3851 (delivering 0 (scr 0 .armed (some 2))))).allot.get 0).status =
      .suspended ∧
    ((candidate 0 .show (some 2) (draws 0 3850 (delivering 0 (scr 0 .armed (some 2))))).allot.get 0).status ≠
      .suspended := by
  unfold State.ready
  decide +kernel

theorem test_witness_PauseResumeAndEnd :
    (scr 11 .show (some 2)).ready (.pause booth 12) booth 7 ∧ (scr 11 .paused (some 2)).ready (.resume booth 12) booth 8 ∧
    (scr 11 .show (some 2)).ready (.endShow booth 12 (some 0)) booth 9 ∧
    (scr 11 .paused (some 2)).ready (.endShow booth 12 (some 255)) booth 9 ∧
    ((scr 11 .show (some 2)).screens.get 11).holder = some booth.station ∧
    ((scr 11 .show (some 3)).screens.get 11).holder ≠ some booth.station ∧
    ((scr 11 .ending (some 2)).screens.get 11).state = .ending ∧
    ((scr 11 .armed (some 2)).screens.get 11).state ≠ .show ∧
    ((scr 11 .armed (some 2)).screens.get 11).state ≠ .paused := by
  unfold State.ready
  decide +kernel

def lipSel (v : Nat) : ScreenSel := { noScreenSel with lipSync := some v }

theorem test_witness_ScreenSetStores :
    (scr 0 .armed (some 2)).ready (.screenSet man 1 (lipSel 4799)) man 11 ∧
    (((scr 0 .armed (some 2)).screens.get 0).config.select (lipSel 4799)).value.lipSync ≠
      ((scr 0 .armed (some 2)).screens.get 0).config.lipSync ∧
    ((scr 0 .armed (some 2)).screens.get 0).state ≠ .offline ∧ ((scr 0 .armed (some 2)).screens.get 0).state ≠ .dark ∧
    State.reset.reallocRefusal (State.reset.lipChanges 0 4799) = some .starting ∧
    ((State.reset.screens.get 0).config.select noScreenSel).value.lipSync = (State.reset.screens.get 0).config.lipSync ∧
    tested.ready (.screenSet man 1 (lipSel 4799)) man 11 ∧ (tested.screens.get 0).state = .offline ∧
    tested.reallocRefusal (tested.lipChanges 0 4799) = none := by
  unfold State.ready
  decide +kernel

def fading (att count : Nat) : State :=
  State.reset.modScreen 0 fun c =>
    { c with state := .ending, holder := some 2, stamp := 1, fadeAtt := att, fadeCount := count, rateInEffect := some 1 }

theorem test_witness_FadeStepAndCompletion :
    ((fading 79 0).screens.get 0).state = .ending ∧ ((fading 79 0).screens.get 0).fadeTaken = false ∧
    ((fading 79 0).screens.get 0).rateInEffect.getD 50 ≤ ((fading 79 0).screens.get 0).fadeCount + 1 ∧
    (State.reset.screens.get 0).state ≠ .ending ∧ 80 ≤ ((fading 80 0).screens.get 0).fadeAtt ∧
    ¬80 ≤ ((fading 79 0).screens.get 0).fadeAtt := by decide +kernel

/-- A fade that ends by its own rows and one that begins after it in the same house block: the house block advances the
new one. -/
theorem test_newFadeAdvances :
    (let s := next (.fadeCompletion 0) (next (.fadeStep 0) (delivering 0 (fading 79 0)))
     let t := next (.endShow booth 1 (some 1)) (next (.start { booth with port := 1 } 1) s)
     let u := (next (.houseBlock ⟨false, false, false, false, false, 48, 48⟩) t).screens.get 0
     (s.screens.get 0).state = .armed ∧ (t.screens.get 0).state = .ending ∧ (t.screens.get 0).fadeAtt = 0 ∧
      u.state = .ending ∧ u.fadeAtt = 1) := by decide +kernel

theorem test_witness_EvacMovesScreens :
    (withEvac measuring).evac = true ∧ measuring.evac = false ∧ CalibrationLaw measuring ∧
    ((mapped 0 0 .c measuring).outputs.get 0).screen = some 0 ∧
    ({ measuring with stampCounter := 4294967283 } : State).stampCounter + 12 ≤ 4294967295 :=
  ⟨rfl, rfl, measuring_law, by decide +kernel, by decide +kernel⟩

/-- A good block: silence, with the check over its side word's first ten bytes. -/
def goodSide : List Byte :=
  let body := [0xB4#8, 0#8, 1#8, 1#8, 0#8, 0#8, 100#8, 60#8, 2#8, 9#8]
  body ++ checkBytes body

def good : LaneBlock := { quiet with aux := auxOfBytes goodSide }

/-- A good block with the ROLLING flag clear. -/
def still : LaneBlock :=
  let body := [0xB4#8, 0#8, 0#8, 1#8, 0#8, 0#8, 100#8, 61#8, 2#8, 9#8]
  { quiet with aux := auxOfBytes (body ++ checkBytes body) }

/-- Screen 1 armed with its permit on, and its lane locked. -/
def startsByWord : State := permitted 0 (delivering 0 (scr 0 .armed (some 2)))

theorem test_witness_AutomaticStartJudged :
    readSideWord good.side = word ∧ goodBlock good.side = true ∧ (startsByWord.screens.get 0).rolls word ∧
    ¬((scr 0 .armed (some 2)).screens.get 0).rolls word ∧
    (startsByWord.lanes.get (programLane 0)).sync = .locked ∧
    startsByWord.evac = false ∧ (withEvac startsByWord).evac = true ∧ startsByWord.stampCounter < 4294967295 ∧
    ((candidate 0 .show (some 2) startsByWord).allot.get 0).status ≠ .suspended ∧
    ((candidate 0 .show (some 2) (draws 0 3851 startsByWord)).allot.get 0).status = .suspended ∧
    (startsByWord.screens.get 0).config.laneLevel = false ∧ word.level ≠ (startsByWord.screens.get 0).lastLevel := by
  unfold Screen.rolls
  decide +kernel

/-- The word that starts the show sets its level, at both orders of its readers, on a lane in LOCKED, in FLYWHEEL and at
its third good block; the orders differ in the layout source. -/
theorem test_automaticStart :
    (∀ x ∈ [(Sync.locked, none), (.flywheel, none), (.probation, some 2)], ∀ last ∈ [false, true],
      let s := (startsByWord.modScreen 0 fun c => { c with config := { c.config with laneLevel := true } }).modLane 0
        fun l => { l with sync := x.1, good := x.2 }
      let t := next (.automaticStart ⟨0, good, 0, last⟩) s
      (t.screens.get 0).state = .show ∧ (t.screens.get 0).level = 60 ∧ (t.screens.get 0).lastRolling = some true ∧
      (t.routes.get 0).held = some 0 ∧ (t.routes.get 0).source = (if last then .default else .lane) ∧
      (t.cues.get 0).clock = some 100 ∧ (t.cues.get 0).lastCall = 9) ∧
    next (.automaticStart ⟨0, still, 0, false⟩) startsByWord = startsByWord ∧
    ((next (.automaticStart ⟨0, good, 0, true⟩) (withEvac startsByWord)).screens.get 0).state = .armed := by decide +kernel

/-- After a word is taken, AUTOMATIC_START with the next one and a house block. -/
def wordThen (f : State → State) (s : State) : Screen :=
  (next (.houseBlock ⟨false, false, false, false, false, 48, 48⟩)
    (next (.automaticStart ⟨0, good, 0, true⟩) (f (next (.laneBlockEvent 0 good 0 true) s)))).screens.get 0

/-- An edge taken in DARK is spent, and so are one taken while the permit is off and a level request taken in ARMED: no
later command starts the show or sets the level by them. -/
theorem test_spentWords :
    (let c := wordThen (next (.hold booth 1)) (permitted 0 (delivering 0 (scr 0 .dark none)))
     c.state = .armed ∧ c.lastRolling = some true) ∧
    (let c := wordThen (permitted 0) (delivering 0 (scr 0 .armed (some 2)))
     c.state = .armed ∧ c.lastRolling = some true) ∧
    (let c := wordThen (next (.start booth 1)) ((delivering 0 (scr 0 .armed (some 2))).modScreen 0 fun c =>
        { c with level := 7, config := { c.config with laneLevel := true } })
     c.state = .show ∧ c.level = 7 ∧ c.lastLevel = 60) := by decide +kernel

theorem test_witness_LaneSearch :
    (State.reset.lanes.get 0).sync = .nosignal ∧
    ((delivering 0 State.reset).lanes.get 0).sync ≠ .nosignal ∧ laneScreen 0 = some 0 ∧
    ((delivering 0 State.reset).lanes.get 0).accepted = some word ∧ laneScreen 13 = none ∧ laneScreen 11 = some 11 ∧
    ((laneIn 13 fun l => { l with sync := .hunt }).lanes.get 13).sync = .hunt ∧ goodBlock good.side = true ∧
    goodBlock quiet.side = false := by decide +kernel

theorem test_witness_LaneBlocks :
    readSideWord good.side = word ∧ goodBlock good.side = true ∧ goodBlock quiet.side = false ∧
    (State.reset.layoutRecord word.layout).isSome = true ∧ (State.reset.layoutRecord 1).isSome = false ∧
    (State.reset.layoutRecord 16).isSome = false ∧ laneScreen 12 = none ∧
    (∀ x ∈ [(Sync.probation, some 1, none), (.probation, some 2, none), (.locked, none, none),
        (.flywheel, none, some 1), (.flywheel, none, some 3), (.flywheel, none, some 4)],
      ((laneIn 0 fun l => { l with sync := x.1, good := x.2.1, bad := x.2.2 }).lanes.get 0).sync = x.1 ∧
      ((laneIn 0 fun l => { l with sync := x.1, good := x.2.1, bad := x.2.2 }).lanes.get 0).good = x.2.1 ∧
      ((laneIn 0 fun l => { l with sync := x.1, good := x.2.1, bad := x.2.2 }).lanes.get 0).bad = x.2.2) := by
  decide +kernel

def stored (k : Nat) (sync : Sync) : Lane := { Lane.reset with sync, store := List.replicate k quiet.frames }

theorem test_witness_ElasticStore :
    (stored 3 .locked).store.length < 4 ∧ 4 ≤ (stored 4 .locked).store.length ∧
    (stored 1 .flywheel).delivering = true ∧ (stored 1 .flywheel).store = quiet.frames :: [] ∧
    (stored 0 .locked).delivering = true ∧ (stored 0 .locked).store = [] ∧ (stored 0 .probation).delivering = false := by
  decide +kernel

theorem test_witness_LaneSetAndLayoutSet :
    State.reset.ready (.laneSet man 14 0xFFFF) man 13 ∧ ident 14 14 = some 13 ∧ State.reset.ready (.laneSet man 15 0) man 13 ∧
    State.reset.ready (.layoutSet man 15 [⟨12, .two 1 (-24) 16 0⟩, ⟨12, .one 16 1⟩]) man 17 ∧ ident0 16 15 = some 15 ∧
    (∀ r ∈ ([⟨12, .two 1 (-24) 16 0⟩, ⟨12, .one 16 1⟩] : List RoleSource),
      1 ≤ r.role ∧ r.role ≤ 12 ∧ sourceValid r.source = true) ∧
    sourceValid (.one 17 0) = false ∧ sourceValid (.one 0 0) = false ∧ sourceValid .none = true ∧
    State.reset.ready (.layoutSet man 0 [⟨1, .none⟩]) man 17 ∧ slot [[5, 6], [7]] 2 = [6, 0] := by
  unfold State.ready
  decide +kernel

theorem test_witness_PagingStep :
    State.reset.ready (.pagingSet man (some (-41))) man 19 ∧ State.reset.ready (.pagingSet man (some 13)) man 19 ∧
    State.reset.ready (.pagingSet man none) man 19 ∧
    ((withEvac (mapped 0 0 .c (scr 0 .dark none))).plan (State.reset.lanes.map Lane.handed) 0).figures.pagingRoles ≠ [] ∧
    ((withEvac (mapped 0 0 .l (scr 0 .dark none))).plan (State.reset.lanes.map Lane.handed) 0).figures.pagingRoles ≠ [] ∧
    ((sent (.answer (doneAnswer man 52 false []))).ports.get 0).tx = some (.answer (doneAnswer man 52 false [])) := by
  unfold State.ready
  decide +kernel

theorem test_witness_HouseClockAndHouseBlock :
    State.reset.clock = .free ∧ ({ State.reset with clock := .locked } : State).clock = .locked ∧
    State.reset.intervalTaken = false ∧ State.reset.selftest.running = true ∧ tested.selftest.running = false ∧
    ({ State.reset with blockCount := 1023 } : State).blockCount + 1 = 1024 ∧ State.reset.blockCount + 1 ≠ 1024 ∧
    ({ State.reset with intervalTaken := true } : State).intervalTaken = true ∧ State.reset.budget.supply = .mains ∧
    (fading 78 0).blockClosed = false ∧ State.reset.blockPeriods = 0 ∧
    ({ State.reset with clock := .locked, blockPeriods := 56 } : State).blockPeriods = 56 ∧
    (∀ p : Bool × Bool, p ∈ [(false, false), (false, true), (true, false), (true, true)] →
      (supplyOf p.1 p.2 = .mains ↔ p = (false, false))) := by decide +kernel

/-- A lane whose store is empty at the house block of an interval event: its slips are handed over, and the underrun is
the first slip of the new interval (02 R36, R38). -/
theorem test_slipAtIntervalEvent :
    (let s := { (delivering 0 State.reset).modLane 0 fun l => { l with intervalSlips := 5 } with blockCount := 1023 }
     let t := (next (.houseBlock ⟨false, false, false, false, false, 48, 48⟩) s).lanes.get 0
     (s.lanes.get 0).delivering = true ∧ t.intervalSlips = 1 ∧ t.slips = 1 ∧ t.lastSlip = some .underrun) := by
  decide +kernel

/-- Two fades that complete at one house block send the SHOW notice of the lower screen first. -/
theorem test_twoFadesComplete :
    (let s := (fading 80 0).modScreen 1 fun _ => { (fading 80 0).screens.get 0 with stamp := 2 }
     let p := { Port.reset with kinds := 1, screens := 0x0FFF, tx := some (.notice (.site (.evac true false)) false) }
     let t := next (.houseBlock ⟨false, false, false, false, false, 48, 48⟩) { s with ports := .fill 4 p }
     (t.ports.get 3).notices.map Notice.screen = [some 0, some 1] ∧ (t.screens.get 0).state = .armed ∧
      (t.screens.get 1).state = .armed) := by decide +kernel

/-- A return side word at the ends of its fields' ranges, written out by the layout of 11 R180. -/
theorem test_returnWordBytes :
    (ReturnWord.bytes ⟨.evacuated, true, .suspended, 100, 512, 128, 32⟩).take 10 =
      [0xB4#8, 7#8, 1#8, 3#8, 100#8, 2#8, 0#8, 128#8, 32#8, 0#8] ∧
    (ReturnWord.bytes ⟨.show, false, .full, 80, 257, 12, 0⟩).take 10 =
      [0xB4#8, 3#8, 0#8, 1#8, 80#8, 1#8, 1#8, 12#8, 0#8, 0#8] := by decide +kernel

/-- A measurement of output 1 in its phase, with the count of its intervals, at the last block before an interval
event. -/
def inPhase (p : Phase) (count : Nat) : State :=
  { mapped 0 0 .c (scr 0 .calibrating (some 14)) with
    blockCount := 1023,
    context :=
      { phase := p, screen := some 0, target := some (.output 0), station := some 14, count, micSum := 2 ^ 40,
        targetSum := 2 ^ 40, background := some 10 } }

theorem test_witness_BlocksAndPhases :
    (inPhase .quiet 1).context.phase = .quiet ∧ (inPhase .measure 3).context.phase = .measure ∧
    (inPhase .wait 0).phaseDue = true ∧ (inPhase .quiet 1).phaseDue = true ∧ (inPhase .settle 0).phaseDue = true ∧
    (inPhase .measure 3).phaseDue = true ∧ (inPhase .measure 2).phaseDue = false ∧ State.reset.phaseDue = false ∧
    (inPhase .measure 3).context.screen = some 0 ∧ (inPhase .measure 3).context.target = some (.output 0) ∧
    lvl (ensureClosed (inPhase .measure 3)).context.micSum - 72 = 169 ∧ (inPhase .measure 3).context.background = some 10 ∧
    10 + 20 ≤ 169 ∧ ¬169 < 10 + 20 ∧
    lvl (ensureClosed { inPhase .measure 3 with
      context := { (inPhase .measure 3).context with micSum := 0 } }).context.micSum - 72 = 0 := by decide +kernel

/-- Screen 1 in a state at the last block of an interval, with a segment of 31 intervals and a base current of 3. -/
def closing (state : ShowState) (ring : List Nat) : State :=
  { scr 0 state (some 2) with
    blockCount := 1023,
    attenuations := State.reset.attenuations.modify 0 fun a => { a with current := 3 },
    meters := State.reset.meters.modify 0 fun m =>
      { m with segmentFill := 31, segmentSum := 5, intervalSum := 7, ring } }

/-- A segment that completes joins the ring, which keeps 16; outside SHOW nothing joins; the base current of an EVACUATED
screen is kept. -/
theorem test_interval :
    ((next .intervalEvent (closing .show [])).meters.get 0).ring = [12] ∧
    ((next .intervalEvent (closing .show (List.replicate 16 1))).meters.get 0).ring = List.replicate 15 1 ++ [12] ∧
    ((next .intervalEvent (closing .paused [])).meters.get 0).segmentFill = 31 ∧
    ((next .intervalEvent (closing .paused [])).attenuations.get 0).current = 2 ∧
    ((next .intervalEvent (closing .evacuated [])).attenuations.get 0).current = 3 := by decide +kernel

theorem test_witness_IntervalEventCloses :
    (inPhase .measure 2).context.inFlight = true ∧ (inPhase .measure 2).measureStepped = false ∧
    State.reset.context.inFlight = false ∧ (inPhase .wait 0).blockCount + 1 = 1024 ∧ (inPhase .wait 0).intervalTaken = false ∧
    ¬(State.reset.blockCount + 1 = 1024 ∧ State.reset.intervalTaken = false) := by decide +kernel

/-- A MEASURE that ends at the interval event, with a background of 20, on a screen that no alarm judges:
its notice is the event's. -/
theorem test_intervalNotices :
    (let s : State :=
      { inPhase .measure 3 with
        context := { (inPhase .measure 3).context with
          screen := some 0, target := some .reference, background := some 20, micSum := 2 ^ 20, targetSum := 2 ^ 20 }
        ports := .fill 4 { subscribed 0 with tx := none } }
     s.phaseDue = true ∧ s.context.phase = .measure ∧
      ((next .intervalEvent s).ports.get 0).tx =
        some (.notice (.measure 0 .reference (.ok 20 (lvl (2 ^ 20) - 72) (lvl (2 ^ 20) - 72) (lvl (2 ^ 20) - 72) 0)) false)) := by
  decide +kernel

theorem test_witness_OutputMapMoves :
    State.reset.ready (.outputMap man 0 none) man 15 ∧ ident 192 0 = none ∧ readAssign (some (13, 1)) = none ∧
    readAssign (some (12, 12)) = some (some (11, .rts)) ∧ readAssign none = some none ∧
    ((scr 11 .armed (some 2)).screens.get 11).state ≠ .offline ∧
    ((scr 11 .armed (some 2)).screens.get 11).state ≠ .dark ∧ (State.reset.outputs.get 191).place = none ∧
    (State.reset.screens.get 11).state = .offline ∧
    State.reset.offsetAt none = State.reset.offsetAt (some (11, .rts)) ∧
    (lip 11 1 State.reset).offsetAt none ≠ (lip 11 1 State.reset).offsetAt (some (11, .rts)) ∧
    (lip 11 1 State.reset).reallocRefusal [{ output := 191, delay := 1 }] = some .starting ∧
    (lip 11 1 tested).reallocRefusal [{ output := 191, delay := 1 }] = none := by
  unfold State.ready
  decide +kernel

/-- A screen that owns 32 outputs. -/
def fullScreen : State :=
  { State.reset with
    outputs := State.reset.outputs.update fun o x => if o.val < 32 then { x with place := some (0, .l) } else x }

theorem test_witness_OutputMapNoroom :
    (fullScreen.outputsOf 0).length = 32 ∧ (fullScreen.outputs.get 191).screen ≠ some 0 := by decide +kernel

def oneBlock : BlockInputs := ⟨false, false, false, false, false, 48, 48⟩
def after (s : State) : State := houseBlock oneBlock s

/-- One output on role C of each of screens 1 to 11, the screens in the states of 03 R63 and R64 in turn. -/
def houseOfAll : State :=
  let states : List ShowState :=
    [.offline, .dark, .armed, .evacuated, .paused, .show, .ending, .show, .calibrating, .calibrating, .calibrating]
  let suspend (n : Fin 12) (s : State) : State := s.modGrant n fun g => { g with status := .suspended }
  let base : State :=
    { State.reset with
      screens := State.reset.screens.update fun n x => { x with state := states.getD n.val .offline, level := 80 },
      outputs := State.reset.outputs.update fun o x =>
        if h : o.val < 11 then { x with place := some (⟨o.val, by omega⟩, .c), toneFlag := decide (o.val = 9) } else x }
  healthOf .good (mapped 11 0 .c ((suspend 7 (suspend 10 (delivering 6 base))).modOutput 11 fun x =>
    { x with sense := { x.sense with health := .excluded } }))

/-- What every output of `houseOfAll` and the next one carry after a house block. -/
theorem test_witness_SourceSelection :
    (let t := after houseOfAll
     (List.finRange 192).take 13 |>.map fun o => ((t.outputs.get o).figures.kind, (t.outputs.get o).figures.reason)) =
      [(.silence, some .noProgram), (.silence, some .noProgram), (.silence, some .noProgram),
        (.silence, some .noProgram), (.silence, some .paused), (.silence, some .lane), (.program, none),
        (.silence, some .suspended), (.silence, some .noTone), (.tone, none), (.silence, some .suspended),
        (.silence, some .outOfService), (.silence, some .unmapped)] := by decide +kernel

/-- EVAC active, screen 1 in DARK: output 1 on C carries paging, output 2 on LSS is silent. -/
theorem test_witness_SourceSelectionPaging :
    (let t := after (withEvac (mapped 0 0 .c (mapped 1 0 .lss (scr 0 .dark none))))
     (List.finRange 192).take 2 |>.map fun o => ((t.outputs.get o).figures.kind, (t.outputs.get o).figures.reason)) =
      [(.paging, none), (.silence, some .evacOther)] := by decide +kernel

/-- EVAC active, screen 1 in DARK with output 1 on L alone, which carries paging; screen 2 OFFLINE is silent. -/
theorem test_witness_SourceSelectionFallback :
    (let t := after (withEvac (mapped 0 0 .l (mapped 1 1 .c (scr 0 .dark none))))
     (List.finRange 192).take 2 |>.map fun o => ((t.outputs.get o).figures.kind, (t.outputs.get o).figures.reason)) =
      [(.paging, none), (.silence, some .noProgram)] := by decide +kernel

/-- A house block that begins a block of 51 sample periods. -/
def longBlock (s : State) : State := houseBlock ⟨false, false, false, false, false, 51, 48⟩ s

/-- A delay line of 51 samples whose newest three are full scale. -/
def loudTail : List Int := List.replicate 48 0 ++ [8388607, 8388607, 8388607]

/-- Output 1 beyond the 48th sample period of its block: FAILED OPEN on a SHOW screen, the pilot on a clear path; playing
at level 0, where it is muted and its source matters nothing; silent with three samples of program in its delay line,
which drain at step 0; carrying the tone. The self-test ends at the 2048th house block with its notice. -/
theorem test_witness_LateSamples :
    ((longBlock (healthOf .failedOpen (mapped 0 0 .c (scr 0 .show (some 2))))).outputs.get 0).late =
      [0, 11585, -16384] ∧
    (let x := (longBlock ((mapped 0 0 .c (delivering 0 (scr 0 .show (some 2)))).modScreen 0 fun c =>
        { c with level := 0 })).outputs.get 0
     x.figures.kind = .program ∧ x.figures.step = none ∧ x.late = [0, 11585, -16384]) ∧
    (let x := (longBlock ((mapped 0 0 .c (scr 0 .paused (some 2))).modOutput 0 fun x =>
        { x with line := List.replicate 48 0 ++ [8, 9, 10, 11] })).outputs.get 0
     x.late = [8, 11594, -16374] ∧ x.line.length = 52 ∧ x.line.head? = some 11) ∧
    (let s := mapped 0 0 .c ((scr 0 .calibrating (some 2)).modOutput 0 fun x => { x with toneFlag := true })
     let t := longBlock s
     (t.outputs.get 0).figures.kind = .tone ∧ t.blockPeriods = 51 ∧ t.noise = (noiseSamples 99 s.noise).2 ∧
      (t.outputs.get 0).late = toneOf (-20) (noiseSamples 3 (noiseSamples 96 s.noise).2).1) ∧
    (let s : State := { State.reset with selftest := { running := true, blocks := 2047, faults := [3] }
                                         ports := .fill 4 { subscribed 0 with tx := none } }
     s.selftest.running = true ∧ 2048 ≤ s.selftest.blocks + 1 ∧ (after s).badPages = [3] ∧
      ((after s).ports.get 3).tx = some (.notice (.selftest 4095 1) false)) := by decide +kernel

/-- What a request changes in the middle of a long block: the samples of the block stand, and the delay line of the new
tuning holds its three samples of silence until the next house block. The clips of the whole block are in the count that
the interval event at its end closes, taken by its own row or by HOUSE_BLOCK. -/
theorem test_longBlocks :
    (let s := longBlock { mapped 0 0 .c { scr 0 .armed none with selftest := tested.selftest } with blockCount := 0 }
     let t := next (.tuneLoad man 1 24 1 [flat] 3) (s.modOutput 0 fun x => { x with late := [1, 2, 3] })
     (t.outputs.get 0).late = [1, 2, 3] ∧ (t.outputs.get 0).line = [0, 0, 0] ∧ (t.outputs.get 0).trim = 24 ∧
      ((after t).outputs.get 0).line = [0, 0, 0] ∧ ((after t).outputs.get 0).late = []) ∧
    (let s := longBlock { (mapped 0 0 .c (scr 0 .paused (some 2))).modOutput 0 fun x =>
        { x with line := loudTail, trim := 24 } with blockCount := 1022 }
     (s.meters.get 0).clips = 3 ∧ ((next .intervalEvent s).meters.get 0).lastClips = 3 ∧
      ((after (next .intervalEvent s)).meters.get 0).lastClips = 3 ∧
      ((after (next .intervalEvent s)).meters.get 0).clips = 0 ∧ ((after s).meters.get 0).lastClips = 3) := by
  decide +kernel

/-- A reference is lost at the end of a block of 56 sample periods, on a LOCKED clock alone. -/
theorem test_referenceLost :
    (let s : State := { State.reset with clock := .locked, blockPeriods := 56 }
     (next (.referenceLost oneBlock) s).clock = .free ∧ (next (.referenceLost oneBlock) s).blockCount = 1 ∧
      (next (.referenceLost oneBlock) { s with blockPeriods := 48 }).blockCount = 0 ∧
      (next (.referenceLost oneBlock) { s with clock := .free }).blockCount = 0) := by decide +kernel

theorem test_witness_CompensationAndNetStep :
    ((after (mapped 0 0 .c (scr 0 .paused (some 2)))).outputs.get 0).figures.step = some 0 ∧
    ((after (healthOf .failedOpen (mapped 0 0 .l (mapped 1 0 .l (scr 0 .paused (some 2)))))).outputs.get 1).figures.comp =
      6 := by decide +kernel

theorem test_witness_OutputPath :
    (runOutput (.silence .paused) [] 0 80 0 true Output.reset).output.figures.step = some 0 ∧
    (runOutput { kind := .program, reason := none, samples := [1, 1] } [7] 0 0 0 true Output.reset).output.figures.step = none ∧
    (runOutput { kind := .program, reason := none, samples := [1, 1] } [7] 0 0 0 true Output.reset).output.drive = [0, 11585] ∧
    (runOutput { kind := .program, reason := none, samples := [1, 1] } [7] 0 0 0 true Output.reset).output.late = [-16384] ∧
    (runOutput (.silence .paused) [7] 0 80 0 false Output.reset).output.running = 0 ∧
    (runSections [⟨⟨4194304, 4194304, 0, 0, 0⟩, ⟨0, 0, 0, 0⟩⟩] [8388607, 1, 1]) =
      ([8388607, 8388607, 2], [⟨⟨4194304, 4194304, 0, 0, 0⟩, ⟨1, 1, 2, 8388607⟩⟩], 1) := by
  decide +kernel

/-- Screen 1 in SHOW with output 1 on C and its lane delivering. -/
def playing : State := mapped 0 0 .c (delivering 0 (scr 0 .show (some 2)))

/-- A screen whose program is played and one whose paging is: the conditions under which feeds and paging samples count
their clips. A masked slot is handed on as zero. -/
theorem test_witness_ScreenClips :
    (playing.screens.get 0).state = .show ∧ playing.evac = false ∧ (playing.grants.get 0).status ≠ .suspended ∧
    (playing.lanes.get (programLane 0)).delivering = true ∧ (playing.outputs.get 0).screen = some 0 ∧
    (playing.outputs.get 0).sense.health.inService = true ∧ (playing.roleFigures 0 .c).service = .inService ∧
    (withEvac playing).evac = true ∧ ((withEvac playing).plan (.fill 14 [List.replicate 16 8388607]) 0).paging = [8388607] ∧
    ({ Lane.reset with sync := .locked, mask := 2#16, store := [[[1, 2, 3]]] } : Lane).handed = [[1, 0, 3]] := by
  decide +kernel

theorem test_witness_LevelFunction :
    2 ^ 0 ≤ 1 ∧ 1 < 2 ^ (0 + 1) ∧ 0 = 1 * 8 / 2 ^ 0 - 8 ∧ 2 ^ 3 ≤ 15 ∧ 15 < 2 ^ (3 + 1) ∧ 7 = 15 * 8 / 2 ^ 3 - 8 := by
  decide

theorem test_witness_OffsetSet :
    State.reset.ready (.offsetSet man 0 none) man 26 ∧ State.reset.ready (.offsetSet man 13 (some 0)) man 26 ∧
    State.reset.ready (.offsetSet man 12 (some (-129))) man 26 ∧ State.reset.ready (.offsetSet man 12 (some 128)) man 26 ∧
    State.reset.ready (.offsetSet man 12 none) man 26 ∧ allowed 26 2 = false := by
  unfold State.ready
  decide +kernel

theorem test_witness_TuneLoad :
    State.reset.ready (.tuneLoad man 192 0 2 [] 0) man 21 ∧
    State.reset.ready (.tuneLoad man 192 0 0 (List.replicate 9 flat) 0) man 21 ∧
    State.reset.ready (.tuneLoad service 192 0 1 (List.replicate 8 flat) 0) service 21 ∧
    roleOf service.station ≠ .management ∧ (State.reset.outputs.get 191).screen = none ∧
    ((mapped 191 0 .l (scr 0 .show (some 2))).outputs.get 191).screen = some 0 ∧
    ((scr 0 .show (some 2)).screens.get 0).state.playing = true ∧ State.reset.selftest.running = true ∧
    (lip 0 1 (mapped 191 0 .l tested)).reallocRefusal [{ output := 191, delay := min 9599 9599 + 1 }] = some .range ∧
    tested.reallocRefusal [{ output := 191, delay := 9599 }] = none ∧ (tested.outputs.get 191).delay = 0 := by
  unfold State.ready
  decide +kernel

theorem test_witness_Trim :
    State.reset.ready (.trim man 192 25) man 22 ∧ State.reset.ready (.trim booth 192 0) booth 22 ∧
    roleOf booth.station ≠ .management ∧
    ((mapped 191 0 .l (scr 0 .show (some 2))).screens.get 0).holder = some booth.station := by
  unfold State.ready
  decide +kernel

/-- The 55 lowest outputs at the longest delay. -/
def manyChanges : List Change := (List.finRange 192).filterMap fun o =>
  if o.val < 55 then some { output := o, delay := 9599 } else none

theorem test_witness_ReallocationMovesPages :
    State.reset.reallocRefusal manyChanges = some .starting ∧
    tested.reallocRefusal [{ output := 0, delay := 9600 }] = some .range ∧
    tested.reallocRefusal manyChanges = some .noroom ∧
    (manyChanges.drop 1).length = 54 ∧ tested.reallocRefusal (manyChanges.drop 1) = none ∧
    ((manyChanges.drop 1).map Change.output).Nodup ∧
    pagesFor 0 ≤ (tested.outputs.get 0).pages.length ∧ (tested.outputs.get 0).pages.length < pagesFor 1 := by
  decide +kernel

/-- Lists that shrink give up their last pages before the others grow, in the order of the changes, past the BAD page 1. -/
theorem test_reallocation :
    (let s := reallocate [⟨3, 300⟩, ⟨7, 500⟩] { tested with badPages := [1] }
     let cs : List Change := [⟨3, 400⟩, ⟨5, 129⟩, ⟨7, 100⟩, ⟨9, 1⟩]
     s.reallocRefusal cs = none ∧ (cs.map Change.output).Nodup ∧
      ([3, 5, 7, 9].map fun o => (s.outputs.get o).pages) = [[0, 2, 3], [], [4, 5, 6, 7], []] ∧
      ([3, 5, 7, 9].map fun o => ((reallocate cs s).outputs.get o).pages) = [[0, 2, 3, 5], [6, 7], [4], [8]]) := by
  decide +kernel

/-- A self-test that found two bad pages, the first and the last. -/
def worn : State :=
  { State.reset with selftest := { running := false, blocks := 2048, faults := [0, 4095] }, badPages := [0, 4095] }

theorem worn_pages : PageLaw worn := by
  have ho : ∀ o, worn.outputs.get o = Output.reset := fun o => Tab.get_fill Output.reset o
  have he : ∀ o, worn.effectiveDelay o = 0 := by
    intro o
    unfold State.effectiveDelay
    rw [ho]
    rfl
  refine ⟨fun o => ?_, fun o => ?_, fun o => ?_, fun o p h => ?_, fun o o' p h => ?_, fun h => ?_, by decide, by decide,
    by decide, by decide⟩
  · rw [he, ho]
    rfl
  · rw [he, ho]
    rfl
  · rw [ho]
    exact List.nodup_nil
  · rw [ho] at h
    cases h
  · rw [ho] at h
    cases h
  · cases h

theorem test_witness_SelftestCompletes :
    (let s : State := { State.reset with selftest := { running := true, blocks := 2047, faults := [3] } };
      s.selftest.running = true ∧ 2048 ≤ s.selftest.blocks + 1) ∧ ¬2048 ≤ State.reset.selftest.blocks + 1 := by
  decide +kernel

theorem test_witness_SettingsStored :
    (scr 11 .show (some 2)).ready (.level booth 12 101) booth 10 ∧
    ((scr 11 .show (some 2)).screens.get 11).holder = some booth.station ∧
    ((scr 11 .show (some 3)).screens.get 11).holder ≠ some booth.station ∧ roleOf booth.station ≠ .management ∧
    State.reset.ready (.alarmSet man 12 { noAlarmSel with raiseHold := some 16 }) man 28 ∧
    State.reset.ready (.senseSet man 192 { noSenseSel with shortMax := some 4092 }) man 30 ∧
    State.reset.ready (.budgetSet man { noBudgetSel with mains := some 65535 }) man 34 := by
  unfold State.ready
  decide +kernel

/-- A well-formed report of channel 16 with pilot valid: 8 ohms. -/
def reportOf (volts amps : Nat) (valid : Bool) : List Byte :=
  let body := 16#8 :: (beBytes 2 volts ++ beBytes 2 amps ++ [BitVec.ofNat 8 valid.toNat, 0#8, 0#8, 0#8, 0#8])
  body ++ checkBytes body

theorem test_witness_ReportsTaken :
    readReport (bytesOfAux (auxOfBytes (reportOf 2830 354 true))) = some { channel := 15, volts := 2830, amps := 354, valid := true } ∧
    readReport (reportOf 2830 354 false) = some { channel := 15, volts := 2830, amps := 354, valid := false } ∧
    readReport [] = none ∧ (State.reset.returnLanes.get 0).locked = false ∧ (State.reset.returnLanes.get 0).run = 0 ∧
    ((State.reset.modReturnLane 0 fun y => { y with run := 1 }).returnLanes.get 0).run = 1 ∧
    (∀ k ∈ [6, 7], ((State.reset.modReturnLane 0 fun y => { y with locked := true, run := k }).returnLanes.get 0).run = k) ∧
    6 + 1 < 8 ∧ 8 ≤ 7 + 1 ∧ channelOutput 0 15 = 15 ∧ (State.reset.outputs.get 15).sense.health = .unknown ∧
    (State.reset.outputs.get 15).driveOn = true ∧ (State.reset.outputs.get 15).screen = none ∧
    ((healthOf .excluded State.reset).outputs.get 0).sense.health = .excluded := by decide +kernel

/-- The report that locks a lane is taken: it meets an output that the lock has made UNKNOWN. The third OPEN report in a row
fails the target of a measurement, which is aborted; the eighth malformed one loses every output of the lane. -/
theorem test_witness_ReportsAndNotices :
    (let open8 : Nat → Health → State → State := fun run h s =>
      (s.modOutput 15 fun x => { x with sense := { x.sense with health := h, candidate := some .open, count := 2 } }).modReturnLane
        0 fun y => { y with locked := h ≠ .unsensed, run }
     let report := Instr.returnBlockEvent 0 (auxOfBytes (reportOf 2900 20 true))
     let told : State → State := fun s => { s with ports := .fill 4 { subscribed 0 with tx := none } }
     let measured : State := mapped 15 0 .c { measuring with screens := State.reset.screens }
     ((next report (open8 1 .unsensed State.reset)).returnLanes.get 0).locked = true ∧
      ((next report (told (open8 1 .unsensed State.reset))).ports.get 0).tx =
        some (.notice (.health 15 none .unknown .unsensed .laneFound none none) false) ∧
      ((next report (open8 1 .unsensed State.reset)).outputs.get 15).sense.health = .failedOpen ∧
      ((measured.context.screen, measured.context.target) = (some 0, some .reference) ∧
        15 ∈ measured.targetOutputs 0 .reference) ∧
      (next report (open8 0 .unknown measured)).context = Context.reset ∧
      ((next (.returnBlockEvent 0 []) (told (open8 7 .good State.reset))).outputs.get 15).sense.health = .unsensed ∧
      ((next (.returnBlockEvent 0 []) (told (open8 7 .good State.reset))).ports.get 0).notices.length = 15) := by
  decide +kernel

/-- Reports of a channel that is none, and of a spoiled check. -/
theorem test_witness_ReportsMalformed :
    (∀ c ∈ [0#8, 17#8], let body : List Byte := [c, 0#8, 8#8, 0#8, 1#8, 1#8, 0#8, 0#8, 0#8, 0#8]
      readReport (body ++ checkBytes body) = none ∧ (crc body).toNat =
        256 * (checkBytes body)[0]!.toNat + (checkBytes body)[1]!.toNat) ∧
    readReport ((reportOf 2830 354 true).set 4 0#8) = none := by decide +kernel

theorem test_alarmConditions :
    (let g := (scr 0 .show (some 2)).gather (fun _ => 0) 0
     let c := AlarmSettings.reset
     AlarmKind.all.map (fun k => (condition { g with intervalSpl := 211, windowSpl := 171, clips := 49 } c 5 k,
        condition { g with intervalSpl := 210, windowSpl := 170, clips := 48, sync := .flywheel, slips := 1 } c 4 k))) =
      [(true, false), (true, false), (true, false), (true, false), (true, false), (false, false), (false, false)] ∧
    (alarmStep 0 3 true .clear 0).2.2 = .raise ∧ (alarmStep 2 3 true .clear 0).2.2 = .none ∧
    (alarmStep 2 1 false .clearing 0).2.2 = .clear := by decide +kernel

def record (h : Health) (settled candidate : Option LineClass) (count : Nat) : HealthRecord :=
  { HealthRecord.reset with health := h, settled, candidate, count }

theorem test_witness_HealthDebounced :
    (debounce (record .unknown none none 0) .good).count = 1 ∧
    (debounce (record .unknown none (some .good) 1) .good).count = 2 ∧
    (debounce (record .suspect (some .good) (some .open) 2) .open).health = .failedOpen ∧
    (debounce (record .suspect (some .good) (some .open) 2) .good).health = .good ∧
    (debounce (record .driftingLow (some .low) none 0) .low).health = .driftingLow ∧
    (debounce (record .failedOpen (some .open) none 0) .good).health = .suspect := by decide +kernel

theorem test_witness_ExcludeAndInclude :
    State.reset.ready (.exclude service 192) service 31 ∧ State.reset.ready (.includeOutput service 192) service 32 ∧
    ((healthOf .excluded State.reset).outputs.get 0).sense.health = .excluded ∧
    ((healthOf .failedShort State.reset).outputs.get 0).sense.health = .failedShort ∧
    (State.reset.outputs.get 0).sense.health ≠ .excluded ∧ (State.reset.outputs.get 0).sense.health ≠ .failedShort ∧
    (inPhase .quiet 0).context.phase ≠ .idle ∧ 0 ∈ (inPhase .quiet 0).targetOutputs 0 (.output 0) ∧
    1 ∉ (inPhase .quiet 0).targetOutputs 0 (.output 0) ∧ State.reset.context.phase = .idle := by
  unfold State.ready
  decide +kernel

/-- Entry 1 is a TIME entry of screen 1 at frame 100; the screen's cue clock reads 99. -/
def cueAt (chase : Bool) (state : CueState) : Cue :=
  { screen := 0, trigger := .time 100, action := .noticeOnly, chase, label := [], state := some state }

def cued (c : Cue) : State :=
  { State.reset with
    pool := State.reset.pool.set 0 (some c),
    cues := State.reset.cues.modify 0 fun x => { x with timeList := [0], clock := some 99 } }

theorem cued_law (chase : Bool) (state : CueState) : CueLaw (cued (cueAt chase state)) := by
  have hp : ∀ e, (cued (cueAt chase state)).pool.get e = if 0 = e then some (cueAt chase state) else none := by
    intro e
    simp only [cued, Tab.get_set]
    split
    · rfl
    · exact Tab.get_fill none e
  have ht : ∀ n, ((cued (cueAt chase state)).cues.get n).timeList = if 0 = n then [0] else [] := by
    intro n
    simp only [cued, Tab.get_modify]
    split
    · rfl
    · exact congrArg CueScreen.timeList (Tab.get_fill CueScreen.reset n)
  have hv : ∀ n, ((cued (cueAt chase state)).cues.get n).eventList = [] := by
    intro n
    simp only [cued, Tab.get_modify]
    split
    · exact congrArg CueScreen.eventList (Tab.get_fill CueScreen.reset 0)
    · exact congrArg CueScreen.eventList (Tab.get_fill CueScreen.reset n)
  refine ⟨fun n e => ?_, fun n e => ?_, fun n => ?_, fun n => ?_⟩
  · rw [hp, ht]
    constructor
    · intro h
      by_cases hn : 0 = n
      · rw [if_pos hn, List.mem_singleton] at h
        exact ⟨_, if_pos h.symm, hn, rfl⟩
      · rw [if_neg hn] at h
        cases h
    · rintro ⟨c, h, hc, _⟩
      by_cases h0 : 0 = e
      · rw [if_pos h0] at h
        cases h
        rw [if_pos (show 0 = n from hc)]
        exact List.mem_singleton.mpr h0.symm
      · rw [if_neg h0] at h
        cases h
  · rw [hp, hv]
    constructor
    · intro h
      cases h
    · rintro ⟨c, h, _, hc⟩
      by_cases h0 : 0 = e
      · rw [if_pos h0] at h
        cases h
        cases hc
      · rw [if_neg h0] at h
        cases h
  · rw [ht, hv]
    by_cases hn : 0 = n
    · rw [if_pos hn]
      exact ⟨List.nodup_singleton 0, List.nodup_nil⟩
    · rw [if_neg hn]
      exact ⟨List.nodup_nil, List.nodup_nil⟩
  · rw [ht]
    by_cases hn : 0 = n
    · rw [if_pos hn]
      exact List.pairwise_singleton _ _
    · rw [if_neg hn]
      exact List.Pairwise.nil

theorem test_witness_CueRequests :
    State.reset.ready (.cueAdd man 12 (.time 2073599) (.linePulse 8 0) 1 (List.replicate 12 0x7E#8)) man 36 ∧
    readCueTrigger (.time 2073599) = some { value := .time 2073599, clamped := false } ∧
    readCueTrigger (.state 5) = none ∧ readCueAction (.lineOn 9) = none ∧
    readCueAction (.linePulse 8 0) = some { value := .linePulse 7 1, clamped := true } ∧
    State.reset.pool.get 0 = none ∧ (∀ e : Fin 512, e < 0 → (State.reset.pool.get e).isSome = true) ∧
    (Tab.fill 512 (some (cueAt false .armed))).items.all Option.isSome = true ∧
    (cued (cueAt false .armed)).ready (.cueRemove man 1 1) man 37 ∧
    0 ∈ ((cued (cueAt false .armed)).cues.get 0).timeList ∧ ident 512 513 = none ∧
    (scr 0 .show (some 2)).ready (.cueClear booth 1) booth 38 ∧ ((scr 0 .show (some 2)).screens.get 0).state = .show ∧
    ((scr 0 .paused (some 2)).screens.get 0).state ≠ .show := by
  unfold State.ready
  decide +kernel

/-- Screen 1 armed under station 2 with its lane delivering and that entry in its list. -/
def startable : State :=
  { delivering 0 (scr 0 .armed (some 2)) with
    pool := (cued (cueAt true .fired)).pool, cues := (cued (cueAt true .fired)).cues }

theorem test_witness_CuesAtAStart :
    CueLaw startable ∧ startable.ready (.start booth 1) booth 6 ∧
    (startable.screens.get 0).holder = some booth.station ∧ (startable.screens.get 0).state = .armed ∧
    startable.evac = false ∧ (startable.lanes.get (programLane 0)).delivering = true ∧
    (startable.lanes.get (programLane 0)).sync = .locked ∧
    ((candidate 0 .show (some 2) startable).allot.get 0).status ≠ .suspended ∧
    (startable.lanes.get (programLane 0)).accepted = some word ∧ 0 ∈ (startable.cues.get 0).timeList ∧
    startable.pool.get 0 = some (cueAt true .fired) ∧ (startable.cues.get 0).lastCall ≠ word.cueCall ∧
    word.cueCall ≠ 0 ∧ ((next (.start booth 1) startable).pool.get 0).map Cue.state = some (some .fired) := by
  refine ⟨cued_law _ _, ?_⟩
  unfold State.ready
  decide +kernel

theorem test_witness_CuesFireByTime :
    CueLaw (cued (cueAt true .armed)) ∧ (cued (cueAt true .armed)).evac = false ∧
    ((cued (cueAt true .armed)).cues.get 0).clock = some 99 ∧
    (cued (cueAt true .armed)).pool.get 0 = some (cueAt true .armed) ∧
    (99 ≤ 101 ∧ 101 ≤ 99 + 2) ∧ 99 + 2 < 102 ∧ 98 < 99 ∧
    ((processTime 0 101 (cued (cueAt false .armed))).pool.get 0).map Cue.state = some (some .fired) ∧
    ((processTime 0 102 (cued (cueAt false .armed))).pool.get 0).map Cue.state = some (some .skipped) ∧
    ((processTime 0 98 (cued (cueAt false .fired))).pool.get 0).map Cue.state = some (some .armed) ∧
    (cued (cueAt false .fired)).rearms 98 0 = true ∧ (cued (cueAt false .armed)).rearms 98 0 = false := by
  refine ⟨cued_law _ _, ?_⟩
  decide +kernel

theorem test_witness_LinesAndPulses :
    State.reset.ready (.lineSet man 12 8 (.pulse 0)) man 40 ∧ State.reset.ready (.lineSet man 12 9 .on) man 40 ∧
    ((scr 11 .show (some 3)).screens.get 11).holder ≠ some booth.station ∧
    (scr 11 .show (some 3)).ready (.lineSet booth 12 8 .on) booth 40 ∧
    State.reset.ready (.lineEvacSet man 12 8 2) man 41 ∧ State.reset.ready (.lineEvacSet man 12 8 3) man 41 ∧
    ((State.reset.modLine 11 7 fun x => { x with pulse := 1 }).line 11 7).pulse = 1 ∧
    ((State.reset.modLine 11 7 fun x => { x with pulse := 1 }).line 11 7).counted = false := by
  unfold State.ready
  decide +kernel

/-- Screen 1 calibrating with output 1 on C and MS locked. -/
def session : State :=
  (mapped 0 0 .c (scr 0 .calibrating (some 14))).modLane 13 fun l => { l with sync := .locked }

theorem test_witness_CalibrationRequests :
    session.ready (.tone service 1 (some 1) 1 (some (-41))) service 43 ∧ session.readTarget 0 (some 1) = some (.output 0) ∧
    session.readTarget 0 (some 2) = none ∧ session.readTarget 0 (some 0) = none ∧ session.readTarget 0 (some 193) = none ∧
    session.readTarget 0 none = some .reference ∧ (session.outputs.get 0).screen = some 0 ∧ (session.screens.get 0).holder = some service.station ∧
    (session.screens.get 0).state = .calibrating ∧ session.evac = false ∧ session.context.phase = .idle ∧
    (inPhase .quiet 0).context.phase ≠ .idle ∧ (inPhase .quiet 0).context.screen = some 0 ∧
    session.ready (.measure service 1 none) service 44 ∧ (session.lanes.get 13).sync = .locked ∧
    (session.grants.get 0).status ≠ .suspended ∧ session.targetOutputs 0 .reference ≠ [] ∧
    (∀ o ∈ session.targetOutputs 0 .reference, (session.outputs.get o).sense.health.inService = true) ∧
    (inPhase .quiet 0).ready (.abort service 1) service 45 ∧ session.ready (.micSet service (some 128)) service 46 ∧
    session.ready (.micSet service none) service 46 := by
  unfold State.ready
  decide +kernel

/-! ### Witnesses: each law holds in a state with a command waiting, and the step goes on -/

def waiting (s : State) : State := { s with pending := [.evacReleased] }

theorem waiting_goes_on (s : State) : ∃ t, step (waiting s) = .next t := ⟨_, rfl⟩

/-- Screen 1 held in EVACUATED, EVAC active. -/
theorem test_witness_HoldingAndEvacLawsKept :
    HoldingLaw (waiting (withEvac (scr 0 .evacuated (some 2)))) ∧
    EvacLaw (waiting (withEvac (scr 0 .evacuated (some 2)))) := by
  have hs : ∀ n, ((waiting (withEvac (scr 0 .evacuated (some 2)))).screens.get n) =
      (scr 0 .evacuated (some 2)).screens.get n := fun _ => rfl
  constructor
  · intro n
    rw [hs]
    by_cases h : 0 = n
    · subst h
      exact ⟨2, rfl, by decide⟩
    · have hx : (scr 0 .evacuated (some 2)).screens.get n = Screen.reset :=
        ((Tab.get_modify _ _ _ _).trans (if_neg h)).trans (Tab.get_fill Screen.reset n)
      rw [hx]
      rfl
  · intro _ n
    revert n
    decide +kernel

/-- Screens 1 and 2 play with stamps 2 and 1 and the draws 3000 and 1000 of an available 3850, and their lines show what
they are to show. -/
def twoShows : State :=
  let playing (n : Fin 12) (stamp draw : Nat) (s : State) : State :=
    { s with
      screens := s.screens.modify n fun x => { x with state := .show, holder := some 2, stamp },
      grants := s.grants.modify n fun g => { g with status := .full, draw } }
  { playing 0 2 3000 (playing 1 1 1000 State.reset) with
    stampCounter := 2, budget := { State.reset.budget with supply1 := true, supply := .mains, mains := 4150 } }

theorem test_witness_StampLawKept : StampLaw (waiting twoShows) := by
  unfold StampLaw
  decide +kernel

/-- The same at the counter's end. -/
def lastStamp : State := { twoShows with stampCounter := 4294967295 }

/-- At the counter's end the stamps held, 4,000,000,000 and 1, become 2 and 1, and the next is 3. -/
theorem test_witness_Renumbering :
    StampLaw (waiting lastStamp) ∧ lastStamp.stampCounter = 4294967295 ∧ twoShows.stampCounter ≠ 4294967295 ∧
    (let s := lastStamp.modScreen 0 fun c => { c with stamp := 4000000000 }
     ([0, 1, 2].map fun n => ((takeStamp 2 s).screens.get n).stamp) = [2, 1, 3] ∧
      (takeStamp 2 s).stampCounter = 3) := by
  unfold StampLaw
  decide +kernel

theorem test_witness_PowerLawKept : PowerLaw (waiting twoShows) := by
  unfold PowerLaw
  decide +kernel

/-- Screens 1 and 2 ask for 3000 and 2000, or 2000 and 1000, of 3850: the second in rank, screen 1, is SHED. -/
def twoDemands : State :=
  let ask (n : Fin 12) (full reduced : Nat) (s : State) : State :=
    s.modScreen n fun x => { x with config := { x.config with fullDraw := full, reducedDraw := reduced } }
  ask 0 3000 2000 (ask 1 2000 1000 { twoShows with budget := State.reset.budget })

/-- A measurement in flight on the suspended screen is aborted with its notice, one on another screen is not; both times
the tone flags of the screen's outputs are cleared. -/
theorem test_suspendCalibration :
    (let s := (mapped 0 0 .l { measuring with ports := .fill 4 { subscribed 0 with tx := none } }).modOutput 0 fun x =>
      { x with toneFlag := true }
     let other : State := { s with context := { s.context with screen := some 1 } }
     (suspendCalibration 0 s).context = Context.reset ∧ ((suspendCalibration 0 s).outputs.get 0).toneFlag = false ∧
      ((suspendCalibration 0 s).ports.get 0).tx =
        some (.notice (.measure 0 .reference (.aborted .power .quiet none)) false) ∧
      (suspendCalibration 0 other).context = other.context ∧
      ((suspendCalibration 0 other).outputs.get 0).toneFlag = false ∧
      (suspendCalibration 0 other).ports = other.ports) := by decide +kernel

theorem test_grants :
    twoDemands.ranked.map Demand.screen = [1, 0] ∧ twoDemands.budget.available = 3850 ∧
    ([0, 1, 2].map fun n => twoDemands.allot.get n) = [⟨.shed, 2000⟩, ⟨.suspended, 0⟩, ⟨.none, 0⟩].set 1 ⟨.shed, 1000⟩ := by
  decide +kernel

/-- A meter at the ends of its ranges, with 32 outputs at theirs, at the last block of an interval. -/
def loudest : State :=
  { State.reset with
    pending := [.intervalEvent, .houseBlock oneBlock], blockCount := 1023,
    outputs := State.reset.outputs.update fun o x =>
      if o.val < 32 then
        { x with place := some (0, .l), blockScreen := some 0, energy := maxEnergy, running := maxEnergy }
      else x,
    meters := State.reset.meters.modify 0 fun m =>
      { m with
        blockSum := maxBlockSum, intervalSum := 1023 * maxBlockSum, segmentFill := 31,
        segmentSum := 31 * maxIntervalSum, ring := List.replicate 16 (32 * maxIntervalSum),
        windowSum := 512 * maxIntervalSum, blockLevel := 245, intervalLevel := 245, windowLevel := 245, blockSpl := 255,
        intervalSpl := 255, windowSpl := 255, showMax := 255, offset := 127 } }

/-- The largest sums give the level 245. -/
theorem test_largestLevels :
    [lvl maxBlockSum, lvl maxIntervalSum - 60, lvl (512 * maxIntervalSum) - 114] = [245, 245, 245] := by decide +kernel

theorem test_witness_MeterLaw : MeterLaw loudest ∧ ∃ t, step loudest = .next t := by
  refine ⟨?_, _, rfl⟩
  unfold MeterLaw Meter.lawful
  decide +kernel

theorem test_witness_BoothAndQueueLawsKept :
    BoothLaw (waiting (State.reset.modLine 0 0 fun x => { x with commanded := true, output := true })) ∧
    QueueLaw (waiting (withPort (fun p => { p with queue := List.replicate 4 (fed (.enable man 12)) }) twoShows)) := by
  unfold BoothLaw QueueLaw
  decide +kernel

theorem test_witness_CueLawKept : CueLaw (waiting (cued (cueAt true .armed))) := cued_law _ _

theorem test_witness_PageLawKept : PageLaw (waiting worn) := worn_pages

theorem test_witness_CalibrationLawKept : CalibrationLaw (waiting measuring) := measuring_law

theorem test_witness_SenseLawKept :
    SenseLaw (waiting (State.reset.modOutput 0 fun x =>
      { x with driveOn := false, sense := record .failedShort (some .short) (some .good) 2 })) := by
  unfold SenseLaw
  decide +kernel

theorem test_witness_LaneLawKept : LaneLaw (waiting State.reset) := by
  intro l
  have hx : (waiting State.reset).lanes.get l = Lane.reset := Tab.get_fill Lane.reset l
  rw [hx]
  exact ⟨rfl, rfl, rfl, rfl, rfl, rfl⟩

end Sys2Proof.Tests
end

section
/-! The evacuation paging step (03 R66): what PAGING SET stores and answers, that a reset and a RESTART return the step to 0,
that DISABLE keeps it, and the paging samples made with it. -/

namespace Sys2Proof.Machine

/-! ### Clamped settings -/

theorem clampInt_eq_max_min {lo hi : Int} (h : lo ≤ hi) (v : Int) : clampInt lo hi v = max lo (min v hi) := by
  unfold clampInt
  split_ifs <;> omega

theorem settingInt_value {lo hi : Int} (h : lo ≤ hi) (v : Int) : (settingInt lo hi v).value = max lo (min v hi) :=
  clampInt_eq_max_min h v

/-- A setting is clamped exactly when it was carried outside its range. -/
theorem settingInt_clamped {lo hi : Int} (h : lo ≤ hi) (v : Int) :
    (settingInt lo hi v).clamped = decide (v < lo ∨ hi < v) := by
  refine decide_eq_decide.2 ?_
  rw [clampInt_eq_max_min h]
  omega

/-! ### PAGING SET -/

/-- 11 R184: PAGING SET is MANAGEMENT's alone. -/
theorem pagingSet_allowed_iff (station : Fin 16) : allowed 19 station = true ↔ roleOf station = .management := by
  unfold allowed
  cases roleOf station <;> decide

theorem exec_pagingSet (h : Header) (value : Option Int) (s : State) :
    exec (.pagingSet h value) s = takeRequest (.pagingSet h value) h 19 (actPagingSet value) s := rfl

theorem actPagingSet_some (v : Int) (s : State) :
    actPagingSet (some v) s =
      .accept { s with pagingStep := max (-40) (min v 12) } (decide (v < -40 ∨ 12 < v)) [] := by
  have range : (-40 : Int) ≤ 12 := by decide
  rw [← settingInt_value range, ← settingInt_clamped range]
  rfl

theorem actPagingSet_none (s : State) : actPagingSet none s = .accept s false [.num 1 s.pagingStep] := rfl

theorem exec_pagingSet_some {h : Header} {v : Int} {s : State} (hr : s.ready (.pagingSet h (some v)) h 19) :
    exec (.pagingSet h (some v)) s =
      .next (({ s.taking (.pagingSet h (some v)) h with pagingStep := max (-40) (min v 12) } : State).answering h
        (doneAnswer h 19 (decide (v < -40 ∨ 12 < v)) [])) := by
  rw [exec_pagingSet]
  exact takeRequest_accept hr (actPagingSet_some v _)

theorem exec_pagingSet_none {h : Header} {s : State} (hr : s.ready (.pagingSet h none) h 19) :
    exec (.pagingSet h none) s =
      .next (s.replying (.pagingSet h none) h (doneAnswer h 19 false [.num 1 s.pagingStep])) := by
  rw [exec_pagingSet]
  exact takeRequest_accept hr (actPagingSet_none _)

/-! ### Reset and RESTART -/

theorem exec_powerOnReset_pagingStep (lines : SiteLines) (s : State) :
    ∃ t, exec (.powerOnReset lines) s = .next t ∧ t.pagingStep = 0 := ⟨_, rfl, rfl⟩

/-- 11 R188: the last byte of the DONE answer of a RESTART restarts the part. -/
theorem sendFrame_restarts {port : Fin 4} {x : Answer} {s : State} (htx : (s.ports.get port).tx = some (.answer x))
    (hkind : x.kind = 52) (hdone : x.outcome = .done) (a b : Bool) : sendFrame port a b s = restartPart a b s := by
  have hr : (TxFrame.answer x).restarts = true := by simp [TxFrame.restarts, hkind, hdone]
  unfold sendFrame
  rw [htx]
  exact if_pos hr

theorem restartPart_pagingStep (a b : Bool) (s : State) : (restartPart a b s).pagingStep = 0 := rfl

theorem exec_frameSent (port : Fin 4) (a b : Bool) (s : State) :
    exec (.frameSent port a b) s = .next (sendFrame port a b s) := rfl

/-! ### DISABLE -/

theorem CueFrame.pagingStep {s t : State} (h : CueFrame s t) : t.pagingStep = s.pagingStep := by
  obtain ⟨_, _, _, _, _, rfl⟩ := h
  rfl

theorem rearmAll_pagingStep (n : Fin 12) (s : State) : (rearmAll n s).pagingStep = s.pagingStep :=
  (CueFrame.overList rearm_frame _ s).pagingStep

theorem clearScreen_pagingStep (n : Fin 12) (s : State) : (clearScreen n s).pagingStep = s.pagingStep :=
  rearmAll_pagingStep n (clearPaths n (clearBase n s))

theorem withdrawAlarms_pagingStep (n : Fin 12) (s : State) : (withdrawAlarms n s).pagingStep = s.pagingStep := by
  obtain ⟨_, _, h⟩ := withdrawAlarms_frame n s
  rw [h]

theorem disabled_pagingStep (n : Fin 12) (station : Fin 16) (s : State) :
    (disabled n station s).pagingStep = s.pagingStep :=
  calc (disabled n station s).pagingStep
    _ = (clearScreen n (withdrawAlarms n s)).pagingStep := notify_pagingStep _ _
    _ = (withdrawAlarms n s).pagingStep := clearScreen_pagingStep n _
    _ = s.pagingStep := withdrawAlarms_pagingStep n s

theorem actDisable_pagingStep {h : Header} {n : Fin 12} {u v : State} {c : Bool} {f : List Field}
    (hv : actDisable h n u = .accept v c f) : v.pagingStep = u.pagingStep := by
  unfold actDisable at hv
  split at hv
  · cases hv
    exact disabled_pagingStep n h.station u
  · cases hv

theorem exec_disable (h : Header) (screen : Nat) (s : State) :
    exec (.disable h screen) s = takeRequest (.disable h screen) h 2 (onScreen screen (actDisable h)) s := rfl

/-- Whether DISABLE is taken, refused or left waiting, the paging step stays. -/
theorem exec_disable_pagingStep (h : Header) (screen : Nat) (s : State) :
    ∃ t, exec (.disable h screen) s = .next t ∧ t.pagingStep = s.pagingStep := by
  rw [exec_disable]
  obtain ⟨t, ht⟩ := takeRequest_next (i := .disable h screen) (h := h) (kind := 2)
    (act := onScreen screen (actDisable h)) (s := s)
  refine ⟨t, ht, ?_⟩
  exact takeRequest_keeps (P := fun u => u.pagingStep = s.pagingStep) (fun _ _ _ hu => hu)
    (onScreen_keeps fun _ _ _ _ _ hu hv => (actDisable_pagingStep hv).trans hu) rfl ht

/-! ### Paging samples -/

theorem State.plan_figures (s : State) (handed : Tab Audio 14) (n : Fin 12) :
    (s.plan handed n).figures = s.routeFigures n := rfl

/-- 03 R65: on a screen some of whose roles carry paging, the samples are slot 1 of lane PG at the paging step. -/
theorem State.plan_paging {s : State} {handed : Tab Audio 14} {n : Fin 12}
    (hn : (s.plan handed n).figures.pagingRoles ≠ []) :
    (s.plan handed n).paging = (slot (handed.get pagingLane) 1).map fun x =>
      sat24 (scaled x (gainFactor (pagingStepOf (s.plan handed n).figures.roles s.pagingStep))) := by
  rw [State.plan_figures] at hn ⊢
  have hpages : (!(s.routeFigures n).pagingRoles.isEmpty) = true := by simpa using hn
  simp [State.plan, hpages, Function.comp_def]

/-- Settles O26: each clause is the lemma above on PAGING SET, the reset, the RESTART, DISABLE or the paging samples. -/
theorem pagingStep : Obligations.PagingStep := by
  unfold Obligations.PagingStep
  refine ⟨pagingSet_allowed_iff, fun h s => ⟨fun v hr => exec_pagingSet_some hr, fun hr => exec_pagingSet_none hr⟩,
    exec_powerOnReset_pagingStep, ?_, exec_disable_pagingStep, fun s handed n hn => State.plan_paging hn⟩
  intro port a b x s htx hkind hdone
  refine ⟨sendFrame port a b s, exec_frameSent port a b s, ?_⟩
  rw [sendFrame_restarts htx hkind hdone]
  exact restartPart_pagingStep a b s

end Sys2Proof.Machine
end

section
/-! The gain factor (04 R78): the integer search for F(g) finds the number nearest to the real formula, exact halves up. -/

namespace Sys2Proof.Machine

/-! ### The search -/

/-- The search returns the threshold N of a test that the numbers up to N pass, when it starts at or below N with
enough bits to reach it. -/
theorem greatestFit_eq {fits : Nat → Bool} {N : Nat} (hfits : ∀ n, fits n = true ↔ n ≤ N) {k acc : Nat}
    (hlow : acc ≤ N) (hhigh : N < acc + 2 ^ k) : greatestFit fits k acc = N := by
  induction k generalizing acc with
  | zero =>
    rw [greatestFit]
    omega
  | succ k ih =>
    rw [pow_succ] at hhigh
    rw [greatestFit]
    by_cases hbit : fits (acc + 2 ^ k) = true
    · rw [if_pos hbit]
      exact ih ((hfits _).1 hbit) (by omega)
    · rw [if_neg hbit]
      exact ih hlow (lt_of_not_ge (mt (hfits _).2 hbit))

/-! ### The exact factor -/

/-- 2^20 x 10^(g/40), the factor before rounding (04 R78). -/
noncomputable def exactGain (g : Int) : ℝ := 2 ^ 20 * 10 ^ ((g : ℝ) / 40)

theorem exactGain_pos (g : Int) : 0 < exactGain g := by
  unfold exactGain
  positivity

theorem ten_rpow_fortieth_pow (g : Int) : ((10 : ℝ) ^ ((g : ℝ) / 40)) ^ 40 = 10 ^ g := by
  rw [← Real.rpow_mul_natCast (by norm_num), ← Real.rpow_intCast]
  congr 1
  push_cast
  ring

/-- The 40th power of twice the exact factor, with the powers of ten of either sign of the step on the side where they
are whole. -/
theorem two_mul_exactGain_pow (g : Int) :
    (2 * exactGain g) ^ 40 * 10 ^ (-g).toNat = 2 ^ 840 * 10 ^ g.toNat := by
  have hten : (10 : ℝ) ^ g * 10 ^ (-g).toNat = 10 ^ g.toNat := by
    rw [← zpow_natCast, ← zpow_natCast, ← zpow_add₀ (by norm_num)]
    congr 1
    omega
  calc (2 * exactGain g) ^ 40 * 10 ^ (-g).toNat
    _ = (2 ^ 21 * (10 : ℝ) ^ ((g : ℝ) / 40)) ^ 40 * 10 ^ (-g).toNat := by
      unfold exactGain
      rw [← mul_assoc, ← pow_succ']
    _ = 2 ^ 840 * ((10 : ℝ) ^ g * 10 ^ (-g).toNat) := by
      rw [mul_pow, ← pow_mul, ten_rpow_fortieth_pow, mul_assoc]
    _ = 2 ^ 840 * 10 ^ g.toNat := by rw [hten]

/-- The integer test on 40th powers says that n is at most half a unit above the exact factor. -/
theorem gainFits_iff_le (g : Int) (n : Nat) : gainFits g n = true ↔ (n : ℝ) ≤ exactGain g + 1 / 2 := by
  have hpos := exactGain_pos g
  cases n with
  | zero =>
    have hfits : gainFits g 0 = true := by
      rw [gainFits, decide_eq_true_iff, Nat.mul_zero, Nat.zero_sub, zero_pow (by norm_num), zero_mul]
      exact Nat.zero_le _
    have hle : ((0 : Nat) : ℝ) ≤ exactGain g + 1 / 2 := by
      push_cast
      positivity
    exact iff_of_true hfits hle
  | succ m =>
    have hodd : 2 * (m + 1) - 1 = 2 * m + 1 := by omega
    calc gainFits g (m + 1) = true
      _ ↔ (2 * m + 1) ^ 40 * 10 ^ (-g).toNat ≤ 2 ^ 840 * 10 ^ g.toNat := by
        rw [gainFits, decide_eq_true_iff, hodd]
      _ ↔ (2 * (m : ℝ) + 1) ^ 40 * 10 ^ (-g).toNat ≤ 2 ^ 840 * 10 ^ g.toNat := by exact_mod_cast Iff.rfl
      _ ↔ (2 * (m : ℝ) + 1) ^ 40 ≤ (2 * exactGain g) ^ 40 := by
        rw [← two_mul_exactGain_pow, mul_le_mul_iff_left₀ (by positivity)]
      _ ↔ 2 * (m : ℝ) + 1 ≤ 2 * exactGain g := pow_le_pow_iff_left₀ (by positivity) (by positivity) (by norm_num)
      _ ↔ ((m + 1 : Nat) : ℝ) ≤ exactGain g + 1 / 2 := by
        push_cast
        constructor <;> intro h <;> linarith

theorem gainFits_iff_le_floor (g : Int) (n : Nat) : gainFits g n = true ↔ n ≤ ⌊exactGain g + 1 / 2⌋₊ := by
  have hpos := exactGain_pos g
  rw [gainFits_iff_le, Nat.le_floor_iff (by positivity)]

/-! ### The gain factor -/

/-- The factor of the highest step, and so of every step, fits in the 22 bits of the search. -/
theorem floor_exactGain_lt {g : Int} (hg : g ≤ 24) : ⌊exactGain g + 1 / 2⌋₊ < 2 ^ 22 := by
  refine lt_of_not_ge fun hle => ?_
  have hfits := (gainFits_iff_le_floor g (2 ^ 22)).2 hle
  rw [gainFits, decide_eq_true_iff] at hfits
  have hgap : 2 ^ 840 * 10 ^ 24 < (2 * 2 ^ 22 - 1) ^ 40 := by decide +kernel
  have hten : 10 ^ g.toNat ≤ 10 ^ 24 := Nat.pow_le_pow_right (by norm_num) (by omega)
  refine absurd hfits (not_le_of_gt ?_)
  calc 2 ^ 840 * 10 ^ g.toNat
    _ ≤ 2 ^ 840 * 10 ^ 24 := Nat.mul_le_mul_left _ hten
    _ < (2 * 2 ^ 22 - 1) ^ 40 := hgap
    _ ≤ (2 * 2 ^ 22 - 1) ^ 40 * 10 ^ (-g).toNat := Nat.le_mul_of_pos_right _ (by positivity)

theorem gainFactor_eq_floor {g : Int} (hg : g ≤ 24) : gainFactor g = ⌊exactGain g + 1 / 2⌋₊ := by
  have hbound := floor_exactGain_lt hg
  exact greatestFit_eq (gainFits_iff_le_floor g) (Nat.zero_le _) (by omega)

/-- 04 R78: F(g) is the integer nearest to the exact factor, exact halves rounded up. -/
theorem gainFactor_eq_round {g : Int} (hg : g ≤ 24) :
    (gainFactor g : Int) = ⌊(2 : ℝ) ^ 20 * (10 : ℝ) ^ ((g : ℝ) / 40) + 1 / 2⌋ := by
  have hpos := exactGain_pos g
  rw [gainFactor_eq_floor hg, Int.natCast_floor_eq_floor (by positivity), exactGain]

/-! ### The tables of 04 R78 -/

theorem gainFactor_table :
    ((List.range 49).map fun i => gainFactor (24 - (i : Int))) =
      [4174456, 3940941, 3720488, 3512367, 3315888, 3130401, 2955289, 2789972, 2633904, 2486566, 2347469, 2216154,
        2092184, 1975149, 1864661, 1760354, 1661881, 1568917, 1481153, 1398299, 1320079, 1246235, 1176522, 1110708,
        1048576, 989920, 934544, 882267, 832914, 786321, 742335, 700809, 661607, 624597, 589658, 556673, 525533, 496135,
        468382, 442181, 417446, 394094, 372049, 351237, 331589, 313040, 295529, 278997, 263390] := by
  decide +kernel

theorem gainFactor_low_table :
    ([-30, -40, -48, -60, -80, -120, -160, -200, -240, -252, -253, -255].map gainFactor) =
      [186466, 104858, 66161, 33159, 10486, 1049, 105, 10, 1, 1, 0, 0] := by
  decide +kernel

theorem gainFactor_neg_254 : gainFactor (-254) = 0 := by decide +kernel

/-! ### Where the factor is used -/

/-- 04 R77: the gain stage of an output that is not muted. -/
theorem runGain_some (g : Int) (xs : List Int) :
    runGain (some g) xs =
      (xs.map fun x => sat24 (scaled x (gainFactor g)),
        (xs.filter fun x => saturates (scaled x (gainFactor g))).length) := by
  simp [runGain, clipsOf, List.filter_map, Function.comp_def]

theorem runGain_none (xs : List Int) : runGain none xs = (xs.map fun _ => 0, 0) := rfl

theorem sourceFeed_one (i : Nat) (g : Int) (a : Audio) :
    sourceFeed (.one i g) a = (slot a i).map fun x => scaled x (gainFactor g) := rfl

theorem sourceFeed_two (i : Nat) (gi : Int) (j : Nat) (gj : Int) (a : Audio) :
    sourceFeed (.two i gi j gj) a =
      List.zipWith (fun x y => roundShift (x * gainFactor gi + y * gainFactor gj) 20) (slot a i) (slot a j) := rfl

/-- 03 R65: the paging samples are made at the paging step, or 6 below it on a screen with no C output in service. -/
theorem pagingStepOf_eq_or (roles : Tab RoleFigures 12) (p : Int) :
    pagingStepOf roles p = p ∨ pagingStepOf roles p = p - 6 := by
  unfold pagingStepOf
  split
  · exact .inl rfl
  · exact .inr rfl

/-- Settles O35: the search of the model finds the threshold of its test on 40th powers, which is the rounded factor;
the tables are evaluated, and each use is the lemma above on the gain stage, the role feeds or the paging samples. -/
theorem gainFactorNearest : Obligations.GainFactorNearest := by
  unfold Obligations.GainFactorNearest
  exact ⟨fun g _ hg => gainFactor_eq_round hg, gainFactor_table, gainFactor_low_table, gainFactor_neg_254,
    runGain_some, runGain_none, sourceFeed_one, sourceFeed_two,
    fun s _ _ hn => ⟨_, pagingStepOf_eq_or _ s.pagingStep, State.plan_paging hn⟩⟩

end Sys2Proof.Machine
end

section
/-! The level function (05 R93): its value from the highest set bit and the three bits below it, the table of T against
the real logarithm, and what a doubling adds. -/

namespace Sys2Proof.Machine

/-! ### The highest set bit and the three bits below it -/

/-- Between two successive powers of two the lower one is the highest set bit. -/
theorem lvl_eq_of_between {v k : Nat} (hlow : 2 ^ k ≤ v) (hhigh : v < 2 ^ (k + 1)) :
    lvl v = 6 * k + levelFraction (v * 8 / 2 ^ k - 8) + 1 := by
  have hpos : v ≠ 0 := (Nat.lt_of_lt_of_le (Nat.two_pow_pos k) hlow).ne'
  have hlog : Nat.log2 v = k := (Nat.log2_eq_iff hpos).2 ⟨hlow, hhigh⟩
  simp only [lvl, if_neg hpos, hlog]

theorem three_bits_le {v k : Nat} (hhigh : v < 2 ^ (k + 1)) : v * 8 / 2 ^ k - 8 ≤ 7 := by
  rw [pow_succ] at hhigh
  have hlt : v * 8 / 2 ^ k < 16 := (Nat.div_lt_iff_lt_mul (Nat.two_pow_pos k)).2 (by omega)
  omega

theorem exists_highest_bit {v : Nat} (hv : 0 < v) : ∃ k, 2 ^ k ≤ v ∧ v < 2 ^ (k + 1) :=
  ⟨Nat.log2 v, (Nat.log2_eq_iff hv.ne').1 rfl⟩

/-- A doubling moves the highest set bit one place up and leaves the three bits below it. -/
theorem lvl_mul_two_pow {v : Nat} (hv : 0 < v) (j : Nat) : lvl (v * 2 ^ j) = lvl v + 6 * j := by
  obtain ⟨k, hlow, hhigh⟩ := exists_highest_bit hv
  have hlow' : 2 ^ (k + j) ≤ v * 2 ^ j := by
    rw [pow_add]
    exact Nat.mul_le_mul_right _ hlow
  have hhigh' : v * 2 ^ j < 2 ^ (k + j + 1) := by
    rw [Nat.add_right_comm, pow_add]
    exact Nat.mul_lt_mul_of_pos_right hhigh (Nat.two_pow_pos j)
  have hbits : v * 2 ^ j * 8 / 2 ^ (k + j) = v * 8 / 2 ^ k := by
    rw [Nat.mul_right_comm, pow_add, Nat.mul_div_mul_right _ _ (Nat.two_pow_pos j)]
  rw [lvl_eq_of_between hlow' hhigh', lvl_eq_of_between hlow hhigh, hbits]
  omega

/-! ### The table of T -/

theorem levelFraction_eq_getD : ∀ m ≤ 7, levelFraction m = [0, 1, 2, 3, 4, 4, 5, 5].getD m 0 := by decide

/-- T(m) is within a half of 6 log2(1 + m/8): the test on 12th powers, in integers. -/
theorem levelFraction_pow_bounds : ∀ m ≤ 7,
    2 ^ (2 * levelFraction m) * 8 ^ 12 ≤ 2 * (8 + m) ^ 12 ∧ (8 + m) ^ 12 ≤ 2 ^ (2 * levelFraction m + 1) * 8 ^ 12 := by
  decide

/-- Six logarithms to base 2 of x lie within a half of t when the 12th power of x lies within a factor of 2 of 4^t. -/
theorem abs_sub_six_logb_le {t : Nat} {x : ℝ} (hx : 0 < x) (hlow : 2 ^ (2 * t) ≤ 2 * x ^ 12)
    (hhigh : x ^ 12 ≤ 2 ^ (2 * t + 1)) : |(t : ℝ) - 6 * Real.logb 2 x| ≤ 1 / 2 := by
  have htwo : (1 : ℝ) < 2 := one_lt_two
  have hself : Real.logb 2 2 = 1 := Real.logb_self_eq_one htwo
  have hbelow := Real.logb_le_logb_of_le htwo (by positivity) hlow
  have habove := Real.logb_le_logb_of_le htwo (by positivity) hhigh
  rw [Real.logb_mul two_ne_zero (by positivity), Real.logb_pow, Real.logb_pow, hself] at hbelow
  rw [Real.logb_pow, Real.logb_pow, hself] at habove
  push_cast at hbelow habove
  rw [abs_le]
  constructor <;> linarith

theorem levelFraction_near_log {m : Nat} (hm : m ≤ 7) :
    |((levelFraction m : Nat) : ℝ) - 6 * Real.logb 2 (1 + m / 8)| ≤ 1 / 2 := by
  obtain ⟨hlow, hhigh⟩ := levelFraction_pow_bounds m hm
  have hpow : (1 + (m : ℝ) / 8) ^ 12 = (8 + m) ^ 12 / 8 ^ 12 := by
    rw [← div_pow]
    congr 1
    ring
  refine abs_sub_six_logb_le (by positivity) ?_ ?_
  · rw [hpow, ← mul_div_assoc, le_div_iff₀ (by positivity)]
    exact_mod_cast hlow
  · rw [hpow, div_le_iff₀ (by positivity)]
    exact_mod_cast hhigh

/-! ### Some values (05 R93) -/

theorem lvl_table :
    [lvl 1, lvl 2, lvl 3, lvl 48, lvl (2 ^ 30), lvl (24 * 2 ^ 30), lvl (48 * 2 ^ 30), lvl (3 * 2 ^ 39)] =
      [1, 7, 11, 35, 181, 209, 215, 245] := by
  decide

/-- Settles O36: the highest set bit decides the level, T is its table and within a half of the real logarithm, and a
doubling moves the bit alone. -/
theorem levelFunction : Obligations.LevelFunction := by
  unfold Obligations.LevelFunction
  refine ⟨rfl, ?_, fun m hm => levelFraction_near_log hm, fun v j hv => lvl_mul_two_pow hv j, lvl_table⟩
  rintro v k m hlow hhigh rfl
  have hbits := three_bits_le hhigh
  exact ⟨hbits, by rw [lvl_eq_of_between hlow hhigh, levelFraction_eq_getD _ hbits]⟩

end Sys2Proof.Machine
end

section
/-! The SPL offset of a screen (05 R99): what OFFSET SET stores and answers, that DISABLE keeps the offset, and that a reset
and a RESTART return it to 0. -/

namespace Sys2Proof.Machine

/-! ### OFFSET SET -/

/-- 11 R184: OFFSET SET is MANAGEMENT's alone. -/
theorem offsetSet_allowed_iff (station : Fin 16) : allowed 26 station = true ↔ roleOf station = .management := by
  unfold allowed
  cases roleOf station <;> decide

theorem exec_offsetSet (h : Header) (screen : Nat) (value : Option Int) (s : State) :
    exec (.offsetSet h screen value) s =
      takeRequest (.offsetSet h screen value) h 26 (onScreen screen (actOffsetSet value)) s := rfl

theorem actOffsetSet_some (v : Int) (n : Fin 12) (s : State) :
    actOffsetSet (some v) n s =
      .accept (s.modMeter n fun m => { m with offset := max (-128) (min v 127) }) (decide (v < -128 ∨ 127 < v)) [] := by
  have range : (-128 : Int) ≤ 127 := by decide
  rw [← settingInt_value range, ← settingInt_clamped range]
  rfl

theorem actOffsetSet_none (n : Fin 12) (s : State) :
    actOffsetSet none n s = .accept s false [.num 1 (s.meters.get n).offset] := rfl

theorem exec_offsetSet_range {h : Header} {screen : Nat} {value : Option Int} {s : State}
    (hscreen : screen = 0 ∨ 12 < screen) (hr : s.ready (.offsetSet h screen value) h 26) :
    exec (.offsetSet h screen value) s = .next (s.refusing (.offsetSet h screen value) h 26 .range) := by
  rw [exec_offsetSet]
  exact takeRequest_refuse hr (onScreen_invalid (ident_eq_none.2 hscreen) _ _)

theorem exec_offsetSet_some {h : Header} {screen : Nat} {n : Fin 12} {v : Int} {s : State}
    (hn : ident 12 screen = some n) (hr : s.ready (.offsetSet h screen (some v)) h 26) :
    exec (.offsetSet h screen (some v)) s =
      .next (((s.taking (.offsetSet h screen (some v)) h).modMeter n fun m =>
          { m with offset := max (-128) (min v 127) }).answering h
        (doneAnswer h 26 (decide (v < -128 ∨ 127 < v)) [])) := by
  rw [exec_offsetSet]
  exact takeRequest_accept hr ((onScreen_valid hn _ _).trans (actOffsetSet_some v n _))

theorem exec_offsetSet_none {h : Header} {screen : Nat} {n : Fin 12} {s : State}
    (hn : ident 12 screen = some n) (hr : s.ready (.offsetSet h screen none) h 26) :
    exec (.offsetSet h screen none) s =
      .next (s.replying (.offsetSet h screen none) h (doneAnswer h 26 false [.num 1 (s.meters.get n).offset])) := by
  rw [exec_offsetSet]
  exact takeRequest_accept hr ((onScreen_valid hn _ _).trans (actOffsetSet_none n _))

/-! ### DISABLE -/

/-- A property that ports do not matter to is kept by DISABLE, taken, refused or left waiting, when the entry into
OFFLINE keeps it. -/
theorem exec_disable_keeps {P : State → Prop} {h : Header} {screen : Nat} {s : State}
    (hport : ∀ u p f, P u → P (u.modPort p f)) (hdisabled : ∀ n u, P u → P (disabled n h.station u)) (hs : P s) :
    ∃ t, exec (.disable h screen) s = .next t ∧ P t := by
  rw [exec_disable]
  obtain ⟨t, ht⟩ := takeRequest_next (i := .disable h screen) (h := h) (kind := 2)
    (act := onScreen screen (actDisable h)) (s := s)
  refine ⟨t, ht, takeRequest_keeps hport (onScreen_keeps fun n u v c f hu hv => ?_) hs ht⟩
  unfold actDisable at hv
  split at hv
  · cases hv
    exact hdisabled n u hu
  · cases hv

theorem CueFrame.meters {s t : State} (h : CueFrame s t) : t.meters = s.meters := by
  obtain ⟨_, _, _, _, _, rfl⟩ := h
  rfl

theorem withdrawAlarms_meters (n : Fin 12) (s : State) : (withdrawAlarms n s).meters = s.meters := by
  obtain ⟨_, _, h⟩ := withdrawAlarms_frame n s
  rw [h]

theorem rearmAll_meters (n : Fin 12) (s : State) : (rearmAll n s).meters = s.meters :=
  (CueFrame.overList rearm_frame _ s).meters

theorem clearScreen_meters (n : Fin 12) (s : State) : (clearScreen n s).meters = s.meters.modify n Meter.disable :=
  congrArg (fun meters => meters.modify n Meter.disable) (rearmAll_meters n (clearPaths n (clearBase n s)))

theorem disabled_meters (n : Fin 12) (station : Fin 16) (s : State) :
    (disabled n station s).meters = s.meters.modify n Meter.disable :=
  calc (disabled n station s).meters
    _ = (clearScreen n (withdrawAlarms n s)).meters := notify_meters _ _
    _ = (withdrawAlarms n s).meters.modify n Meter.disable := clearScreen_meters n _
    _ = s.meters.modify n Meter.disable := by rw [withdrawAlarms_meters]

/-- DISABLE returns every other meter field of the screen to its reset value. -/
theorem disabled_offset (n k : Fin 12) (station : Fin 16) (s : State) :
    ((disabled n station s).meters.get k).offset = (s.meters.get k).offset := by
  rw [disabled_meters, Tab.get_modify]
  split
  · next hk => rw [← hk, Meter.disable]
  · rfl

theorem exec_disable_offset (h : Header) (screen : Nat) (s : State) :
    ∃ t, exec (.disable h screen) s = .next t ∧ ∀ n, (t.meters.get n).offset = (s.meters.get n).offset :=
  exec_disable_keeps (fun _ _ _ hu => hu) (fun n u hu k => (disabled_offset n k h.station u).trans (hu k)) fun _ => rfl

/-! ### Reset and RESTART -/

theorem powerOn_offset (lines : SiteLines) (n : Fin 12) : ((State.powerOn lines).meters.get n).offset = 0 :=
  congrArg Meter.offset (Tab.get_fill Meter.reset n)

theorem exec_powerOnReset_offset (lines : SiteLines) (s : State) :
    ∃ t, exec (.powerOnReset lines) s = .next t ∧ ∀ n, (t.meters.get n).offset = 0 :=
  ⟨_, rfl, powerOn_offset lines⟩

theorem restartPart_offset (a b : Bool) (s : State) (n : Fin 12) : ((restartPart a b s).meters.get n).offset = 0 :=
  powerOn_offset { evac := s.evac, supply1 := a, supply2 := b } n

/-- Settles O37: each clause is the lemma above on OFFSET SET, DISABLE, the reset or the RESTART. -/
theorem offsetSet : Obligations.OffsetSet := by
  unfold Obligations.OffsetSet
  refine ⟨offsetSet_allowed_iff, fun h screen s => ⟨fun _ hscreen hr => exec_offsetSet_range hscreen hr,
    fun _ _ hn hr => exec_offsetSet_some hn hr, fun _ hn hr => exec_offsetSet_none hn hr⟩,
    exec_disable_offset, exec_powerOnReset_offset, ?_⟩
  intro port a b x s htx hkind hdone
  refine ⟨sendFrame port a b s, exec_frameSent port a b s, ?_⟩
  rw [sendFrame_restarts htx hkind hdone]
  exact restartPart_offset a b s

end Sys2Proof.Machine
end

section
/-! The Alarm Monitor (06): the alarm state machine and its holds, the conditions, what the judgement of one screen changes,
and what all twelve judgements of an interval event leave. -/

namespace Sys2Proof.Machine

/-! ### The state machine (06 R113) -/

/-- The state and phase count of a record after one judgement of its condition. -/
def alarmNext (rh ch : Nat) (x : AlarmState × Nat) (b : Bool) : AlarmState × Nat :=
  ((alarmStep rh ch b x.1 x.2).1, (alarmStep rh ch b x.1 x.2).2.1)

theorem alarmAfter_replicate_succ (rh ch k : Nat) (x : AlarmState × Nat) (b : Bool) :
    alarmAfter rh ch x (List.replicate (k + 1) b) = alarmNext rh ch (alarmAfter rh ch x (List.replicate k b)) b := by
  rw [List.replicate_succ', alarmAfter, List.foldl_append]
  rfl

/-- A record that leaves `start` waits for as many judgements as the hold, and then stays where the hold ends. -/
theorem alarmAfter_hold {rh ch hold : Nat} {b : Bool} {start : AlarmState × Nat} {waits ends : AlarmState}
    (hstart : alarmNext rh ch start b = if hold = 0 then (ends, 0) else (waits, 0))
    (hwaits : ∀ j, alarmNext rh ch (waits, j) b = if hold ≤ j + 1 then (ends, 0) else (waits, j + 1))
    (hends : alarmNext rh ch (ends, 0) b = (ends, 0)) (k : Nat) :
    alarmAfter rh ch start (List.replicate (k + 1) b) = if k + 1 ≤ hold then (waits, k) else (ends, 0) := by
  induction k with
  | zero =>
    rw [alarmAfter_replicate_succ]
    refine hstart.trans ?_
    by_cases none : hold = 0
    · rw [if_pos none, if_neg (by omega)]
    · rw [if_neg none, if_pos (by omega)]
  | succ k ih =>
    rw [alarmAfter_replicate_succ, ih]
    by_cases held : k + 1 ≤ hold
    · rw [if_pos held, hwaits]
      by_cases due : hold ≤ k + 1
      · rw [if_pos due, if_neg (by omega)]
      · rw [if_neg due, if_pos (by omega)]
    · rw [if_neg held, if_neg (by omega), hends]

/-- A condition that stays true is raised at the event after as many as the raise hold. -/
theorem alarmAfter_replicate_true (rh ch k : Nat) :
    alarmAfter rh ch (.clear, 0) (List.replicate (k + 1) true) =
      if k + 1 ≤ rh then (.pending, k) else (.raised, 0) := by
  refine alarmAfter_hold ?_ (fun j => ?_) rfl k
  · by_cases none : rh = 0 <;> simp [alarmNext, alarmStep, none]
  · by_cases due : rh ≤ j + 1 <;> simp [alarmNext, alarmStep, due]

/-- A condition that stays false is cleared at the event after as many as the clear hold. -/
theorem alarmAfter_replicate_false (rh : Nat) {ch : Nat} (hch : 0 < ch) (k : Nat) :
    alarmAfter rh ch (.raised, 0) (List.replicate (k + 1) false) =
      if k + 1 ≤ ch then (.clearing, k) else (.clear, 0) := by
  refine alarmAfter_hold ?_ (fun j => ?_) rfl k
  · simp [alarmNext, alarmStep, hch.ne']
  · by_cases due : ch ≤ j + 1 <;> simp [alarmNext, alarmStep, due]

/-! ### The conditions (06 R108 to R112) -/

theorem condition_peak (g : Gathered) (c : AlarmSettings) (run : Nat) :
    condition g c run .peak = true ↔ g.state = .show ∧ c.peakLimit < g.intervalSpl := by
  simp [condition]

theorem condition_loud (g : Gathered) (c : AlarmSettings) (run : Nat) :
    condition g c run .loud = true ↔ g.state = .show ∧ c.loudLimit < g.windowSpl := by
  simp [condition]

theorem condition_silent (g : Gathered) (c : AlarmSettings) (run : Nat) :
    condition g c run .silent = true ↔ g.state = .show ∧ c.silenceRun ≤ run := by
  simp [condition]

theorem condition_clip (g : Gathered) (c : AlarmSettings) (run : Nat) :
    condition g c run .clip = true ↔ g.state = .show ∧ c.clipLimit < g.clips := by
  simp [condition]

theorem Gathered.laneFault_iff (g : Gathered) :
    g.laneFault = true ↔ g.sync = .nosignal ∨ g.sync = .hunt ∨ g.sync = .probation ∨ 2 ≤ g.slips := by
  unfold laneFault
  cases g.sync <;> simp

theorem condition_lane (g : Gathered) (c : AlarmSettings) (run : Nat) :
    condition g c run .lane = true ↔
      (g.state = .show ∨ g.state = .paused ∨ g.state = .armed) ∧
        (g.sync = .nosignal ∨ g.sync = .hunt ∨ g.sync = .probation ∨ 2 ≤ g.slips) := by
  rw [condition, Bool.and_eq_true, g.laneFault_iff]
  cases g.state <;> simp

theorem condition_speaker (g : Gathered) (c : AlarmSettings) (run : Nat) :
    condition g c run .speaker = true ↔
      (g.state = .armed ∨ g.state = .show ∨ g.state = .paused ∨ g.state = .ending ∨ g.state = .evacuated) ∧
        g.failed.isSome = true := by
  rw [condition, Bool.and_eq_true]
  cases g.state <;> simp

theorem ShowState.playing_iff (x : ShowState) : x.playing = true ↔ x = .show ∨ x = .paused ∨ x = .ending := by
  cases x <;> simp [playing]

theorem condition_power (g : Gathered) (c : AlarmSettings) (run : Nat) :
    condition g c run .power = true ↔
      (g.state = .show ∨ g.state = .paused ∨ g.state = .ending) ∧ (g.status = .shed ∨ g.status = .suspended) := by
  simp [condition, ShowState.playing_iff]

/-! ### The kinds and the tables of seven -/

@[simp] theorem AlarmKind.ofIx_ix (k : AlarmKind) : AlarmKind.ofIx k.ix = k := by
  cases k <;> rfl

theorem AlarmKind.ix_injective : Function.Injective AlarmKind.ix := Function.LeftInverse.injective ofIx_ix

theorem AlarmKind.mem_all (k : AlarmKind) : k ∈ AlarmKind.all := by
  cases k <;> decide

theorem AlarmState.alerting_iff (x : AlarmState) : x.alerting = true ↔ x = .raised ∨ x = .clearing := by
  cases x <;> simp [alerting]

theorem attentionOf_iff (records : Tab AlarmRecord 7) :
    attentionOf records = true ↔ ∃ i, (records.get i).state = .raised ∨ (records.get i).state = .clearing := by
  simp [attentionOf, Tab.items_eq, AlarmState.alerting_iff]

/-! ### One record and one screen judged -/

/-- What the judgement of a screen announces of a kind (06 R113). -/
def Alarms.event (a : Alarms) (g : Gathered) (k : AlarmKind) : AlarmEvent :=
  (a.records.get k.ix).event g a.settings (silenceStep g a.settings a.silenceRun) k

theorem AlarmRecord.step_alarmStep (g : Gathered) (c : AlarmSettings) (run : Nat) (k : AlarmKind) (r : AlarmRecord) :
    ((r.step g c run k).state, (r.step g c run k).phase, r.event g c run k) =
      alarmStep c.raiseHold c.clearHold (condition g c run k) r.state r.phase := by
  unfold step event
  dsimp only
  split <;> rfl

theorem AlarmRecord.step_of_raise {g : Gathered} {c : AlarmSettings} {run : Nat} {k : AlarmKind} {r : AlarmRecord}
    (h : r.event g c run k = .raise) :
    (r.step g c run k).raises = r.raises + 1 ∧ (r.step g c run k).lastShow = g.time ∧
      (r.step g c run k).detail = detailOf g k := by
  have raised : r.step g c run k = _ := if_pos h
  rw [raised]
  exact ⟨rfl, rfl, rfl⟩

theorem AlarmRecord.step_of_not_raise {g : Gathered} {c : AlarmSettings} {run : Nat} {k : AlarmKind} {r : AlarmRecord}
    (h : r.event g c run k ≠ .raise) :
    (r.step g c run k).raises = r.raises ∧ (r.step g c run k).lastShow = r.lastShow ∧
      (r.step g c run k).detail = r.detail := by
  have kept : r.step g c run k = _ := if_neg h
  rw [kept]
  exact ⟨rfl, rfl, rfl⟩

theorem Alarms.judge_record (a : Alarms) (g : Gathered) (k : AlarmKind) :
    (a.judge g).records.get k.ix =
      (a.records.get k.ix).step g a.settings (silenceStep g a.settings a.silenceRun) k := by
  simp [judge]

theorem Alarms.judge_settings (a : Alarms) (g : Gathered) : (a.judge g).settings = a.settings := rfl

theorem Alarms.judge_silenceRun (a : Alarms) (g : Gathered) :
    (a.judge g).silenceRun = silenceStep g a.settings a.silenceRun := rfl

theorem Alarms.judge_loudTrim (a : Alarms) (g : Gathered) :
    (a.judge g).loudTrim =
      trimStep g a.settings ((a.judge g).records.get AlarmKind.loud.ix).state a.loudTrim := rfl

theorem Alarms.judge_attention (a : Alarms) (g : Gathered) :
    (a.judge g).attention = true ↔
      ∃ i, ((a.judge g).records.get i).state = .raised ∨ ((a.judge g).records.get i).state = .clearing :=
  attentionOf_iff (a.judge g).records

/-! ### The figures gathered (06 R107) -/

/-- FAILED, of the class that `short` tells (06 R111). -/
theorem Health.failed_class_iff (x : Health) (short : Bool) :
    x.failed = true ∧ decide (x = .failedShort) = short ↔
      x = .failedOpen ∧ short = false ∨ x = .failedShort ∧ short = true := by
  cases x <;> simp [failed, eq_comm]

theorem Health.failed_eq_false_iff (x : Health) : x.failed = false ↔ x ≠ .failedOpen ∧ x ≠ .failedShort := by
  cases x <;> simp [failed]

/-- The lowest-numbered FAILED output of a screen, and its class (06 R111, R114). -/
theorem State.failedOutput_eq_some_iff (s : State) (n : Fin 12) (o : Fin 192) (short : Bool) :
    s.failedOutput n = some (o, short) ↔
      (s.outputs.get o).screen = some n ∧
        ((s.outputs.get o).sense.health = .failedOpen ∧ short = false ∨
          (s.outputs.get o).sense.health = .failedShort ∧ short = true) ∧
        ∀ o', o' < o → (s.outputs.get o').screen = some n →
          (s.outputs.get o').sense.health ≠ .failedOpen ∧ (s.outputs.get o').sense.health ≠ .failedShort := by
  rw [State.failedOutput, State.outputsOf, List.find?_filter, ← Fin.find?_eq_find?_finRange,
    ← Health.failed_class_iff]
  simp only [Option.map_eq_some_iff, Fin.find?_eq_some_iff, Prod.mk.injEq, decide_eq_true_eq, decide_eq_false_iff_not,
    not_and, Bool.not_eq_true, Health.failed_eq_false_iff]
  constructor
  · rintro ⟨_, ⟨⟨hmapped, hfailed⟩, hfirst⟩, rfl, hclass⟩
    exact ⟨hmapped, ⟨hfailed, hclass⟩, hfirst⟩
  · rintro ⟨hmapped, ⟨hfailed, hclass⟩, hfirst⟩
    exact ⟨o, ⟨⟨hmapped, hfailed⟩, hfirst⟩, rfl, hclass⟩

theorem State.failedOutput_congr {s t : State}
    (h : ∀ o, (t.outputs.get o).place = (s.outputs.get o).place ∧ (t.outputs.get o).sense = (s.outputs.get o).sense)
    (n : Fin 12) : t.failedOutput n = s.failedOutput n := by
  unfold failedOutput outputsOf Output.screen
  simp only [h]

/-- Firing and skipping move nothing that a judgement reads. -/
theorem CueKept.gather {s t : State} (h : CueKept s t) (slips : Fin 14 → Nat) (n : Fin 12) :
    t.gather slips n = s.gather slips n := by
  obtain ⟨b, c, e, q, p, rfl⟩ := h.frame
  have hn : c.get n = { s.screens.get n with level := (c.get n).level } := h.screens n
  unfold State.gather
  dsimp only
  rw [hn]
  rfl

theorem clearSlips_gather (s : State) (slips : Fin 14 → Nat) (n : Fin 12) :
    (clearSlips s).gather slips n = s.gather slips n := by
  have lane : (clearSlips s).lanes.get (programLane n) = { s.lanes.get (programLane n) with intervalSlips := 0 } :=
    Tab.get_map ..
  unfold State.gather State.showTime State.word
  rw [lane]
  rfl

/-! ### The indication sets (06 R120) -/

/-- The kind stands in the screen's indication set on the port. -/
def State.indicates (s : State) (p : Fin 4) (n : Fin 12) (k : AlarmKind) : Prop :=
  ((s.ports.get p).indications.get n).get k.ix = true

theorem Port.push_indications (p : Port) (m : Notice) : (p.push m).indications = p.indications := by
  unfold push
  split <;> rfl

theorem Port.pump_indications (p : Port) : p.pump.indications = p.indications := by
  unfold pump
  split
  · rfl
  · rfl
  · split
    · rfl
    · split <;> rfl

theorem Port.offer_indications (m : Notice) (p : Port) : (p.offer m).indications = p.indications := by
  unfold offer
  split
  · rw [pump_indications, push_indications]
  · rfl

theorem notify_indications (m : Notice) (s : State) (p : Fin 4) :
    ((s.notify m).ports.get p).indications = (s.ports.get p).indications := by
  rw [notify_ports, Tab.get_map, Port.offer_indications]

theorem notify_indicates (m : Notice) (s : State) (p : Fin 4) (n : Fin 12) (k : AlarmKind) :
    (s.notify m).indicates p n k ↔ s.indicates p n k := by
  rw [State.indicates, notify_indications, State.indicates]

theorem indicate_indicates (n m : Fin 12) (k j : AlarmKind) (s : State) (p : Fin 4) :
    (indicate n k s).indicates p m j ↔ s.indicates p m j ∨ n = m ∧ k = j := by
  unfold State.indicates indicate
  rw [Tab.get_map, Tab.get_modify]
  by_cases hn : n = m
  · by_cases hk : k = j
    · simp [hn, hk]
    · simp [hn, hk, AlarmKind.ix_injective.eq_iff]
  · simp [hn]

theorem fire_indicates (e : Fin 512) (s : State) (p : Fin 4) (n : Fin 12) (k : AlarmKind) :
    (fire e s).indicates p n k ↔ s.indicates p n k := by
  unfold fire
  split
  · next c _ _ =>
    obtain ⟨b, d, h⟩ := perform_frame c.screen c.action s
    rw [h, notify_indicates]
    rfl
  · exact .rfl

theorem fireAlarm_indicates (m : Fin 12) (j : AlarmKind) (s : State) (p : Fin 4) (n : Fin 12) (k : AlarmKind) :
    (fireAlarm m j s).indicates p n k ↔ s.indicates p n k := by
  unfold fireAlarm
  split
  · exact overList_induct (P := fun t => t.indicates p n k ↔ s.indicates p n k) .rfl
      fun e _ t ht => (fire_indicates e t p n k).trans ht
  · exact .rfl

/-! ### What the judgement of one screen changes -/

theorem announce_eq (n : Fin 12) (a : Alarms) (g : Gathered) (k : AlarmKind) (s : State) :
    announce n a g k s =
      match a.event g k with
      | .none => s
      | .raise => fireAlarm n k ((indicate n k s).notifyAlarm n k .raise (a.records.get k.ix).state)
      | .clear => s.notifyAlarm n k .clear (a.records.get k.ix).state := rfl

theorem announce_cueKept (n : Fin 12) (a : Alarms) (g : Gathered) (k : AlarmKind) (s : State) :
    CueKept s (announce n a g k s) := by
  have hind : CueKept s (indicate n k s) :=
    ⟨⟨s.booth, s.screens, s.pool, s.cues, _, rfl⟩, fun _ => rfl, fun _ _ => rfl, fun _ => ⟨rfl, rfl⟩, fun _ => rfl,
      fun h => h⟩
  rw [announce_eq]
  split
  · exact .refl s
  · exact (hind.trans (notify_cueKept _ _)).trans (fireAlarm_cueKept n k _)
  · exact notify_cueKept _ s

/-- Of what is announced, a raise alone joins an indication set, and that of its own screen and kind. -/
theorem announce_indicates (n m : Fin 12) (a : Alarms) (g : Gathered) (k j : AlarmKind) (s : State) (p : Fin 4) :
    (announce n a g k s).indicates p m j ↔ s.indicates p m j ∨ n = m ∧ k = j ∧ a.event g j = .raise := by
  have unraised (h : a.event g k ≠ .raise) : ¬ (k = j ∧ a.event g j = .raise) := fun ⟨hk, hr⟩ => h (hk ▸ hr)
  rw [announce_eq]
  split
  · next h => simp [unraised (by simp [h])]
  · next h =>
    have raised : k = j ∧ a.event g j = .raise ↔ k = j := and_iff_left_of_imp fun hk => hk ▸ h
    rw [fireAlarm_indicates, State.notifyAlarm, notify_indicates, indicate_indicates, raised]
  · next h => simp [State.notifyAlarm, notify_indicates, unraised (by simp [h])]

theorem announceAll_indicates (n m : Fin 12) (a : Alarms) (g : Gathered) (l : List AlarmKind) (j : AlarmKind) (s : State)
    (p : Fin 4) :
    (overList (announce n a g) l s).indicates p m j ↔ s.indicates p m j ∨ n = m ∧ j ∈ l ∧ a.event g j = .raise := by
  induction l generalizing s with
  | nil => simp [overList]
  | cons k rest ih =>
    have hcons : overList (announce n a g) (k :: rest) s = overList (announce n a g) rest (announce n a g k s) := rfl
    rw [hcons, ih, announce_indicates, List.mem_cons, eq_comm (a := j)]
    tauto

theorem judgeScreen_cueKept (slips : Fin 14 → Nat) (n : Fin 12) (s : State) :
    CueKept (s.modAlarms n (Alarms.judge (s.gather slips n))) (judgeScreen slips n s) :=
  CueKept.overList (announce_cueKept n _ _) _ _

theorem judgeScreen_gather (slips slips' : Fin 14 → Nat) (n m : Fin 12) (s : State) :
    (judgeScreen slips n s).gather slips' m = s.gather slips' m :=
  (judgeScreen_cueKept slips n s).gather slips' m

theorem judgeScreen_alarms (slips : Fin 14 → Nat) (n : Fin 12) (s : State) :
    (judgeScreen slips n s).alarms = s.alarms.modify n (Alarms.judge (s.gather slips n)) := by
  obtain ⟨_, _, _, _, _, h⟩ := (judgeScreen_cueKept slips n s).frame
  rw [h]
  rfl

theorem judgeScreen_indicates (slips : Fin 14 → Nat) (n m : Fin 12) (k : AlarmKind) (s : State) (p : Fin 4) :
    (judgeScreen slips n s).indicates p m k ↔
      s.indicates p m k ∨ n = m ∧ (s.alarms.get n).event (s.gather slips n) k = .raise := by
  refine (announceAll_indicates n m _ _ _ k _ p).trans ?_
  simp only [AlarmKind.mem_all, true_and]
  rfl

/-! ### What the judgements of all screens leave -/

/-- A step made for each screen comes to screen `n` once: before its turn `P` holds, which the turns of other screens
keep, and from then on `Q`. -/
theorem overScreens_turn {P Q : State → Prop} {f : Fin 12 → State → State} {s : State} (n : Fin 12) (hs : P s)
    (before : ∀ m t, m ≠ n → P t → P (f m t)) (turn : ∀ t, P t → Q (f n t))
    (after : ∀ m t, m ≠ n → Q t → Q (f m t)) : Q (overScreens f s) := by
  obtain ⟨l, r, hlr⟩ := List.mem_iff_append.1 (List.mem_finRange n)
  have hnodup : (n :: (l ++ r)).Nodup := List.nodup_middle.1 (hlr ▸ List.nodup_finRange 12)
  have other : ∀ m, m ∈ l ++ r → m ≠ n := fun m hm h => (List.nodup_cons.1 hnodup).1 (h ▸ hm)
  have split : overScreens f s = overList f r (f n (overList f l s)) := by
    simp only [overScreens, overList, hlr, List.foldl_append, List.foldl_cons]
  rw [split]
  refine overList_induct (turn _ (overList_induct hs fun m hm t => ?_)) fun m hm t => ?_
  · exact before m t (other m (List.mem_append_left r hm))
  · exact after m t (other m (List.mem_append_right l hm))

/-- Before its turn a screen's figures, alarms and indication sets are those before the judgements. -/
def Unjudged (slips : Fin 14 → Nat) (n : Fin 12) (s t : State) : Prop :=
  t.gather slips n = s.gather slips n ∧ t.alarms.get n = s.alarms.get n ∧
    ∀ p k, t.indicates p n k ↔ s.indicates p n k

/-- From its turn on a screen's alarms have been judged, and what was raised indicated. -/
def Judged (slips : Fin 14 → Nat) (n : Fin 12) (s t : State) : Prop :=
  t.alarms.get n = (s.alarms.get n).judge (s.gather slips n) ∧
    ∀ p k, t.indicates p n k ↔ s.indicates p n k ∨ (s.alarms.get n).event (s.gather slips n) k = .raise

theorem judgeScreen_alarms_ne (slips : Fin 14 → Nat) {m n : Fin 12} (h : m ≠ n) (t : State) :
    (judgeScreen slips m t).alarms.get n = t.alarms.get n := by
  rw [judgeScreen_alarms, Tab.get_modify, if_neg h]

theorem judgeScreen_indicates_ne (slips : Fin 14 → Nat) {m n : Fin 12} (h : m ≠ n) (t : State) (p : Fin 4)
    (k : AlarmKind) : (judgeScreen slips m t).indicates p n k ↔ t.indicates p n k := by
  simp [judgeScreen_indicates, h]

theorem judgeAll_judged (slips : Fin 14 → Nat) (n : Fin 12) (s : State) :
    Judged slips n s (overScreens (judgeScreen slips) s) := by
  refine overScreens_turn (P := Unjudged slips n s) n ⟨rfl, rfl, fun _ _ => .rfl⟩ ?_ ?_ ?_
  · rintro m t hm ⟨hg, ha, hi⟩
    exact ⟨(judgeScreen_gather _ _ _ _ t).trans hg, (judgeScreen_alarms_ne slips hm t).trans ha,
      fun p k => (judgeScreen_indicates_ne slips hm t p k).trans (hi p k)⟩
  · rintro t ⟨hg, ha, hi⟩
    refine ⟨?_, fun p k => ?_⟩
    · rw [judgeScreen_alarms, Tab.get_modify, if_pos rfl, hg, ha]
    · simp only [judgeScreen_indicates, hg, ha, hi, true_and]
  · rintro m t hm ⟨ha, hi⟩
    exact ⟨(judgeScreen_alarms_ne slips hm t).trans ha,
      fun p k => (judgeScreen_indicates_ne slips hm t p k).trans (hi p k)⟩

theorem judgeAll_meters (slips : Fin 14 → Nat) (s : State) : (overScreens (judgeScreen slips) s).meters = s.meters := by
  refine overScreens_induct (P := fun t => t.meters = s.meters) rfl fun n t ht => ?_
  obtain ⟨_, _, _, _, _, _, h⟩ := judgeScreen_frame slips n t
  rw [h]
  exact ht

/-! ### The base currents and the measurement, which step after the judgements -/

/-- What follows the judgements leaves the alarms and the indication sets, and of the meters moves the offsets alone. -/
structure MeasurementFrame (s t : State) : Prop where
  alarms : t.alarms = s.alarms
  indicates : ∀ p n k, t.indicates p n k ↔ s.indicates p n k
  meters : ∀ n, t.meters.get n = { s.meters.get n with offset := (t.meters.get n).offset }

theorem MeasurementFrame.of_fields {s t : State} (ha : t.alarms = s.alarms) (hp : t.ports = s.ports)
    (hm : t.meters = s.meters) : MeasurementFrame s t :=
  ⟨ha, fun p n k => by rw [State.indicates, hp, State.indicates], fun n => by rw [hm]⟩

theorem MeasurementFrame.trans {s t u : State} (h : MeasurementFrame s t) (h' : MeasurementFrame t u) :
    MeasurementFrame s u :=
  ⟨h'.alarms.trans h.alarms, fun p n k => (h'.indicates p n k).trans (h.indicates p n k), fun n => by
    rw [h'.meters n, h.meters n]⟩

theorem notify_measurementFrame (m : Notice) (s : State) : MeasurementFrame s (s.notify m) :=
  ⟨rfl, notify_indicates m s, fun _ => rfl⟩

theorem storeSensitivity_measurementFrame (n : Fin 12) (g : Target) (x : Int) (s : State) :
    MeasurementFrame s (storeSensitivity n g x s) := by
  cases g with
  | output o => exact .of_fields rfl rfl rfl
  | reference =>
    refine ⟨rfl, fun _ _ _ => .rfl, fun m => ?_⟩
    simp only [storeSensitivity, modMeter_meters, Tab.get_modify]
    split
    · next h => rw [h]
    · rfl

theorem endMeasurement_measurementFrame (s : State) : MeasurementFrame s (endMeasurement s) := by
  unfold endMeasurement
  dsimp only
  split
  · next n g _ _ =>
    have idle : MeasurementFrame s { clearTones n s with context := Context.reset } := .of_fields rfl rfl rfl
    split
    · exact idle.trans (notify_measurementFrame _ _)
    · exact (idle.trans (storeSensitivity_measurementFrame n g _ _)).trans (notify_measurementFrame _ _)
  · exact .of_fields rfl rfl rfl

theorem stepMeasurement_measurementFrame (s : State) : MeasurementFrame s (stepMeasurement s) := by
  unfold stepMeasurement
  dsimp only
  split
  · exact .of_fields rfl rfl rfl
  · split
    · exact .of_fields rfl rfl rfl
    · split
      · exact endMeasurement_measurementFrame s
      · obtain ⟨x, o, h⟩ := endPhase_frame s
        rw [h]
        exact .of_fields rfl rfl rfl

theorem stepBases_measurementFrame (s : State) : MeasurementFrame s (overScreens stepBase s) := by
  obtain ⟨a, h⟩ := stepBases_frame s
  rw [h]
  exact .of_fields rfl rfl rfl

/-! ### The interval event -/

/-- The figures gathered for a screen at an interval event: those of the closed interval, with the slips handed over
(02 R38, 06 R107). -/
def State.intervalFigures (s : State) (n : Fin 12) : Gathered :=
  (closeIntervals (ensureClosed s)).gather s.slipsHanded n

/-- The close of a block moves outputs, the microphone sums, meters and the measurement context. -/
theorem ensureClosed_frame (s : State) :
    ∃ o e r m x b, ensureClosed s =
      { s with outputs := o, micEnergy := e, micRunning := r, meters := m, context := x, blockClosed := b } := by
  unfold ensureClosed
  split
  · exact ⟨s.outputs, s.micEnergy, s.micRunning, s.meters, s.context, s.blockClosed, rfl⟩
  · obtain ⟨o, e, m, x, h⟩ := closeBlock_frame s
    rw [h]
    exact ⟨_, _, _, _, _, _, rfl⟩

theorem addMeasured_meters (s : State) : (addMeasured s).meters = s.meters := by
  obtain ⟨x, h⟩ := addMeasured_frame s
  rw [h]

/-- The close of a block counts no clip (05 R101). -/
theorem ensureClosed_clips (s : State) (n : Fin 12) : ((ensureClosed s).meters.get n).clips = (s.meters.get n).clips := by
  unfold ensureClosed
  split
  · rfl
  · simp [closeBlock, addMeasured_meters, Meter.closeBlock]

/-- The state of an interval event in which every screen's interval has closed, and none has been judged. -/
def closedInterval (s : State) : State := closeIntervals { ensureClosed s with blockCount := 0, intervalTaken := true }

theorem closedInterval_gather (s : State) (n : Fin 12) :
    (closedInterval s).gather s.slipsHanded n = s.intervalFigures n := rfl

theorem closedInterval_frame (s : State) :
    (closedInterval s).slipsHanded = s.slipsHanded ∧ (closedInterval s).alarms = s.alarms ∧
      (closedInterval s).ports = s.ports := by
  obtain ⟨_, _, _, _, _, _, h⟩ := ensureClosed_frame s
  unfold closedInterval
  rw [h]
  exact ⟨rfl, rfl, rfl⟩

/-- The state of an interval event in which every screen has been judged. -/
def judgeInterval (s : State) : State := overScreens (judgeScreen s.slipsHanded) (clearSlips (closedInterval s))

theorem takeInterval_eq (s : State) :
    takeInterval s =
      if (overScreens stepBase (judgeInterval s)).measureStepped then overScreens stepBase (judgeInterval s)
      else stepMeasurement (overScreens stepBase (judgeInterval s)) := by
  rw [judgeInterval, ← (closedInterval_frame s).1]
  rfl

/-- After the judgements an interval event steps the base currents and the measurement. -/
theorem takeInterval_measurementFrame (s : State) : MeasurementFrame (judgeInterval s) (takeInterval s) := by
  have based := stepBases_measurementFrame (judgeInterval s)
  rw [takeInterval_eq]
  split
  · exact based
  · exact based.trans (stepMeasurement_measurementFrame _)

theorem takeInterval_alarms (s : State) (n : Fin 12) :
    (takeInterval s).alarms.get n = (s.alarms.get n).judge (s.intervalFigures n) := by
  obtain ⟨alarms, _⟩ := judgeAll_judged s.slipsHanded n (clearSlips (closedInterval s))
  rw [clearSlips_gather, closedInterval_gather] at alarms
  rw [(takeInterval_measurementFrame s).alarms, ← (closedInterval_frame s).2.1]
  exact alarms

theorem takeInterval_indicates (s : State) (p : Fin 4) (n : Fin 12) (k : AlarmKind) :
    (takeInterval s).indicates p n k ↔
      s.indicates p n k ∨ (s.alarms.get n).event (s.intervalFigures n) k = .raise := by
  obtain ⟨_, halarms, hports⟩ := closedInterval_frame s
  obtain ⟨_, indicated⟩ := judgeAll_judged s.slipsHanded n (clearSlips (closedInterval s))
  rw [clearSlips_gather, closedInterval_gather] at indicated
  have before : (clearSlips (closedInterval s)).indicates p n k ↔ s.indicates p n k := by
    unfold State.indicates
    rw [← hports]
    rfl
  rw [(takeInterval_measurementFrame s).indicates, ← halarms, ← before]
  exact indicated p k

theorem takeInterval_meter (s : State) (n : Fin 12) :
    (takeInterval s).meters.get n =
      { (closeIntervals (ensureClosed s)).meters.get n with offset := ((takeInterval s).meters.get n).offset } := by
  have moved := (takeInterval_measurementFrame s).meters n
  rw [judgeInterval, judgeAll_meters] at moved
  exact moved

/-- INTERVAL_EVENT at the last block of an interval. -/
theorem exec_intervalEvent_due {s : State} (hcount : s.blockCount + 1 = 1024) (htaken : s.intervalTaken = false) :
    exec .intervalEvent s = .next (takeInterval s) := by
  have due : s.intervalDue = true := by simp [State.intervalDue, hcount, htaken, Config.intervalBlocks]
  have taken : exec .intervalEvent s = .next (if s.intervalDue then takeInterval s else s) := rfl
  rw [taken, if_pos due]

/-! ### The figures of an interval event, in terms of the state before it -/

theorem intervalFigures_failed (s : State) (n : Fin 12) : (s.intervalFigures n).failed = s.failedOutput n := by
  refine State.failedOutput_congr (t := closeIntervals (ensureClosed s)) (fun o => ?_) n
  change ((ensureClosed s).outputs.get o).place = _ ∧ ((ensureClosed s).outputs.get o).sense = _
  rw [(ensureClosed_keeps s).2 o]
  exact ⟨rfl, rfl⟩

theorem intervalFigures_clips (s : State) (n : Fin 12) : (s.intervalFigures n).clips = (s.meters.get n).clips := by
  rw [← ensureClosed_clips]
  exact congrArg Meter.lastClips (Tab.get_update ..)

/-- The close of the block and of the intervals moves no figure of the Screen Controller, the lanes or the grants. -/
theorem intervalFigures_frame (s : State) (n : Fin 12) :
    s.intervalFigures n =
      { s.gather s.slipsHanded n with
        intervalSpl := (s.intervalFigures n).intervalSpl, windowSpl := (s.intervalFigures n).windowSpl,
        clips := (s.intervalFigures n).clips, failed := (s.intervalFigures n).failed } := by
  obtain ⟨_, _, _, _, _, _, h⟩ := ensureClosed_frame s
  unfold State.intervalFigures
  rw [h]
  rfl

theorem takeInterval_intervalSpl (s : State) (n : Fin 12) :
    ((takeInterval s).meters.get n).intervalSpl = (s.intervalFigures n).intervalSpl := by
  rw [takeInterval_meter]
  rfl

theorem takeInterval_windowSpl (s : State) (n : Fin 12) :
    ((takeInterval s).meters.get n).windowSpl = (s.intervalFigures n).windowSpl := by
  rw [takeInterval_meter]
  rfl

/-- A record of an interval event: its step by the state machine, and what a raise alone does (06 R113, R114, R120). -/
theorem takeInterval_record (s : State) (n : Fin 12) (k : AlarmKind) :
    ∃ old new event, old = (s.alarms.get n).records.get k.ix ∧
      new = ((takeInterval s).alarms.get n).records.get k.ix ∧
      (new.state, new.phase, event) =
        alarmStep (s.alarms.get n).settings.raiseHold (s.alarms.get n).settings.clearHold
          (condition (s.intervalFigures n) (s.alarms.get n).settings ((takeInterval s).alarms.get n).silenceRun k)
          old.state old.phase ∧
      (event = .raise →
        new.raises = old.raises + 1 ∧ new.lastShow = (s.intervalFigures n).time ∧
          new.detail = detailOf (s.intervalFigures n) k) ∧
      (event ≠ .raise → new.raises = old.raises ∧ new.lastShow = old.lastShow ∧ new.detail = old.detail) ∧
      ∀ p, (takeInterval s).indicates p n k ↔ s.indicates p n k ∨ event = .raise := by
  rw [takeInterval_alarms, Alarms.judge_record]
  exact ⟨_, _, _, rfl, rfl, AlarmRecord.step_alarmStep .., AlarmRecord.step_of_raise, AlarmRecord.step_of_not_raise,
    fun p => takeInterval_indicates s p n k⟩

/-- Settles O42: the table is the definition of the step, the holds are inductions on the run of judgements, and at an
interval event each screen is judged once, on figures that the judgements of the others leave. -/
theorem alarmStateMachine : Obligations.AlarmStateMachine := by
  unfold Obligations.AlarmStateMachine
  refine ⟨fun _ _ _ => ⟨rfl, rfl, rfl, rfl, rfl, rfl, rfl, rfl⟩, ?_, ?_, ?_, rfl, ?_⟩
  · rintro rh ch (_ | k) hk
    · exact absurd hk (Nat.lt_irrefl 0)
    · exact alarmAfter_replicate_true rh ch k
  · rintro rh ch (_ | k) hk hch
    · exact absurd hk (Nat.lt_irrefl 0)
    · exact alarmAfter_replicate_false rh hch k
  · exact fun g c run => ⟨condition_peak g c run, condition_loud g c run, condition_silent g c run,
      condition_clip g c run, condition_lane g c run, condition_speaker g c run, condition_power g c run, rfl,
      fun _ _ => rfl, rfl⟩
  · intro s hcount htaken
    refine ⟨takeInterval s, exec_intervalEvent_due hcount htaken, fun n => ⟨s.intervalFigures n, rfl, ?_⟩⟩
    have frame := intervalFigures_frame s n
    refine ⟨congrArg Gathered.state frame, ?_, congrArg Gathered.time frame,
      (takeInterval_intervalSpl s n).symm, (takeInterval_windowSpl s n).symm, intervalFigures_clips s n,
      congrArg Gathered.sync frame, congrArg Gathered.slips frame, congrArg Gathered.lastSlip frame,
      congrArg Gathered.status frame, fun o short => ?_, ?_, ?_, ?_, ?_, takeInterval_record s n⟩
    · rw [congrArg Gathered.rolling frame]
      exact decide_eq_true_iff
    · rw [intervalFigures_failed]
      exact s.failedOutput_eq_some_iff n o short
    · rw [takeInterval_alarms, Alarms.judge_settings]
    · rw [takeInterval_alarms, Alarms.judge_silenceRun]
    · rw [takeInterval_alarms, Alarms.judge_loudTrim]
    · rw [takeInterval_alarms]
      exact Alarms.judge_attention _ _

end Sys2Proof.Machine
end

section
/-! What one command can do, said once: every command leaves its state as it is, apart from the ports, or makes one of the
moves below, each with the checks that let it be made. The laws of the part are then proved move by move. -/

namespace Sys2Proof.Machine

/-! ### Ports -/

/-- The queues of a port are within their sizes (11 R182, R186). -/
def Port.Bounded (p : Port) : Prop := p.notices.length ≤ 32 ∧ p.queue.length ≤ 4

theorem Port.offer_bounded (n : Notice) {p : Port} (h : p.Bounded) : (p.offer n).Bounded :=
  ⟨Port.offer_notices n p h.1, (Port.offer_queue n p).symm ▸ h.2⟩

theorem Port.pump_bounded {p : Port} (h : p.Bounded) : p.pump.Bounded :=
  ⟨(Port.pump_notices p).trans h.1, (Port.pump_queue p).symm ▸ h.2⟩

theorem Port.hold_bounded (i : Instr) {p : Port} (h : p.Bounded) : (p.hold i).Bounded := by
  unfold Port.hold
  split
  · exact ⟨h.1, Nat.le_of_ble_eq_true rfl⟩
  · exact h

theorem Port.receive_bounded (i : Instr) {p : Port} (h : p.Bounded) : (p.receive i).Bounded := by
  unfold Port.receive
  split
  · next room =>
    refine ⟨h.1, ?_⟩
    rw [List.length_append]
    exact Nat.succ_le_of_lt room
  · exact h

theorem Port.answerWith_bounded (a : Answer) {p : Port} (h : p.Bounded) : (p.answerWith a).Bounded := by
  refine Port.pump_bounded (p := { p.markAnswered with answer := some a }) ?_
  unfold Port.markAnswered
  split
  · exact h
  · next q rest e =>
    refine ⟨h.1, ?_⟩
    have room := h.2
    rw [e] at room
    exact room

theorem Port.sent_bounded {p : Port} (h : p.Bounded) : p.sent.Bounded := by
  unfold Port.sent
  split
  · exact h
  · refine Port.pump_bounded (p := { p with tx := none, queue := p.queue.drop 1 }) ⟨h.1, ?_⟩
    rw [List.length_drop]
    exact (Nat.sub_le _ _).trans h.2
  · exact Port.pump_bounded (p := { p with tx := none }) h

theorem scan_bounded (port : Fin 4) (fuel : Nat) : ∀ (buf : List LineByte) {p : Port}, p.Bounded →
    (scan port fuel buf p).Bounded := by
  induction fuel with
  | zero => exact fun _ _ h => h
  | succ fuel ih =>
    intro buf p h
    unfold scan
    split
    · exact h
    · split
      · exact ih _ h
      · split
        · exact h
        · dsimp only
          split
          · exact ih _ h
          · split
            · exact h
            · split
              · exact ih _ (Port.receive_bounded _ h)
              · exact ih _ h

/-- `t` is `s` but for its ports, whose queues stay within their sizes. -/
structure PortsOnly (s t : State) : Prop where
  frame : ∃ p, t = { s with ports := p }
  queues : QueueLaw s → QueueLaw t

theorem PortsOnly.refl (s : State) : PortsOnly s s := ⟨⟨s.ports, rfl⟩, id⟩

theorem modPort_portsOnly {s : State} {port : Fin 4} {f : Port → Port} (hf : ∀ {p : Port}, p.Bounded → (f p).Bounded) :
    PortsOnly s (s.modPort port f) := by
  refine ⟨⟨_, rfl⟩, fun h q => ?_⟩
  rw [modPort_ports, Tab.get_modify]
  split
  · exact hf (h port)
  · exact h q

theorem PortsOnly.trans {s t u : State} (h : PortsOnly s t) (h' : PortsOnly t u) : PortsOnly s u := by
  obtain ⟨⟨p, rfl⟩, first⟩ := h
  obtain ⟨⟨q, rfl⟩, second⟩ := h'
  exact ⟨⟨q, rfl⟩, fun hs => second (first hs)⟩

/-! ### The moves -/

/-- What a command does to the part beside its ports, with the checks it has passed. -/
inductive Moves : Instr → State → State → Prop
  | powerOn (lines : SiteLines) (s : State) :
      Moves (.powerOnReset lines) s { State.powerOn lines with pending := s.pending, lateDraws := s.lateDraws }
  | evacAsserted {s : State} : s.evac = false → Moves .evacAsserted s (assertEvac s)
  | evacReleased {s : State} : s.evac = true → Moves .evacReleased s (releaseEvac s)
  | houseBlock (inp : BlockInputs) (s : State) : Moves (.houseBlock inp) s (houseBlock inp s)
  | referenceLost (inp : BlockInputs) (s : State) :
      Moves (.referenceLost inp) s (changeClock .free .locked (houseBlock inp s))
  | referenceRegained (s : State) : Moves .referenceRegained s (changeClock .locked .free s)
  | interval {s : State} : s.intervalDue = true → Moves .intervalEvent s (takeInterval s)
  | fadeStep {n : Fin 12} {s : State} : (s.screens.get n).fadeSteps = true →
      Moves (.fadeStep n) s (s.modScreen n Screen.takeFadeStep)
  | fadeCompletion {n : Fin 12} {s : State} : (s.screens.get n).fadeDone = true →
      Moves (.fadeCompletion n) s (completeFade n s)
  | pulseEnd (n : Fin 12) (l : Fin 8) (s : State) :
      Moves (.pulseEnd n l) s (s.modLine n l BoothLine.takePulseEnd)
  | selftest {a b : Bool} {s : State} : s.selftest.ends = true →
      Moves (.selftestCompletion a b) s (completeSelftest a b s)
  | activityLost (l : Fin 14) (s : State) : Moves (.activityLost l) s (loseActivity l s)
  | activitySeen (l : Fin 14) (s : State) : Moves (.activitySeen l) s (seeActivity l s)
  | blockFound (l : Fin 14) (b : LaneBlock) (position since : Nat) (s : State) :
      Moves (.blockFound l b position since) s (findBlock l b position since s)
  | laneBlock (l : Fin 14) (b : LaneBlock) (since : Nat) (last : Bool) (s : State) :
      Moves (.laneBlockEvent l b since last) s (laneBlock l b since last s)
  | automaticStart (e : StartEvent) (s : State) :
      Moves (.automaticStart e) s (Machine.laneBlock (programLane e.screen) e.block e.sinceHouse e.screensLast s)
  | phaseEnd {s : State} : s.phaseDue = true → s.context.phase ≠ .measure →
      Moves .measurePhaseEnd s { endPhase (ensureClosed s) with measureStepped := true }
  | result {s : State} : s.phaseDue = true → s.context.phase = .measure →
      Moves .measurementResult s { endMeasurement (ensureClosed s) with measureStepped := true }
  | returnBlock (l : Fin 12) (aux : List (Bool × Bool)) (s : State) :
      Moves (.returnBlockEvent l aux) s (returnBlock l (readReport (bytesOfAux aux)) s)
  | restart (port : Fin 4) (a b : Bool) (s : State) : Moves (.frameSent port a b) s (restartPart a b s)
  | enable {h : Header} {screen : Nat} {n : Fin 12} {s : State} : (s.screens.get n).state = .offline →
      Moves (.enable h screen) s (enabled n h.station s)
  | disable {h : Header} {screen : Nat} {n : Fin 12} {s : State} : (s.screens.get n).state = .dark →
      Moves (.disable h screen) s (disabled n h.station s)
  | hold {h : Header} {screen : Nat} {n : Fin 12} {s : State} : allowed 3 h.station = true →
      (s.screens.get n).holder = none → (s.screens.get n).state = .dark →
      Moves (.hold h screen) s (heldBy n h.station s)
  | calibrate {h : Header} {screen : Nat} {n : Fin 12} {s t : State} : allowed 4 h.station = true →
      (s.screens.get n).holder = none → (s.screens.get n).state = .dark → s.evac = false →
      enterDemand n .calibrating (some h.station) s = some t →
      Moves (.calibrate h screen) s
        ((withdrawAlarms n (clearBase n t)).notifyShow n .dark .request (some h.station))
  | release {h : Header} {screen : Nat} {n : Fin 12} {s : State} :
      (s.screens.get n).state = .armed ∨ (s.screens.get n).state = .calibrating →
      Moves (.free h screen) s (release n h.station s)
  | takeOver {h : Header} {screen : Nat} {n : Fin 12} {s : State} : isManagement h.station = true →
      (s.screens.get n).state.playing = true ∨ (s.screens.get n).state = .evacuated →
      Moves (.free h screen) s (takeOver n h.station s)
  | start {h : Header} {screen : Nat} {n : Fin 12} {s t : State} : (s.screens.get n).state = .armed →
      judgeStart n s = .inr t → Moves (.start h screen) s (t.notifyShow n .armed .request (some h.station))
  | pause {h : Header} {screen : Nat} {n : Fin 12} {s : State} : (s.screens.get n).state = .show →
      Moves (.pause h screen) s (moveShow n .pause h.station (fun c => { c with state := .paused }) s)
  | resume {h : Header} {screen : Nat} {n : Fin 12} {s : State} : (s.screens.get n).state = .paused →
      Moves (.resume h screen) s (moveShow n .resume h.station (fun c => { c with state := .show }) s)
  | endShow {h : Header} {screen : Nat} {rate : Option Nat} {n : Fin 12} {s : State} (r : Nat) :
      (s.screens.get n).state = .show ∨ (s.screens.get n).state = .paused →
      Moves (.endShow h screen rate) s (moveShow n .endBegin h.station (Screen.beginFade r) s)
  | level {h : Header} {screen value : Nat} (n : Fin 12) (v : Nat) (s : State) :
      Moves (.level h screen value) s (s.modScreen n fun c => { c with level := v })
  | screenSet {h : Header} {screen : Nat} {sel : ScreenSel} {n : Fin 12} {s : State} (c : ScreenConfig) :
      s.setRefusal n c = none → Moves (.screenSet h screen sel) s (applyConfig n c s)
  | laneSet {h : Header} {lane : Nat} {mask : BitVec 16} (l : Fin 14) (s : State) :
      Moves (.laneSet h lane mask) s (s.modLane l fun x => { x with mask })
  | outputMap {h : Header} {output : Nat} {assign : Option (Nat × Nat)} {o : Fin 192} {s : State}
      (new : Option (Fin 12 × Role)) : s.busyPlace (s.outputs.get o).place = false → s.busyPlace new = false →
      s.screenFull (s.outputs.get o).place new = false → s.offsetAt (s.outputs.get o).place = s.offsetAt new →
      Moves (.outputMap h output assign) s (s.modOutput o fun x => { x with place := new })
  | outputMoved {h : Header} {output : Nat} {assign : Option (Nat × Nat)} {o : Fin 192} {s : State}
      (new : Option (Fin 12 × Role)) : s.busyPlace (s.outputs.get o).place = false → s.busyPlace new = false →
      s.screenFull (s.outputs.get o).place new = false → s.reallocRefusal [s.placeChange o new] = none →
      Moves (.outputMap h output assign) s
        ((reallocate [s.placeChange o new] s).modOutput o fun x => { x with place := new })
  | layoutSet {h : Header} {code : Nat} {sources : List RoleSource} (c : Fin 16) (s : State) :
      Moves (.layoutSet h code sources) s { s with layouts := s.layouts.set c (some (buildLayout sources)) }
  | pagingSet {h : Header} {value : Option Int} (v : Int) (s : State) :
      Moves (.pagingSet h value) s { s with pagingStep := v }
  | tuneLoad {h : Header} {output : Nat} {trim : Int} {polarity : Nat} {sections : List Section} {delay : Nat}
      {o : Fin 192} {s : State} (g : Int) (b : Bool) (d : Nat) :
      (s.tuneChange o d).delay = s.effectiveDelay o →
      Moves (.tuneLoad h output trim polarity sections delay) s (s.modOutput o (Output.tune g b sections d))
  | tuneMoved {h : Header} {output : Nat} {trim : Int} {polarity : Nat} {sections : List Section} {delay : Nat}
      {o : Fin 192} {s : State} (g : Int) (b : Bool) (d : Nat) :
      s.reallocRefusal [s.tuneChange o d] = none →
      Moves (.tuneLoad h output trim polarity sections delay) s
        ((reallocate [s.tuneChange o d] s).modOutput o (Output.tune g b sections d))
  | trim {h : Header} {output : Nat} {value : Int} (o : Fin 192) (g : Int) (s : State) :
      Moves (.trim h output value) s (s.modOutput o fun x => { x with trim := g })
  | offsetSet {h : Header} {screen : Nat} {value : Option Int} (n : Fin 12) (v : Int) (s : State) :
      Moves (.offsetSet h screen value) s (s.modMeter n fun m => { m with offset := (settingInt (-128) 127 v).value })
  | alarmSet {h : Header} {screen : Nat} {sel : AlarmSel} (n : Fin 12) (c : AlarmSettings) (s : State) :
      Moves (.alarmSet h screen sel) s (s.modAlarms n (Alarms.store c))
  | senseSet {h : Header} {output : Nat} {sel : SenseSel} (o : Fin 192) (s : State) :
      Moves (.senseSet h output sel) s
        (s.modOutput o fun x => { x with thresholds := ((s.outputs.get o).thresholds.select sel).value })
  | exclude {h : Header} {output : Nat} (o : Fin 192) (s : State) :
      Moves (.exclude h output) s (excluded o h.station s)
  | includeOutput {h : Header} {output : Nat} (o : Fin 192) (s : State) :
      Moves (.includeOutput h output) s (included o h.station s)
  | budgetSet {h : Header} {sel : BudgetSel} (b : Budget) (s : State) : Moves (.budgetSet h sel) s (setBudget b s)
  | cueAdd {h : Header} {screen : Nat} {trigger : RawTrigger} {action : RawAction} {chase : Nat} {label : List Byte}
      {e : Fin 512} {s : State} (c : Cue) : s.pool.get e = none →
      Moves (.cueAdd h screen trigger action chase label) s (addCue e c s)
  | cueRemove {h : Header} {screen entry : Nat} {n : Fin 12} {e : Fin 512} {s : State} : s.listed n e = true →
      Moves (.cueRemove h screen entry) s (freeCue n e s)
  | cueClear {h : Header} {screen : Nat} (n : Fin 12) (s : State) :
      Moves (.cueClear h screen) s (clearCues n s)
  | lineSet {h : Header} {screen line : Nat} {command : LineCommand} (n : Fin 12) (l : Fin 8) (s : State) :
      Moves (.lineSet h screen line command) s
        (s.modLine n l (BoothLine.command (commandValue command) (commandLength command).value))
  | lineEvacSet {h : Header} {screen line setting : Nat} (n : Fin 12) (l : Fin 8) (e : EvacSetting) (s : State) :
      Moves (.lineEvacSet h screen line setting) s (s.modLine n l fun x => { x with setting := e })
  | tone {h : Header} {screen : Nat} {target : Option Nat} {action : Nat} {gain : Option Int} {n : Fin 12} {t : Target}
      {s : State} (on : Bool) (g : Int) : s.readTarget n target = some t → (s.screens.get n).state = .calibrating →
      Moves (.tone h screen target action gain) s { setTones (s.targetOutputs n t) on s with toneGain := g }
  | measure {h : Header} {screen : Nat} {target : Option Nat} {n : Fin 12} {t : Target} {s : State} :
      s.readTarget n target = some t → (s.screens.get n).state = .calibrating →
      Moves (.measure h screen target) s
        { clearTones n s with context := Context.begin n t h.station, measureStepped := false }
  | abort {h : Header} {screen : Nat} (s : State) : Moves (.abort h screen) s (abortMeasurement .abort s)
  | micSet {h : Header} {value : Option Int} (v : Int) (s : State) : Moves (.micSet h value) s { s with micOffset := v }
  | markSet {h : Header} {value : Nat} (v : Nat) (s : State) : Moves (.markSet h value) s { s with mark := v }

/-- A command with what its port does before and after its move. -/
def Stepped (i : Instr) (s t : State) : Prop :=
  ∃ u v, PortsOnly s u ∧ (v = u ∨ Moves i u v) ∧ PortsOnly v t

theorem Stepped.of_ports {i : Instr} {s t : State} (h : PortsOnly s t) : Stepped i s t :=
  ⟨t, t, h, .inl rfl, .refl t⟩

theorem Stepped.same (i : Instr) (s : State) : Stepped i s s := .of_ports (.refl s)

theorem Stepped.of_moves {i : Instr} {s t : State} (h : Moves i s t) : Stepped i s t :=
  ⟨s, t, .refl s, .inr h, .refl t⟩

/-- An event that moves the part only when it is due. -/
theorem Stepped.of_if {i : Instr} {p : Prop} [Decidable p] {s t u : State} (h : p → Moves i s u)
    (ht : (Host.Outcome.next (if p then u else s) : Host.Outcome State Fault Refusal) = .next t) : Stepped i s t := by
  injection ht with ht
  subst ht
  split
  · exact .of_moves (h ‹_›)
  · exact .same i s

/-! ### Requests -/

/-- What an accepted request may leave: its state but for the ports, or a move. -/
def Accepted (i : Instr) (u v : State) : Prop := PortsOnly u v ∨ Moves i u v

theorem takeRequest_stepped {i : Instr} {h : Header} {kind : Nat} {act : State → Result} {s t : State}
    (hact : ∀ u v c f, allowed kind h.station = true → act u = .accept v c f → Accepted i u v)
    (ht : takeRequest i h kind act s = .next t) : Stepped i s t := by
  have held : PortsOnly s (s.taking i h) := modPort_portsOnly (Port.hold_bounded i)
  have answered : ∀ (u : State) a, PortsOnly u (u.answering h a) := fun _ a =>
    modPort_portsOnly (Port.answerWith_bounded a)
  cases htake : (s.ports.get h.port).canTake i with
  | false =>
    rw [takeRequest_waits htake] at ht
    injection ht with ht
    exact .of_ports (ht ▸ modPort_portsOnly (Port.receive_bounded i))
  | true =>
  cases hrole : allowed kind h.station with
  | false =>
    rw [takeRequest_role htake hrole] at ht
    injection ht with ht
    exact .of_ports (ht ▸ held.trans (answered _ _))
  | true =>
  cases hfits : h.fits with
  | false =>
    rw [takeRequest_range htake hrole hfits] at ht
    injection ht with ht
    exact .of_ports (ht ▸ held.trans (answered _ _))
  | true =>
  have ready : s.ready i h kind := ⟨htake, hrole, hfits⟩
  cases ha : act (s.taking i h) with
  | refuse why =>
    rw [takeRequest_refuse ready ha] at ht
    injection ht with ht
    exact .of_ports (ht ▸ held.trans (answered _ _))
  | accept v c f =>
    rw [takeRequest_accept ready ha] at ht
    injection ht with ht
    subst ht
    rcases hact _ _ _ _ hrole ha with quiet | moved
    · exact .of_ports ((held.trans quiet).trans (answered _ _))
    · exact ⟨_, _, held, .inr moved, answered _ _⟩

theorem accept_inj {u v : State} {c d : Bool} {f g : List Field} (h : Result.accept u c f = .accept v d g) : v = u := by
  injection h with h
  exact h.symm

/-- A query leaves its state. -/
theorem accepted_self {i : Instr} {u v : State} {c d : Bool} {f g : List Field}
    (h : Result.accept u c f = .accept v d g) : Accepted i u v := .inl ((accept_inj h).symm ▸ .refl u)

theorem accepted_of_eq {i : Instr} {u w v : State} {c d : Bool} {f g : List Field} (hw : Moves i u w)
    (h : Result.accept w c f = .accept v d g) : Accepted i u v := .inr ((accept_inj h).symm ▸ hw)

theorem onScreen_accept {screen : Nat} {act : Fin 12 → State → Result} {u v : State} {c : Bool} {f : List Field}
    (h : onScreen screen act u = .accept v c f) : ∃ n, ident 12 screen = some n ∧ act n u = .accept v c f := by
  cases hn : ident 12 screen with
  | none => rw [onScreen_invalid hn] at h; cases h
  | some n => exact ⟨n, rfl, by rwa [onScreen_valid hn] at h⟩

theorem onOutput_accept {output : Nat} {act : Fin 192 → State → Result} {u v : State} {c : Bool} {f : List Field}
    (h : onOutput output act u = .accept v c f) : ∃ o, ident 192 output = some o ∧ act o u = .accept v c f := by
  cases ho : ident 192 output with
  | none => rw [onOutput_invalid ho] at h; cases h
  | some o => exact ⟨o, rfl, by rwa [onOutput_valid ho] at h⟩

theorem onLane_accept {lane : Nat} {act : Fin 14 → State → Result} {u v : State} {c : Bool} {f : List Field}
    (h : onLane lane act u = .accept v c f) : ∃ l, ident 14 lane = some l ∧ act l u = .accept v c f := by
  unfold onLane at h
  split at h
  · cases h
  · exact ⟨_, ‹_›, h⟩

theorem onLine_accept {line : Nat} {act : Fin 8 → State → Result} {u v : State} {c : Bool} {f : List Field}
    (h : onLine line act u = .accept v c f) : ∃ l, ident 8 line = some l ∧ act l u = .accept v c f := by
  unfold onLine at h
  split at h
  · cases h
  · exact ⟨_, ‹_›, h⟩

theorem onLayout_accept {code : Nat} {act : Fin 16 → State → Result} {u v : State} {c : Bool} {f : List Field}
    (h : onLayout code act u = .accept v c f) : ∃ l, ident0 16 code = some l ∧ act l u = .accept v c f := by
  unfold onLayout at h
  split at h
  · cases h
  · exact ⟨_, ‹_›, h⟩

theorem onTarget_accept {target : Option Nat} {act : Target → Fin 12 → State → Result} {n : Fin 12} {u v : State}
    {c : Bool} {f : List Field} (h : onTarget target act n u = .accept v c f) :
    ∃ t, u.readTarget n target = some t ∧ act t n u = .accept v c f := by
  unfold onTarget at h
  split at h
  · cases h
  · exact ⟨_, ‹_›, h⟩

theorem ofHolder_accept {h : Header} {act : Fin 12 → State → Result} {n : Fin 12} {u v : State} {c : Bool}
    {f : List Field} (hv : ofHolder h act n u = .accept v c f) :
    u.holds n h.station = true ∧ act n u = .accept v c f := by
  unfold ofHolder at hv
  split at hv
  · exact ⟨‹_›, hv⟩
  · cases hv

theorem ofHolderOrManagement_accept {h : Header} {act : Fin 12 → State → Result} {n : Fin 12} {u v : State} {c : Bool}
    {f : List Field} (hv : ofHolderOrManagement h act n u = .accept v c f) :
    u.mayCommand n h.station = true ∧ act n u = .accept v c f := by
  unfold ofHolderOrManagement at hv
  split at hv
  · exact ⟨‹_›, hv⟩
  · cases hv

/-! ### The owners' rules -/

section
variable {h : Header} {n : Fin 12} {u v : State} {c : Bool} {f : List Field}

theorem actEnable_accepted {screen : Nat} (hv : actEnable h n u = .accept v c f) :
    Accepted (.enable h screen) u v := by
  unfold actEnable at hv
  split at hv
  · exact accepted_of_eq (.enable ‹_›) hv
  · cases hv

theorem actDisable_accepted {screen : Nat} (hv : actDisable h n u = .accept v c f) :
    Accepted (.disable h screen) u v := by
  unfold actDisable at hv
  split at hv
  · exact accepted_of_eq (.disable ‹_›) hv
  · cases hv

theorem holder_none_of {o : Option (Fin 16)} (h : ¬ o.isSome = true) : o = none := by simpa using h

theorem actHold_accepted {screen : Nat} (hr : allowed 3 h.station = true) (hv : actHold h n u = .accept v c f) :
    Accepted (.hold h screen) u v := by
  unfold actHold at hv
  split at hv
  · cases hv
  · split at hv
    · cases hv
    · split at hv
      · cases hv
      · rename_i free dark _
        exact accepted_of_eq (.hold hr (holder_none_of free) (not_not.1 dark)) hv

theorem actCalibrate_accepted {screen : Nat} (hr : allowed 4 h.station = true)
    (hv : actCalibrate h n u = .accept v c f) : Accepted (.calibrate h screen) u v := by
  unfold actCalibrate at hv
  split at hv
  · cases hv
  · split at hv
    · cases hv
    · split at hv
      · cases hv
      · rename_i free dark quiet
        split at hv
        · cases hv
        · rename_i t ht
          exact accepted_of_eq (.calibrate hr (holder_none_of free) (not_not.1 dark) (by simpa using quiet) ht) hv

theorem freeByHolder_accepted {screen : Nat} (hv : freeByHolder h.station n u = .accept v c f) :
    Accepted (.free h screen) u v := by
  unfold freeByHolder at hv
  split at hv
  · exact accepted_of_eq (.release (.inl ‹_›)) hv
  · exact accepted_of_eq (.release (.inr ‹_›)) hv
  · cases hv

theorem freeByManagement_accepted {screen : Nat} (hm : isManagement h.station = true)
    (hv : freeByManagement h.station n u = .accept v c f) : Accepted (.free h screen) u v := by
  unfold freeByManagement at hv
  split at hv
  case h_1 hs => exact accepted_of_eq (.release (.inl hs)) hv
  case h_2 hs => exact accepted_of_eq (.release (.inr hs)) hv
  case h_3 hs => exact accepted_of_eq (.takeOver hm (.inl (by rw [hs]; rfl))) hv
  case h_4 hs => exact accepted_of_eq (.takeOver hm (.inl (by rw [hs]; rfl))) hv
  case h_5 hs => exact accepted_of_eq (.takeOver hm (.inl (by rw [hs]; rfl))) hv
  case h_6 hs => exact accepted_of_eq (.takeOver hm (.inr hs)) hv
  case h_7 => cases hv
  case h_8 => cases hv

theorem actFree_accepted {screen : Nat} (hv : actFree h n u = .accept v c f) : Accepted (.free h screen) u v := by
  unfold actFree at hv
  split at hv
  · exact freeByHolder_accepted hv
  · split at hv
    · exact freeByManagement_accepted ‹_› hv
    · cases hv

theorem startScreen_accepted {screen : Nat} (hv : startScreen h n u = .accept v c f) :
    Accepted (.start h screen) u v := by
  unfold startScreen at hv
  split at hv
  · rename_i armed
    split at hv
    · cases hv
    · rename_i t ht
      exact accepted_of_eq (.start armed ht) hv
  · cases hv
  · cases hv

theorem pauseScreen_accepted {screen : Nat} (hv : pauseScreen h n u = .accept v c f) :
    Accepted (.pause h screen) u v := by
  unfold pauseScreen at hv
  split at hv
  · exact accepted_of_eq (.pause ‹_›) hv
  · cases hv
  · cases hv

theorem resumeScreen_accepted {screen : Nat} (hv : resumeScreen h n u = .accept v c f) :
    Accepted (.resume h screen) u v := by
  unfold resumeScreen at hv
  split at hv
  · exact accepted_of_eq (.resume ‹_›) hv
  · cases hv
  · cases hv

theorem endScreen_accepted {screen : Nat} {rate : Option Nat} (hv : endScreen h rate n u = .accept v c f) :
    Accepted (.endShow h screen rate) u v := by
  unfold endScreen at hv
  dsimp only at hv
  split at hv
  · exact accepted_of_eq (.endShow _ (.inl ‹_›)) hv
  · exact accepted_of_eq (.endShow _ (.inr ‹_›)) hv
  · cases hv
  · cases hv

theorem actScreenSet_accepted {screen : Nat} {sel : ScreenSel} (hv : actScreenSet sel n u = .accept v c f) :
    Accepted (.screenSet h screen sel) u v := by
  unfold actScreenSet at hv
  dsimp only at hv
  split at hv
  · cases hv
  · exact accepted_of_eq (.screenSet _ ‹_›) hv

theorem mapOutput_accepted {output : Nat} {assign : Option (Nat × Nat)} {o : Fin 192} {new : Option (Fin 12 × Role)}
    (hv : mapOutput o new u = .accept v c f) : Accepted (.outputMap h output assign) u v := by
  unfold mapOutput at hv
  dsimp only at hv
  split at hv
  · cases hv
  · rename_i idle
    obtain ⟨oldIdle, newIdle⟩ : u.busyPlace (u.outputs.get o).place = false ∧ u.busyPlace new = false := by
      simpa using idle
    split at hv
    · cases hv
    · rename_i room
      have room : u.screenFull (u.outputs.get o).place new = false := by simpa using room
      split at hv
      · exact accepted_of_eq (.outputMap new oldIdle newIdle room ‹_›) hv
      · split at hv
        · cases hv
        · exact accepted_of_eq (.outputMoved new oldIdle newIdle room ‹_›) hv

theorem actOutputMap_accepted {output : Nat} {assign : Option (Nat × Nat)} {o : Fin 192}
    (hv : actOutputMap assign o u = .accept v c f) : Accepted (.outputMap h output assign) u v := by
  unfold actOutputMap at hv
  split at hv
  · cases hv
  · exact mapOutput_accepted hv

theorem actLayoutSet_accepted {code : Nat} {sources : List RoleSource} {l : Fin 16}
    (hv : actLayoutSet sources l u = .accept v c f) : Accepted (.layoutSet h code sources) u v := by
  unfold actLayoutSet at hv
  split at hv
  · exact accepted_of_eq (.layoutSet l u) hv
  · cases hv

theorem loadTuning_accepted {output : Nat} {trim : Int} {polarity : Nat} {sections : List Section} {delay : Nat}
    {o : Fin 192} (hv : loadTuning o trim polarity sections delay u = .accept v c f) :
    Accepted (.tuneLoad h output trim polarity sections delay) u v := by
  unfold loadTuning at hv
  dsimp only at hv
  split at hv
  · exact accepted_of_eq (.tuneLoad _ _ _ ‹_›) hv
  · split at hv
    · cases hv
    · exact accepted_of_eq (.tuneMoved _ _ _ ‹_›) hv

theorem actTuneLoad_accepted {output : Nat} {trim : Int} {polarity : Nat} {sections : List Section} {delay : Nat}
    {o : Fin 192} (hv : actTuneLoad h trim polarity sections delay o u = .accept v c f) :
    Accepted (.tuneLoad h output trim polarity sections delay) u v := by
  unfold actTuneLoad at hv
  split at hv
  · cases hv
  · split at hv
    · cases hv
    · split at hv
      · cases hv
      · split at hv
        · cases hv
        · exact loadTuning_accepted hv

theorem actTrim_accepted {output : Nat} {value : Int} {o : Fin 192} (hv : actTrim h value o u = .accept v c f) :
    Accepted (.trim h output value) u v := by
  unfold actTrim at hv
  dsimp only at hv
  split at hv
  · exact accepted_of_eq (.trim o _ u) hv
  · cases hv

theorem actTuneQuery_accepted {i : Instr} {start : Nat} {o : Fin 192} (hv : actTuneQuery start o u = .accept v c f) :
    Accepted i u v := by
  unfold actTuneQuery at hv
  split at hv
  · cases hv
  · exact accepted_self hv

theorem actStoreQuery_accepted {i : Instr} {start : Nat} (hv : actStoreQuery start u = .accept v c f) :
    Accepted i u v := by
  unfold actStoreQuery at hv
  split at hv
  · cases hv
  · exact accepted_self hv

theorem actPagingSet_accepted {value : Option Int} (hv : actPagingSet value u = .accept v c f) :
    Accepted (.pagingSet h value) u v := by
  cases value with
  | some x => exact accepted_of_eq (.pagingSet _ u) hv
  | none => exact accepted_self hv

theorem actOffsetSet_accepted {screen : Nat} {value : Option Int} (hv : actOffsetSet value n u = .accept v c f) :
    Accepted (.offsetSet h screen value) u v := by
  cases value with
  | some x => exact accepted_of_eq (.offsetSet n x u) hv
  | none => exact accepted_self hv

theorem actMicSet_accepted {value : Option Int} (hv : actMicSet value u = .accept v c f) :
    Accepted (.micSet h value) u v := by
  cases value with
  | some x => exact accepted_of_eq (.micSet _ u) hv
  | none => exact accepted_self hv

theorem actLevelQuery_accepted {i : Instr} {output : Option Nat} (hv : actLevelQuery output n u = .accept v c f) :
    Accepted i u v := by
  cases output with
  | none => exact accepted_self hv
  | some k =>
    unfold actLevelQuery at hv
    dsimp only at hv
    split at hv
    · cases hv
    · split at hv
      · exact accepted_self hv
      · cases hv

theorem actCalibrationQuery_accepted {i : Instr} {screen : Option Nat}
    (hv : actCalibrationQuery screen u = .accept v c f) : Accepted i u v := by
  cases screen with
  | none => exact accepted_self hv
  | some k =>
    unfold actCalibrationQuery at hv
    dsimp only at hv
    split at hv
    · cases hv
    · exact accepted_self hv

theorem actAlarmQuery_accepted {i : Instr} (hv : actAlarmQuery h n u = .accept v c f) : Accepted i u v :=
  .inl ((accept_inj hv).symm ▸ modPort_portsOnly id)

theorem actSubscribe_accepted {i : Instr} {kinds screens : BitVec 16}
    (hv : actSubscribe h kinds screens u = .accept v c f) : Accepted i u v :=
  .inl ((accept_inj hv).symm ▸ modPort_portsOnly id)

theorem actExclude_accepted {output : Nat} {o : Fin 192} (hv : actExclude h o u = .accept v c f) :
    Accepted (.exclude h output) u v := by
  unfold actExclude at hv
  split at hv
  · exact accepted_self hv
  · exact accepted_of_eq (.exclude o u) hv

theorem actInclude_accepted {output : Nat} {o : Fin 192} (hv : actInclude h o u = .accept v c f) :
    Accepted (.includeOutput h output) u v := by
  unfold actInclude at hv
  split at hv
  · exact accepted_of_eq (.includeOutput o u) hv
  · exact accepted_of_eq (.includeOutput o u) hv
  · cases hv

theorem mem_freeCues {s : State} {e : Fin 512} : e ∈ s.freeCues ↔ s.pool.get e = none := by
  simp [State.freeCues]

theorem addCueChecked_accepted {screen : Nat} {trigger : RawTrigger} {action : RawAction} {chase : Nat}
    {label : List Byte} (hv : addCueChecked trigger action chase label n u = .accept v c f) :
    Accepted (.cueAdd h screen trigger action chase label) u v := by
  unfold addCueChecked at hv
  split at hv
  · split at hv
    · unfold placeCue at hv
      split at hv
      · cases hv
      · rename_i e rest free
        exact accepted_of_eq (.cueAdd _ (mem_freeCues.1 (free ▸ List.mem_cons_self))) hv
    · cases hv
  · cases hv

theorem removeCue_accepted {screen entry : Nat} (hv : removeCue entry n u = .accept v c f) :
    Accepted (.cueRemove h screen entry) u v := by
  unfold removeCue at hv
  split at hv
  · cases hv
  · split at hv
    · exact accepted_of_eq (.cueRemove ‹_›) hv
    · cases hv

theorem clearCueLists_accepted {screen : Nat} (hv : clearCueLists n u = .accept v c f) :
    Accepted (.cueClear h screen) u v := by
  unfold clearCueLists at hv
  split at hv
  · cases hv
  · exact accepted_of_eq (.cueClear n u) hv

theorem setLineEvac_accepted {screen line setting : Nat} {l : Fin 8} (hv : setLineEvac setting n l u = .accept v c f) :
    Accepted (.lineEvacSet h screen line setting) u v := by
  unfold setLineEvac at hv
  split at hv
  · cases hv
  · exact accepted_of_eq (.lineEvacSet n l _ u) hv

theorem setTone_accepted {screen : Nat} {target : Option Nat} {action : Nat} {gain carried : Option Int} {on : Bool}
    {t : Target} (ht : u.readTarget n target = some t) (hv : setTone h on carried t n u = .accept v c f) :
    Accepted (.tone h screen target action gain) u v := by
  unfold setTone at hv
  split at hv
  · cases hv
  · split at hv
    · cases hv
    · rename_i calibrating
      split at hv
      · cases hv
      · split at hv
        · cases hv
        · exact accepted_of_eq (.tone on _ ht (not_not.1 calibrating)) hv

theorem actTone_accepted {screen : Nat} {target : Option Nat} {action : Nat} {gain : Option Int}
    (hv : actTone h target action gain n u = .accept v c f) : Accepted (.tone h screen target action gain) u v := by
  obtain ⟨t, ht, hv⟩ := onTarget_accept hv
  split at hv
  · cases hv
  · exact setTone_accepted ht hv

theorem beginMeasure_accepted {screen : Nat} {target : Option Nat} {t : Target} (ht : u.readTarget n target = some t)
    (hv : beginMeasure h t n u = .accept v c f) : Accepted (.measure h screen target) u v := by
  unfold beginMeasure at hv
  split at hv
  · cases hv
  · split at hv
    · cases hv
    · rename_i calibrating
      repeat (split at hv; · cases hv)
      exact accepted_of_eq (.measure ht (not_not.1 calibrating)) hv

theorem actAbort_accepted {screen : Nat} (hv : actAbort h n u = .accept v c f) : Accepted (.abort h screen) u v := by
  unfold actAbort at hv
  split at hv
  · cases hv
  · split at hv
    · exact accepted_of_eq (.abort u) hv
    · cases hv

end

/-! ### Every command -/

theorem sendFrame_stepped (port : Fin 4) (a b : Bool) (s : State) :
    Stepped (.frameSent port a b) s (sendFrame port a b s) := by
  unfold sendFrame
  split
  · exact .same _ s
  · split
    · exact .of_moves (.restart port a b s)
    · exact .of_ports (modPort_portsOnly Port.sent_bounded)

theorem execReferenceRegained_stepped {s t : State} (ht : execReferenceRegained s = .next t) :
    Stepped .referenceRegained s t := by
  injection ht with ht
  subst ht
  split
  · exact .of_moves (.referenceRegained s)
  · exact .same _ s

theorem execUnknownRequest_stepped {i : Instr} {h : Header} {kind : Nat} {s t : State}
    (ht : execUnknownRequest h kind s = .next t) : Stepped i s t := by
  unfold execUnknownRequest at ht
  split at ht
  · injection ht with ht
    exact ht ▸ .same i s
  · split at ht
    · injection ht with ht
      exact .of_ports (ht ▸ .trans (modPort_portsOnly (Port.hold_bounded _)) (modPort_portsOnly (Port.answerWith_bounded _)))
    · injection ht with ht
      exact .of_ports (ht ▸ modPort_portsOnly (Port.receive_bounded _))

/-- The inversion of a command: it moves the part in one of the ways of `Moves`, or leaves all but its ports. -/
theorem exec_stepped {i : Instr} {s t : State} (ht : exec i s = .next t) : Stepped i s t := by
  cases i with
  | powerOnReset lines => injection ht with ht; exact ht ▸ .of_moves (.powerOn lines s)
  | evacAsserted =>
    injection ht with ht
    subst ht
    cases e : s.evac with
    | true => exact .same _ s
    | false => exact .of_moves (.evacAsserted e)
  | evacReleased => exact .of_if .evacReleased ht
  | houseBlock inp => injection ht with ht; exact ht ▸ .of_moves (.houseBlock inp s)
  | referenceLost inp => exact .of_if (fun _ => .referenceLost inp s) ht
  | referenceRegained => exact execReferenceRegained_stepped ht
  | intervalEvent => exact .of_if .interval ht
  | fadeStep n => exact .of_if .fadeStep ht
  | fadeCompletion n => exact .of_if .fadeCompletion ht
  | pulseEnd n l => exact .of_if (fun _ => .pulseEnd n l s) ht
  | selftestCompletion a b => exact .of_if .selftest ht
  | activityLost l => injection ht with ht; exact ht ▸ .of_moves (.activityLost l s)
  | activitySeen l => injection ht with ht; exact ht ▸ .of_moves (.activitySeen l s)
  | blockFound l b p k => injection ht with ht; exact ht ▸ .of_moves (.blockFound l b p k s)
  | laneBlockEvent l b k x => injection ht with ht; exact ht ▸ .of_moves (.laneBlock l b k x s)
  | automaticStart e => exact .of_if (fun _ => .automaticStart e s) ht
  | measurePhaseEnd =>
    exact .of_if (fun due => .phaseEnd (Bool.and_eq_true_iff.1 due).1 (of_decide_eq_true (Bool.and_eq_true_iff.1 due).2))
      ht
  | measurementResult =>
    exact .of_if (fun due => .result (Bool.and_eq_true_iff.1 due).1 (of_decide_eq_true (Bool.and_eq_true_iff.1 due).2))
      ht
  | returnBlockEvent l aux => injection ht with ht; exact ht ▸ .of_moves (.returnBlock l aux s)
  | frameReceived p bytes =>
    injection ht with ht
    exact .of_ports (ht ▸ modPort_portsOnly (scan_bounded p _ _))
  | frameSent p a b => injection ht with ht; exact ht ▸ sendFrame_stepped p a b s
  | unknownRequest h k => exact execUnknownRequest_stepped ht
  | enable h x =>
    refine takeRequest_stepped (fun u v c f hr hv => ?_) ht
    obtain ⟨n, -, hv⟩ := onScreen_accept hv
    exact actEnable_accepted hv
  | disable h x =>
    refine takeRequest_stepped (fun u v c f hr hv => ?_) ht
    obtain ⟨n, -, hv⟩ := onScreen_accept hv
    exact actDisable_accepted hv
  | hold h x =>
    refine takeRequest_stepped (fun u v c f hr hv => ?_) ht
    obtain ⟨n, -, hv⟩ := onScreen_accept hv
    exact actHold_accepted hr hv
  | calibrate h x =>
    refine takeRequest_stepped (fun u v c f hr hv => ?_) ht
    obtain ⟨n, -, hv⟩ := onScreen_accept hv
    exact actCalibrate_accepted hr hv
  | free h x =>
    refine takeRequest_stepped (fun u v c f hr hv => ?_) ht
    obtain ⟨n, -, hv⟩ := onScreen_accept hv
    exact actFree_accepted hv
  | start h x =>
    refine takeRequest_stepped (fun u v c f hr hv => ?_) ht
    obtain ⟨n, -, hv⟩ := onScreen_accept hv
    exact startScreen_accepted (ofHolder_accept hv).2
  | pause h x =>
    refine takeRequest_stepped (fun u v c f hr hv => ?_) ht
    obtain ⟨n, -, hv⟩ := onScreen_accept hv
    exact pauseScreen_accepted (ofHolder_accept hv).2
  | resume h x =>
    refine takeRequest_stepped (fun u v c f hr hv => ?_) ht
    obtain ⟨n, -, hv⟩ := onScreen_accept hv
    exact resumeScreen_accepted (ofHolder_accept hv).2
  | endShow h x rate =>
    refine takeRequest_stepped (fun u v c f hr hv => ?_) ht
    obtain ⟨n, -, hv⟩ := onScreen_accept hv
    exact endScreen_accepted (ofHolder_accept hv).2
  | level h x value =>
    refine takeRequest_stepped (fun u v c f hr hv => ?_) ht
    obtain ⟨n, -, hv⟩ := onScreen_accept hv
    exact accepted_of_eq (.level n _ u) (ofHolderOrManagement_accept hv).2
  | screenSet h x sel =>
    refine takeRequest_stepped (fun u v c f hr hv => ?_) ht
    obtain ⟨n, -, hv⟩ := onScreen_accept hv
    exact actScreenSet_accepted hv
  | screenQuery h x =>
    refine takeRequest_stepped (fun u v c f hr hv => ?_) ht
    obtain ⟨n, -, hv⟩ := onScreen_accept hv
    exact accepted_self hv
  | laneSet h x mask =>
    refine takeRequest_stepped (fun u v c f hr hv => ?_) ht
    obtain ⟨l, -, hv⟩ := onLane_accept hv
    exact accepted_of_eq (.laneSet l u) hv
  | laneQuery h x =>
    refine takeRequest_stepped (fun u v c f hr hv => ?_) ht
    obtain ⟨l, -, hv⟩ := onLane_accept hv
    exact accepted_self hv
  | outputMap h x assign =>
    refine takeRequest_stepped (fun u v c f hr hv => ?_) ht
    obtain ⟨o, -, hv⟩ := onOutput_accept hv
    exact actOutputMap_accepted hv
  | outputQuery h x =>
    refine takeRequest_stepped (fun u v c f hr hv => ?_) ht
    obtain ⟨o, -, hv⟩ := onOutput_accept hv
    exact accepted_self hv
  | layoutSet h x sources =>
    refine takeRequest_stepped (fun u v c f hr hv => ?_) ht
    obtain ⟨l, -, hv⟩ := onLayout_accept hv
    exact actLayoutSet_accepted hv
  | layoutQuery h x =>
    refine takeRequest_stepped (fun u v c f hr hv => ?_) ht
    obtain ⟨l, -, hv⟩ := onLayout_accept hv
    exact accepted_self hv
  | pagingSet h x => exact takeRequest_stepped (fun u v c f hr hv => actPagingSet_accepted hv) ht
  | routeQuery h x =>
    refine takeRequest_stepped (fun u v c f hr hv => ?_) ht
    obtain ⟨n, -, hv⟩ := onScreen_accept hv
    exact accepted_self hv
  | tuneLoad h x g p l d =>
    refine takeRequest_stepped (fun u v c f hr hv => ?_) ht
    obtain ⟨o, -, hv⟩ := onOutput_accept hv
    exact actTuneLoad_accepted hv
  | trim h x g =>
    refine takeRequest_stepped (fun u v c f hr hv => ?_) ht
    obtain ⟨o, -, hv⟩ := onOutput_accept hv
    exact actTrim_accepted hv
  | tuneQuery h x p =>
    refine takeRequest_stepped (fun u v c f hr hv => ?_) ht
    obtain ⟨o, -, hv⟩ := onOutput_accept hv
    exact actTuneQuery_accepted hv
  | gainQuery h x =>
    refine takeRequest_stepped (fun u v c f hr hv => ?_) ht
    obtain ⟨n, -, hv⟩ := onScreen_accept hv
    exact accepted_self hv
  | storeQuery h p => exact takeRequest_stepped (fun u v c f hr hv => actStoreQuery_accepted hv) ht
  | offsetSet h x value =>
    refine takeRequest_stepped (fun u v c f hr hv => ?_) ht
    obtain ⟨n, -, hv⟩ := onScreen_accept hv
    exact actOffsetSet_accepted hv
  | levelQuery h x o =>
    refine takeRequest_stepped (fun u v c f hr hv => ?_) ht
    obtain ⟨n, -, hv⟩ := onScreen_accept hv
    exact actLevelQuery_accepted hv
  | alarmSet h x sel =>
    refine takeRequest_stepped (fun u v c f hr hv => ?_) ht
    obtain ⟨n, -, hv⟩ := onScreen_accept hv
    exact accepted_of_eq (.alarmSet n _ u) hv
  | alarmQuery h x =>
    refine takeRequest_stepped (fun u v c f hr hv => ?_) ht
    obtain ⟨n, -, hv⟩ := onScreen_accept hv
    exact actAlarmQuery_accepted hv
  | senseSet h x sel =>
    refine takeRequest_stepped (fun u v c f hr hv => ?_) ht
    obtain ⟨o, -, hv⟩ := onOutput_accept hv
    exact accepted_of_eq (.senseSet o u) hv
  | exclude h x =>
    refine takeRequest_stepped (fun u v c f hr hv => ?_) ht
    obtain ⟨o, -, hv⟩ := onOutput_accept hv
    exact actExclude_accepted hv
  | includeOutput h x =>
    refine takeRequest_stepped (fun u v c f hr hv => ?_) ht
    obtain ⟨o, -, hv⟩ := onOutput_accept hv
    exact actInclude_accepted hv
  | healthQuery h x =>
    refine takeRequest_stepped (fun u v c f hr hv => ?_) ht
    obtain ⟨o, -, hv⟩ := onOutput_accept hv
    exact accepted_self hv
  | budgetSet h sel => exact takeRequest_stepped (fun u v c f hr hv => accepted_of_eq (.budgetSet _ u) hv) ht
  | powerQuery h => exact takeRequest_stepped (fun u v c f hr hv => accepted_self hv) ht
  | cueAdd h x trigger action chase label =>
    refine takeRequest_stepped (fun u v c f hr hv => ?_) ht
    obtain ⟨n, -, hv⟩ := onScreen_accept hv
    exact addCueChecked_accepted (ofHolderOrManagement_accept hv).2
  | cueRemove h x e =>
    refine takeRequest_stepped (fun u v c f hr hv => ?_) ht
    obtain ⟨n, -, hv⟩ := onScreen_accept hv
    exact removeCue_accepted (ofHolderOrManagement_accept hv).2
  | cueClear h x =>
    refine takeRequest_stepped (fun u v c f hr hv => ?_) ht
    obtain ⟨n, -, hv⟩ := onScreen_accept hv
    exact clearCueLists_accepted (ofHolderOrManagement_accept hv).2
  | cueQuery h x p =>
    refine takeRequest_stepped (fun u v c f hr hv => ?_) ht
    obtain ⟨n, -, hv⟩ := onScreen_accept hv
    exact accepted_self hv
  | lineSet h x l command =>
    refine takeRequest_stepped (fun u v c f hr hv => ?_) ht
    obtain ⟨n, -, hv⟩ := onScreen_accept hv
    obtain ⟨l, -, hv⟩ := onLine_accept (ofHolderOrManagement_accept hv).2
    exact accepted_of_eq (.lineSet n l u) hv
  | lineEvacSet h x l setting =>
    refine takeRequest_stepped (fun u v c f hr hv => ?_) ht
    obtain ⟨n, -, hv⟩ := onScreen_accept hv
    obtain ⟨l, -, hv⟩ := onLine_accept hv
    exact setLineEvac_accepted hv
  | lineQuery h x =>
    refine takeRequest_stepped (fun u v c f hr hv => ?_) ht
    obtain ⟨n, -, hv⟩ := onScreen_accept hv
    exact accepted_self hv
  | tone h x target action gain =>
    refine takeRequest_stepped (fun u v c f hr hv => ?_) ht
    obtain ⟨n, -, hv⟩ := onScreen_accept hv
    exact actTone_accepted hv
  | measure h x target =>
    refine takeRequest_stepped (fun u v c f hr hv => ?_) ht
    obtain ⟨n, -, hv⟩ := onScreen_accept hv
    obtain ⟨t, hread, hv⟩ := onTarget_accept hv
    exact beginMeasure_accepted hread hv
  | abort h x =>
    refine takeRequest_stepped (fun u v c f hr hv => ?_) ht
    obtain ⟨n, -, hv⟩ := onScreen_accept hv
    exact actAbort_accepted hv
  | micSet h value => exact takeRequest_stepped (fun u v c f hr hv => actMicSet_accepted hv) ht
  | calibrationQuery h x => exact takeRequest_stepped (fun u v c f hr hv => actCalibrationQuery_accepted hv) ht
  | subscribe h kinds screens => exact takeRequest_stepped (fun u v c f hr hv => actSubscribe_accepted hv) ht
  | portStatus h => exact takeRequest_stepped (fun u v c f hr hv => accepted_self hv) ht
  | markSet h value => exact takeRequest_stepped (fun u v c f hr hv => accepted_of_eq (.markSet _ u) hv) ht
  | markQuery h => exact takeRequest_stepped (fun u v c f hr hv => accepted_self hv) ht
  | restart h => exact takeRequest_stepped (fun u v c f hr hv => accepted_self hv) ht

/-- A property that the ports do not matter to is kept by every step when every move keeps it. -/
theorem exec_keeps {P : State → Prop} {i : Instr} {s t : State} (hports : ∀ u p, P u → P { u with ports := p })
    (hmove : ∀ u v, P u → Moves i u v → P v) (hs : P s) (ht : exec i s = .next t) : P t := by
  obtain ⟨u, v, ⟨⟨p, rfl⟩, -⟩, moved, ⟨⟨q, rfl⟩, -⟩⟩ := exec_stepped ht
  rcases moved with rfl | moved
  · exact hports _ _ (hports _ _ hs)
  · exact hports _ _ (hmove _ _ (hports _ _ hs) moved)

/-- A law that reads neither the ports nor the queue of commands is kept by every step when every move keeps it. -/
theorem step_keeps {P : State → Prop} {s t : State} (hports : ∀ u p, P u → P { u with ports := p })
    (hpending : ∀ u l, P u → P { u with pending := l }) (hmove : ∀ i u v, P u → Moves i u v → P v) (hs : P s)
    (ht : step s = .next t) : P t := by
  unfold step at ht
  split at ht
  · injection ht with ht
    exact ht ▸ hs
  · exact exec_keeps hports (hmove _) (hpending _ _ hs) ht

end Sys2Proof.Machine
end

section
/-! What the shared operations leave of the plant: the output map, the delays, pages and lines, the sense records, the
configurations and the cue lists (`PlantKept`), and with them the lanes and the delay store (`ShowOnly`). The laws on
these things are kept wherever nothing of the plant changes. -/

namespace Sys2Proof.Machine

/-! ### The relations -/

/-- Two outputs agree on their place, tuning delay, pages, sense record, thresholds and drive enable, and their delay lines
are equally long. -/
structure Output.Alike (x y : Output) : Prop where
  place : y.place = x.place
  delay : y.delay = x.delay
  line : y.line.length = x.line.length
  pages : y.pages = x.pages
  sense : y.sense = x.sense
  thresholds : y.thresholds = x.thresholds
  driveOn : y.driveOn = x.driveOn

/-- The plant is left as it is. -/
structure PlantKept (s t : State) : Prop where
  outputs : ∀ o, (s.outputs.get o).Alike (t.outputs.get o)
  config : ∀ n, (t.screens.get n).config = (s.screens.get n).config
  lists : ∀ n, (t.cues.get n).timeList = (s.cues.get n).timeList ∧ (t.cues.get n).eventList = (s.cues.get n).eventList
  pool : ∀ e, (t.pool.get e).map (fun c => { c with state := none }) =
    (s.pool.get e).map fun c => { c with state := none }

/-- The plant and the delay store are left as they are. -/
structure StoreKept (s t : State) : Prop extends PlantKept s t where
  badPages : t.badPages = s.badPages
  selftest : t.selftest = s.selftest

/-- The plant, the lanes and the delay store are left as they are. -/
structure ShowOnly (s t : State) : Prop extends PlantKept s t where
  lanes : t.lanes = s.lanes
  badPages : t.badPages = s.badPages
  selftest : t.selftest = s.selftest

theorem Output.Alike.refl (x : Output) : x.Alike x := ⟨rfl, rfl, rfl, rfl, rfl, rfl, rfl⟩

theorem Output.Alike.trans {x y z : Output} (h : x.Alike y) (h' : y.Alike z) : x.Alike z :=
  ⟨h'.place.trans h.place, h'.delay.trans h.delay, h'.line.trans h.line, h'.pages.trans h.pages,
    h'.sense.trans h.sense, h'.thresholds.trans h.thresholds, h'.driveOn.trans h.driveOn⟩

theorem PlantKept.refl (s : State) : PlantKept s s :=
  ⟨fun _ => .refl _, fun _ => rfl, fun _ => ⟨rfl, rfl⟩, fun _ => rfl⟩

theorem PlantKept.trans {s t u : State} (h : PlantKept s t) (h' : PlantKept t u) : PlantKept s u :=
  ⟨fun o => (h.outputs o).trans (h'.outputs o), fun n => (h'.config n).trans (h.config n),
    fun n => ⟨(h'.lists n).1.trans (h.lists n).1, (h'.lists n).2.trans (h.lists n).2⟩,
    fun e => (h'.pool e).trans (h.pool e)⟩

theorem PlantKept.overScreens {f : Fin 12 → State → State} (h : ∀ n t, PlantKept t (f n t)) (s : State) :
    PlantKept s (overScreens f s) :=
  overScreens_induct (P := PlantKept s) (.refl s) fun n t ht => ht.trans (h n t)

theorem StoreKept.refl (s : State) : StoreKept s s := ⟨.refl s, rfl, rfl⟩

theorem StoreKept.trans {s t u : State} (h : StoreKept s t) (h' : StoreKept t u) : StoreKept s u :=
  ⟨h.toPlantKept.trans h'.toPlantKept, h'.badPages.trans h.badPages, h'.selftest.trans h.selftest⟩

theorem ShowOnly.storeKept {s t : State} (h : ShowOnly s t) : StoreKept s t := ⟨h.toPlantKept, h.badPages, h.selftest⟩

theorem ShowOnly.refl (s : State) : ShowOnly s s := ⟨.refl s, rfl, rfl, rfl⟩

theorem ShowOnly.trans {s t u : State} (h : ShowOnly s t) (h' : ShowOnly t u) : ShowOnly s u :=
  ⟨h.toPlantKept.trans h'.toPlantKept, h'.lanes.trans h.lanes, h'.badPages.trans h.badPages,
    h'.selftest.trans h.selftest⟩

theorem ShowOnly.overScreens {f : Fin 12 → State → State} (h : ∀ n t, ShowOnly t (f n t)) (s : State) :
    ShowOnly s (overScreens f s) :=
  overScreens_induct (P := ShowOnly s) (.refl s) fun n t ht => ht.trans (h n t)

theorem ShowOnly.overList {α : Type} {f : α → State → State} (h : ∀ x t, ShowOnly t (f x t)) (l : List α) (s : State) :
    ShowOnly s (overList f l s) :=
  overList_induct (P := ShowOnly s) (.refl s) fun x _ t ht => ht.trans (h x t)

/-! ### Where they come from -/

theorem MeasuredOnly.alike {s t : State} (h : MeasuredOnly s t) (o : Fin 192) :
    (s.outputs.get o).Alike (t.outputs.get o) := by
  rw [h o]
  exact ⟨rfl, rfl, rfl, rfl, rfl, rfl, rfl⟩

theorem PlantKept.of_outputs {s t : State} (ho : ∀ o, (s.outputs.get o).Alike (t.outputs.get o))
    (hs : t.screens = s.screens) (hc : t.cues = s.cues) (hp : t.pool = s.pool) : PlantKept s t :=
  ⟨ho, fun n => by rw [hs], fun n => by rw [hc]; exact ⟨rfl, rfl⟩, fun e => by rw [hp]⟩

theorem PlantKept.of_fields {s t : State} (ho : t.outputs = s.outputs) (hs : t.screens = s.screens)
    (hc : t.cues = s.cues) (hp : t.pool = s.pool) : PlantKept s t :=
  .of_outputs (fun o => by rw [ho]; exact .refl _) hs hc hp

theorem StoreKept.of_fields {s t : State} (ho : t.outputs = s.outputs) (hs : t.screens = s.screens)
    (hc : t.cues = s.cues) (hp : t.pool = s.pool) (hb : t.badPages = s.badPages) (ht : t.selftest = s.selftest) :
    StoreKept s t := ⟨.of_fields ho hs hc hp, hb, ht⟩

/-- A step that leaves the plant, the lanes and the store field for field. -/
theorem ShowOnly.of_fields {s t : State} (ho : t.outputs = s.outputs) (hs : t.screens = s.screens)
    (hc : t.cues = s.cues) (hp : t.pool = s.pool) (hl : t.lanes = s.lanes) (hb : t.badPages = s.badPages)
    (ht : t.selftest = s.selftest) : ShowOnly s t := ⟨.of_fields ho hs hc hp, hl, hb, ht⟩

theorem ToneOnly.showOnly {s t : State} (h : ToneOnly s t) (hs : t.screens = s.screens) (hc : t.cues = s.cues)
    (hp : t.pool = s.pool) (hl : t.lanes = s.lanes) (hb : t.badPages = s.badPages) (ht : t.selftest = s.selftest) :
    ShowOnly s t := ⟨.of_outputs h.measuredOnly.alike hs hc hp, hl, hb, ht⟩

theorem CueKept.showOnly {s t : State} (h : CueKept s t) : ShowOnly s t := by
  obtain ⟨b, c, e, q, p, rfl⟩ := h.frame
  exact ⟨⟨fun o => .refl _, fun n => by rw [h.screens n], h.lists, h.pool⟩, rfl, rfl, rfl⟩

/-- Screens may change in all but their configurations. -/
theorem ShowOnly.of_config {s : State} {c : Tab Screen 12} (h : ∀ n, (c.get n).config = (s.screens.get n).config) :
    ShowOnly s { s with screens := c } :=
  ⟨⟨fun _ => .refl _, h, fun _ => ⟨rfl, rfl⟩, fun _ => rfl⟩, rfl, rfl, rfl⟩

theorem notify_showOnly (m : Notice) (s : State) : ShowOnly s (s.notify m) := (notify_cueKept m s).showOnly

theorem notifyShow_showOnly (s : State) (n : Fin 12) (previous : ShowState) (cause : ShowCause)
    (station : Option (Fin 16)) (refusal : Option Reason) (showMax : Option Nat) :
    ShowOnly s (s.notifyShow n previous cause station refusal showMax) := notify_showOnly _ s

theorem modScreen_showOnly (n : Fin 12) (f : Screen → Screen) (s : State)
    (h : ∀ c, (f c).config = c.config := by intro; rfl) : ShowOnly s (s.modScreen n f) := by
  refine .of_config fun m => ?_
  rw [Tab.get_modify]
  split
  · next e => rw [← e, h]
  · rfl

/-! ### Shared operations -/

theorem clearTones_showOnly (n : Fin 12) (s : State) : ShowOnly s (clearTones n s) :=
  (clearTones_toneOnly n s).showOnly rfl rfl rfl rfl rfl rfl

theorem setTones_showOnly (l : List (Fin 192)) (b : Bool) (s : State) : ShowOnly s (setTones l b s) :=
  (setTones_toneOnly l b s).showOnly rfl rfl rfl rfl rfl rfl

theorem abortMeasurement_showOnly (c : AbortCause) (s : State) : ShowOnly s (abortMeasurement c s) := by
  have tones := abortMeasurement_toneOnly c s
  obtain ⟨o, x, p, h⟩ := abortMeasurement_frame c s
  rw [h] at tones ⊢
  exact tones.showOnly rfl rfl rfl rfl rfl rfl

theorem abortOn_showOnly (n : Fin 12) (c : AbortCause) (s : State) : ShowOnly s (abortOn n c s) := by
  unfold abortOn
  split
  · exact abortMeasurement_showOnly c s
  · exact .refl s

theorem recompute_showOnly (c : PowerCause) (s : State) : ShowOnly s (recompute c s) := by
  have tones := recompute_toneOnly c s
  obtain ⟨g, o, x, p, h⟩ := recompute_frame c s
  rw [h] at tones ⊢
  exact tones.showOnly rfl rfl rfl rfl rfl rfl

theorem renumber_config (s : State) (n : Fin 12) :
    ((renumber s).screens.get n).config = (s.screens.get n).config := by
  simp only [renumber, Tab.get_map]
  split <;> rfl

theorem takeStamp_showOnly (n : Fin 12) (s : State) : ShowOnly s (takeStamp n s) := by
  have counted : ShowOnly s (if s.stampCounter = Config.maxStamp then renumber s else s) := by
    split
    · exact ⟨⟨fun _ => .refl _, renumber_config s, fun _ => ⟨rfl, rfl⟩, fun _ => rfl⟩, rfl, rfl, rfl⟩
    · exact .refl s
  unfold takeStamp
  dsimp only
  generalize (if s.stampCounter = Config.maxStamp then renumber s else s) = t at counted
  have next : ShowOnly t { t with stampCounter := t.stampCounter + 1 } := .of_fields rfl rfl rfl rfl rfl rfl rfl
  exact counted.trans (next.trans (modScreen_showOnly n _ _))

theorem candidate_showOnly (n : Fin 12) (st : ShowState) (hd : Option (Fin 16)) (s : State) :
    ShowOnly s (candidate n st hd s) :=
  (takeStamp_showOnly n s).trans (modScreen_showOnly n _ _)

theorem enterDemand_suspended {n : Fin 12} {st : ShowState} {hd : Option (Fin 16)} {s : State}
    (h : ((candidate n st hd s).allot.get n).status = .suspended) : enterDemand n st hd s = none := if_pos h

theorem enterDemand_fits {n : Fin 12} {st : ShowState} {hd : Option (Fin 16)} {s : State}
    (h : ((candidate n st hd s).allot.get n).status ≠ .suspended) :
    enterDemand n st hd s = some (recompute .demand (candidate n st hd s)) := if_neg h

theorem enterDemand_eq {n : Fin 12} {st : ShowState} {hd : Option (Fin 16)} {s t : State}
    (h : enterDemand n st hd s = some t) :
    ((candidate n st hd s).allot.get n).status ≠ .suspended ∧ t = recompute .demand (candidate n st hd s) := by
  by_cases full : ((candidate n st hd s).allot.get n).status = .suspended
  · rw [enterDemand_suspended full] at h
    cases h
  · rw [enterDemand_fits full] at h
    exact ⟨full, (Option.some.inj h).symm⟩

theorem enterDemand_showOnly {n : Fin 12} {st : ShowState} {hd : Option (Fin 16)} {s t : State}
    (h : enterDemand n st hd s = some t) : ShowOnly s t := by
  rw [(enterDemand_eq h).2]
  exact (candidate_showOnly n st hd s).trans (recompute_showOnly _ _)

theorem clearBase_showOnly (n : Fin 12) (s : State) : ShowOnly s (clearBase n s) :=
  .of_fields rfl rfl rfl rfl rfl rfl rfl

theorem clearLoudTrim_showOnly (n : Fin 12) (s : State) : ShowOnly s (clearLoudTrim n s) :=
  .of_fields rfl rfl rfl rfl rfl rfl rfl

theorem withdrawAlarms_showOnly (n : Fin 12) (s : State) : ShowOnly s (withdrawAlarms n s) := by
  obtain ⟨a, p, h⟩ := withdrawAlarms_frame n s
  rw [h]
  exact .of_fields rfl rfl rfl rfl rfl rfl rfl

theorem formLines_showOnly (s : State) : ShowOnly s (formLines s) := .of_fields rfl rfl rfl rfl rfl rfl rfl

theorem modLine_showOnly (n : Fin 12) (l : Fin 8) (f : BoothLine → BoothLine) (s : State) :
    ShowOnly s (s.modLine n l f) := (modLine_cueKept n l f s).showOnly

theorem notifyChanges_showOnly (before : Tab Screen 12) (cause : ShowCause) (s : State) :
    ShowOnly s (notifyChanges before cause s) := by
  refine .overScreens (fun n t => ?_) s
  split
  · exact .refl t
  · exact notify_showOnly _ t

/-! ### The operations of the Screen Controller -/

theorem moveShow_showOnly (n : Fin 12) (ev : CueEvent) (station : Fin 16) (f : Screen → Screen) (s : State)
    (h : ∀ c, (f c).config = c.config := by intro; rfl) : ShowOnly s (moveShow n ev station f s) := by
  refine .trans ?_ (fireState_cueKept n ev _).showOnly
  exact .trans (modScreen_showOnly n f s h) (notifyShow_showOnly ..)

theorem heldBy_showOnly (n : Fin 12) (station : Fin 16) (s : State) : ShowOnly s (heldBy n station s) := by
  refine .trans ?_ (notifyShow_showOnly ..)
  exact .trans (modScreen_showOnly n _ s) (clearBase_showOnly n _)

theorem release_showOnly (n : Fin 12) (station : Fin 16) (s : State) : ShowOnly s (release n station s) := by
  unfold release
  dsimp only
  have freed : ShowOnly s (if (s.screens.get n).state = .calibrating then clearTones n (abortOn n .freed s) else s) := by
    split
    · exact (abortOn_showOnly n _ s).trans (clearTones_showOnly n _)
    · exact .refl s
  have settled : ∀ u, ShowOnly u (if (s.screens.get n).state = .calibrating then recompute .demand u else u) := by
    intro u
    split
    · exact recompute_showOnly _ u
    · exact .refl u
  refine .trans ?_ (notifyShow_showOnly ..)
  refine .trans ?_ (settled _)
  refine .trans ?_ (withdrawAlarms_showOnly n _)
  refine .trans ?_ (clearBase_showOnly n _)
  exact freed.trans (modScreen_showOnly n _ _)

theorem startEffects_showOnly (n : Fin 12) (s : State) : ShowOnly s (startEffects n s) := by
  refine .trans ?_ (startCues_cueKept n _).showOnly
  exact .of_fields rfl rfl rfl rfl rfl rfl rfl

theorem judgeStart_inr {n : Fin 12} {s t : State} (h : judgeStart n s = .inr t) :
    s.startRefusal n = none ∧ ((candidate n .show (s.screens.get n).holder s).allot.get n).status ≠ .suspended ∧
      t = startEffects n (recompute .demand (candidate n .show (s.screens.get n).holder s)) := by
  unfold judgeStart at h
  split at h
  · cases h
  · split at h
    · cases h
    · next ht =>
      obtain ⟨fits, eq⟩ := enterDemand_eq ht
      rw [eq] at h
      exact ⟨‹_›, fits, (Sum.inr.inj h).symm⟩

theorem judgeStart_showOnly {n : Fin 12} {s t : State} (h : judgeStart n s = .inr t) : ShowOnly s t := by
  obtain ⟨-, -, eq⟩ := judgeStart_inr h
  rw [eq]
  refine .trans ?_ (startEffects_showOnly n _)
  exact (candidate_showOnly n _ _ s).trans (recompute_showOnly _ _)

theorem autoStart_showOnly (n : Fin 12) (s : State) : ShowOnly s (autoStart n s) := by
  unfold autoStart
  split
  · exact notifyShow_showOnly ..
  · exact (judgeStart_showOnly ‹_›).trans (notifyShow_showOnly ..)

theorem takeLevel_config (w : SideWord) (c : Screen) : (Screen.takeLevel w c).config = c.config := rfl

theorem screenTakesWord_showOnly (n : Fin 12) (w : SideWord) (s : State) : ShowOnly s (screenTakesWord n w s) := by
  unfold screenTakesWord
  dsimp only
  refine .trans ?_ (modScreen_showOnly n _ _)
  split
  · exact autoStart_showOnly n s
  · exact .refl s

theorem completeFade_showOnly (n : Fin 12) (s : State) : ShowOnly s (completeFade n s) := by
  unfold completeFade
  dsimp only
  refine .trans ?_ (notifyShow_showOnly ..)
  refine .trans ?_ (fireState_cueKept n .endDone _).showOnly
  refine .trans ?_ (clearLoudTrim_showOnly n _)
  refine .trans ?_ (recompute_showOnly _ _)
  refine .trans ?_ (clearBase_showOnly n _)
  exact modScreen_showOnly n _ s

theorem finishFade_showOnly (n : Fin 12) (s : State) : ShowOnly s (finishFade n s) := by
  unfold finishFade
  split
  · exact completeFade_showOnly n s
  · exact .refl s

theorem evacuate_config (c : Screen) : c.evacuate.config = c.config := by
  unfold Screen.evacuate
  split <;> rfl

theorem assertEvac_showOnly (s : State) : ShowOnly s (assertEvac s) := by
  unfold assertEvac
  dsimp only
  have moved : ShowOnly s { s with evac := true, screens := s.screens.map Screen.evacuate } :=
    ⟨⟨fun _ => .refl _, fun n => by simp [evacuate_config], fun _ => ⟨rfl, rfl⟩, fun _ => rfl⟩, rfl, rfl, rfl⟩
  have tones : ∀ u, ShowOnly u (clearCalibrationTones u) := fun u => .overScreens (fun n t => by
    split
    · exact clearTones_showOnly n t
    · exact .refl t) u
  refine .trans ?_ (recompute_showOnly _ _)
  refine .trans ?_ (tones _)
  refine .trans ?_ (abortMeasurement_showOnly _ _)
  refine .trans ?_ (notifyChanges_showOnly _ _ _)
  refine .trans ?_ (notify_showOnly _ _)
  exact moved.trans (formLines_showOnly _)

theorem returnScreen_showOnly (n : Fin 12) (s : State) : ShowOnly s (returnScreen n s) := by
  unfold returnScreen
  split
  · exact (takeStamp_showOnly n s).trans (modScreen_showOnly n _ _)
  · exact .refl s

theorem releaseEvac_showOnly (s : State) : ShowOnly s (releaseEvac s) := by
  unfold releaseEvac
  dsimp only
  have moved : ShowOnly s { s with evac := false } := .of_fields rfl rfl rfl rfl rfl rfl rfl
  refine .trans ?_ (recompute_showOnly _ _)
  refine .trans ?_ (notifyChanges_showOnly _ _ _)
  refine .trans ?_ (notify_showOnly _ _)
  refine .trans ?_ (formLines_showOnly _)
  exact moved.trans (.overScreens returnScreen_showOnly _)

theorem disableOutput_alike (x : Output) : x.Alike x.disable :=
  ⟨rfl, rfl, by simp [Output.disable, Output.clearPath], rfl, rfl, rfl, rfl⟩

theorem clearPaths_showOnly (n : Fin 12) (s : State) : ShowOnly s (clearPaths n s) := by
  refine ⟨.of_outputs (fun o => ?_) rfl rfl rfl, rfl, rfl, rfl⟩
  simp only [clearPaths, Tab.get_map]
  split
  · exact disableOutput_alike _
  · exact .refl _

theorem rearmAll_showOnly (n : Fin 12) (s : State) : ShowOnly s (rearmAll n s) :=
  .overList (fun e t => (rearm_cueKept e t).showOnly) _ s

/-- The fields that a DISABLE rewrites at its end hold nothing of the plant but configurations and lists, which stay. -/
theorem clearScreen_showOnly (n : Fin 12) (s : State) : ShowOnly s (clearScreen n s) := by
  have first : ShowOnly s (linesOff n (rearmAll n (clearPaths n (clearBase n s)))) :=
    (((clearBase_showOnly n s).trans (clearPaths_showOnly n _)).trans (rearmAll_showOnly n _)).trans
      (.of_fields rfl rfl rfl rfl rfl rfl rfl)
  refine first.trans ⟨⟨fun _ => .refl _, fun m => ?_, fun m => ?_, fun _ => rfl⟩, rfl, rfl, rfl⟩
  · simp only [clearScreen, Tab.get_modify]
    split
    · next e => subst e; rfl
    · rfl
  · simp only [clearScreen, Tab.get_modify]
    split
    · next e => subst e; exact ⟨rfl, rfl⟩
    · exact ⟨rfl, rfl⟩

theorem disabled_showOnly (n : Fin 12) (station : Fin 16) (s : State) : ShowOnly s (disabled n station s) :=
  .trans ((withdrawAlarms_showOnly n s).trans (clearScreen_showOnly n _)) (notifyShow_showOnly ..)

theorem setBudget_showOnly (b : Budget) (s : State) : ShowOnly s (setBudget b s) := by
  have stored : ShowOnly s { s with budget := b } := .of_fields rfl rfl rfl rfl rfl rfl rfl
  unfold setBudget
  dsimp only
  split
  · exact stored
  · exact stored.trans (recompute_showOnly _ _)

/-! ### Measurements, blocks and intervals -/

theorem endPhase_showOnly (s : State) : ShowOnly s (endPhase s) := by
  have tones := endPhase_toneOnly s
  obtain ⟨x, o, h⟩ := endPhase_frame s
  rw [h] at tones ⊢
  exact tones.showOnly rfl rfl rfl rfl rfl rfl

theorem endMeasurement_showOnly (s : State) : ShowOnly s (endMeasurement s) := by
  have measured := endMeasurement_measuredOnly s
  obtain ⟨x, o, m, p, h⟩ := endMeasurement_frame s
  rw [h] at measured ⊢
  exact ⟨.of_outputs measured.alike rfl rfl rfl, rfl, rfl, rfl⟩

theorem stepMeasurement_showOnly (s : State) : ShowOnly s (stepMeasurement s) := by
  have measured := stepMeasurement_measuredOnly s
  obtain ⟨x, o, m, p, h⟩ := stepMeasurement_frame s
  rw [h] at measured ⊢
  exact ⟨.of_outputs measured.alike rfl rfl rfl, rfl, rfl, rfl⟩

theorem ensureClosed_showOnly (s : State) : ShowOnly s (ensureClosed s) := by
  have outputs := (ensureClosed_keeps s).2
  obtain ⟨o, e, r, m, x, b, h⟩ := ensureClosed_frame s
  rw [h] at outputs ⊢
  refine ⟨.of_outputs (fun i => ?_) rfl rfl rfl, rfl, rfl, rfl⟩
  rw [outputs i]
  exact ⟨rfl, rfl, rfl, rfl, rfl, rfl, rfl⟩

theorem judgeScreen_showOnly (slips : Fin 14 → Nat) (n : Fin 12) (s : State) : ShowOnly s (judgeScreen slips n s) :=
  .trans (t := s.modAlarms n (Alarms.judge (s.gather slips n))) (.of_fields rfl rfl rfl rfl rfl rfl rfl)
    (judgeScreen_cueKept slips n s).showOnly

theorem stepBases_showOnly (s : State) : ShowOnly s (overScreens stepBase s) := by
  obtain ⟨a, h⟩ := stepBases_frame s
  rw [h]
  exact .of_fields rfl rfl rfl rfl rfl rfl rfl

/-- An interval event clears the interval slips of the lanes, and otherwise touches no plant, lane or store. -/
theorem takeInterval_showOnly (s : State) : ShowOnly (clearSlips s) (takeInterval s) := by
  have closed : ShowOnly s (closedInterval s) :=
    (ensureClosed_showOnly s).trans (.of_fields rfl rfl rfl rfl rfl rfl rfl)
  have cleared : ShowOnly (clearSlips s) (clearSlips (closedInterval s)) :=
    ⟨⟨closed.outputs, closed.config, closed.lists, closed.pool⟩, by simp only [clearSlips, closed.lanes],
      closed.badPages, closed.selftest⟩
  have based : ShowOnly (clearSlips s) (overScreens stepBase (judgeInterval s)) :=
    (cleared.trans (.overScreens (judgeScreen_showOnly _) _)).trans (stepBases_showOnly _)
  rw [takeInterval_eq]
  split
  · exact based
  · exact based.trans (stepMeasurement_showOnly _)

theorem clearSlips_storeKept (s : State) : StoreKept s (clearSlips s) := .of_fields rfl rfl rfl rfl rfl rfl

theorem takeInterval_storeKept (s : State) : StoreKept s (takeInterval s) :=
  (clearSlips_storeKept s).trans (takeInterval_showOnly s).storeKept

/-! ### The house block -/

theorem houseFade_config (c : Screen) : c.houseFade.config = c.config := by
  unfold Screen.houseFade Screen.fadeAdvance
  dsimp only
  split
  · rfl
  · split
    · split <;> rfl
    · rfl

theorem advanceFades_showOnly (s : State) : ShowOnly s (advanceFades s) :=
  .of_config fun n => by rw [Tab.get_map, houseFade_config]

theorem tickLines_showOnly (s : State) : ShowOnly s (tickLines s) := .of_fields rfl rfl rfl rfl rfl rfl rfl

theorem passReset_showOnly (k : Nat) (s : State) : ShowOnly s (passReset k s) := by
  obtain ⟨z, h⟩ := passReset_frame k s
  rw [h]
  exact .of_fields rfl rfl rfl rfl rfl rfl rfl

/-- The fades and the lines of a house block, and the noise since a reset, before the self-test. -/
def beforeSelftest (inp : BlockInputs) (s : State) : State := tickLines (advanceFades (passReset inp.sinceReset s))

theorem beforeSelftest_showOnly (inp : BlockInputs) (s : State) : ShowOnly s (beforeSelftest inp s) :=
  ((passReset_showOnly _ s).trans (advanceFades_showOnly _)).trans (tickLines_showOnly _)

theorem atHouseBlock_eq (inp : BlockInputs) (s : State) :
    atHouseBlock inp s = ensureClosed (tickSelftest inp.fault0 inp.fault1 (beforeSelftest inp s)) := rfl

theorem tickSelftest_plantKept (a b : Bool) (s : State) : PlantKept s (tickSelftest a b s) := by
  obtain ⟨t, g, p, h⟩ := tickSelftest_frame a b s
  rw [h]
  exact .of_fields rfl rfl rfl rfl

theorem atHouseBlock_plantKept (inp : BlockInputs) (s : State) : PlantKept s (atHouseBlock inp s) :=
  ((beforeSelftest_showOnly inp s).toPlantKept.trans (tickSelftest_plantKept _ _ _)).trans
    (ensureClosed_showOnly _).toPlantKept

theorem countBlock_storeKept (s : State) : StoreKept s (countBlock s) := by
  unfold countBlock
  split
  · exact .refl s
  · split
    · exact takeInterval_storeKept s
    · exact .of_fields rfl rfl rfl rfl rfl rfl

theorem runSound_storeKept (periods : Nat) (flags : Tab Bool 192) (old s : State) :
    StoreKept s (runSound periods flags old s) := by
  have alike : ∀ o, (s.outputs.get o).Alike ((runSound periods flags old s).outputs.get o) := fun o => by
    obtain ⟨same, -, line⟩ := (runSound_keeps periods flags old s).2 o _ _ rfl rfl
    exact ⟨(congrArg Output.place same :), (congrArg Output.delay same :), line, (congrArg Output.pages same :),
      (congrArg Output.sense same :), (congrArg Output.thresholds same :), (congrArg Output.driveOn same :)⟩
  obtain ⟨a, l, z, o, k, m, r, w, h⟩ := runSound_frame periods flags old s
  exact ⟨.of_outputs alike (by rw [h]) (by rw [h]) (by rw [h]), by rw [h], by rw [h]⟩

theorem readSupply_showOnly (a b : Bool) (s : State) : ShowOnly s (readSupply a b s) := by
  unfold readSupply
  dsimp only
  have read : ShowOnly s { s with budget := { s.budget with supply1 := a, supply2 := b, supply := supplyOf a b } } :=
    .of_fields rfl rfl rfl rfl rfl rfl rfl
  split
  · exact read
  · exact (read.trans (recompute_showOnly _ _)).trans (notify_showOnly _ _)

/-- What follows the sound in a house block: the supply lines, the fades that complete, and the marks. -/
theorem houseBlock_showOnly (inp : BlockInputs) (s : State) : ShowOnly (afterSound inp s) (houseBlock inp s) := by
  unfold houseBlock
  have ended := (readSupply_showOnly inp.supply1 inp.supply2 (afterSound inp s)).trans
    (.overScreens finishFade_showOnly _)
  generalize overScreens finishFade (readSupply inp.supply1 inp.supply2 (afterSound inp s)) = u at ended
  exact ended.trans (.of_fields rfl rfl rfl rfl rfl rfl rfl)

/-- What follows the self-test of a house block. -/
theorem houseBlock_storeKept (inp : BlockInputs) (s : State) : StoreKept (atHouseBlock inp s) (houseBlock inp s) :=
  ((countBlock_storeKept _).trans (runSound_storeKept _ _ _ _)).trans (houseBlock_showOnly inp s).storeKept

theorem houseBlock_plantKept (inp : BlockInputs) (s : State) : PlantKept s (houseBlock inp s) :=
  (atHouseBlock_plantKept inp s).trans (houseBlock_storeKept inp s).toPlantKept

/-! ### Lanes -/

theorem modLane_storeKept (l : Fin 14) (f : Lane → Lane) (s : State) : StoreKept s (s.modLane l f) :=
  .of_fields rfl rfl rfl rfl rfl rfl

theorem laneAbort_showOnly (l : Fin 14) (s : State) : ShowOnly s (laneAbort l s) := by
  unfold laneAbort
  split
  · exact abortMeasurement_showOnly _ s
  · exact .refl s

theorem routerTakesWord_showOnly (n : Fin 12) (w : SideWord) (s : State) : ShowOnly s (routerTakesWord n w s) := by
  unfold routerTakesWord
  split
  · exact .of_fields rfl rfl rfl rfl rfl rfl rfl
  · exact .refl s

end Sys2Proof.Machine
end

section
/-! The commands that reach neither the lanes, the plant nor the delay store, and the laws of the lanes (02 R30 to R37),
move by move. -/

namespace Sys2Proof.Machine

/-! ### The commands that move only shows -/

/-- The commands whose moves reach the lanes, the plant or the delay store. -/
def movesPlant : Instr → Bool
  | .powerOnReset _ => true
  | .houseBlock _ => true
  | .referenceLost _ => true
  | .intervalEvent => true
  | .selftestCompletion _ _ => true
  | .activityLost _ => true
  | .activitySeen _ => true
  | .blockFound _ _ _ _ => true
  | .laneBlockEvent _ _ _ _ => true
  | .automaticStart _ => true
  | .returnBlockEvent _ _ => true
  | .frameSent _ _ _ => true
  | .screenSet _ _ _ => true
  | .laneSet _ _ _ => true
  | .outputMap _ _ _ => true
  | .tuneLoad _ _ _ _ _ _ => true
  | .senseSet _ _ _ => true
  | .exclude _ _ => true
  | .includeOutput _ _ => true
  | .cueAdd _ _ _ _ _ _ => true
  | .cueRemove _ _ _ => true
  | .cueClear _ _ => true
  | _ => false

theorem fadeAdvance_config (c : Screen) : c.fadeAdvance.config = c.config := by
  unfold Screen.fadeAdvance
  dsimp only
  split <;> rfl

theorem modOutput_alike {s : State} {o : Fin 192} {f : Output → Output} (h : ∀ x : Output, x.Alike (f x)) (p : Fin 192) :
    (s.outputs.get p).Alike ((s.modOutput o f).outputs.get p) := by
  rw [modOutput_outputs, Tab.get_modify]
  split
  · next e => exact e ▸ h _
  · exact .refl _

theorem changeClock_showOnly (new old : Clock) (s : State) : ShowOnly s (changeClock new old s) :=
  .of_fields rfl rfl rfl rfl rfl rfl rfl

/-- Every other move leaves the lanes, the plant and the delay store. -/
theorem Moves.showOnly {i : Instr} {s t : State} (hm : Moves i s t) (hi : movesPlant i = false) : ShowOnly s t := by
  cases hm with
  | evacAsserted => exact assertEvac_showOnly s
  | evacReleased => exact releaseEvac_showOnly s
  | referenceRegained => exact changeClock_showOnly _ _ s
  | fadeStep => exact modScreen_showOnly _ _ s fadeAdvance_config
  | fadeCompletion => exact completeFade_showOnly _ s
  | pulseEnd => exact modLine_showOnly _ _ _ s
  | phaseEnd =>
    exact ((ensureClosed_showOnly s).trans (endPhase_showOnly _)).trans (.of_fields rfl rfl rfl rfl rfl rfl rfl)
  | result =>
    exact ((ensureClosed_showOnly s).trans (endMeasurement_showOnly _)).trans (.of_fields rfl rfl rfl rfl rfl rfl rfl)
  | enable => exact .trans (modScreen_showOnly _ _ s) (notifyShow_showOnly ..)
  | disable => exact disabled_showOnly _ _ s
  | hold => exact heldBy_showOnly _ _ s
  | calibrate _ _ _ _ entered =>
    refine .trans ?_ (notifyShow_showOnly ..)
    exact ((enterDemand_showOnly entered).trans (clearBase_showOnly _ _)).trans (withdrawAlarms_showOnly _ _)
  | release => exact release_showOnly _ _ s
  | takeOver => exact .trans (modScreen_showOnly _ _ s) (notifyShow_showOnly ..)
  | start _ judged => exact (judgeStart_showOnly judged).trans (notifyShow_showOnly ..)
  | pause => exact moveShow_showOnly _ _ _ _ s
  | resume => exact moveShow_showOnly _ _ _ _ s
  | endShow => exact moveShow_showOnly _ _ _ _ s
  | level => exact modScreen_showOnly _ _ s
  | layoutSet => exact .of_fields rfl rfl rfl rfl rfl rfl rfl
  | pagingSet => exact .of_fields rfl rfl rfl rfl rfl rfl rfl
  | trim =>
    exact ⟨.of_outputs (modOutput_alike fun x => ⟨rfl, rfl, rfl, rfl, rfl, rfl, rfl⟩) rfl rfl rfl, rfl, rfl, rfl⟩
  | offsetSet => exact .of_fields rfl rfl rfl rfl rfl rfl rfl
  | alarmSet => exact .of_fields rfl rfl rfl rfl rfl rfl rfl
  | budgetSet => exact setBudget_showOnly _ s
  | lineSet => exact modLine_showOnly _ _ _ s
  | lineEvacSet => exact modLine_showOnly _ _ _ s
  | tone => exact (setTones_showOnly _ _ s).trans (.of_fields rfl rfl rfl rfl rfl rfl rfl)
  | measure => exact (clearTones_showOnly _ s).trans (.of_fields rfl rfl rfl rfl rfl rfl rfl)
  | abort => exact abortMeasurement_showOnly _ s
  | micSet => exact .of_fields rfl rfl rfl rfl rfl rfl rfl
  | markSet => exact .of_fields rfl rfl rfl rfl rfl rfl rfl
  | _ => cases hi

/-! ### What an event leaves of its lane -/

/-- A lane that enters HUNT or NOSIGNAL (02 R30, R32, R34, R35). -/
def Lane.unlock (sync : Sync) (x : Lane) : Lane :=
  { x with sync, alignment := none, good := none, bad := none, skew := none, store := [], accepted := none }

/-- A lane with the word of a block accepted, where its lane accepts words (02 R35, R40). -/
def Lane.take (l : Fin 14) (side : List Byte) (x : Lane) : Lane :=
  if (laneScreen l).isSome then { x with accepted := some (readSideWord side) } else x

theorem dropWord_showOnly (l : Fin 14) (s : State) :
    ShowOnly (s.modLane l fun x => { x with accepted := none }) (dropWord l s) := by
  unfold dropWord
  dsimp only
  split
  · next n _ _ _ =>
    exact modScreen_showOnly n (fun c => { c with lastRolling := none }) (s.modLane l fun x => { x with accepted := none })
  · exact .refl _

theorem Tab.modify_modify {α : Type} {n : Nat} (t : Tab α n) (i : Fin n) (f g : α → α) :
    (t.modify i f).modify i g = t.modify i fun x => g (f x) :=
  Tab.ext_get fun j => by
    simp only [Tab.get_modify]
    split <;> rfl

theorem notifyLane_showOnly (s : State) (l : Fin 14) (previous : Sync) (cause : LaneCause) :
    ShowOnly s (s.notifyLane l previous cause) := notify_showOnly _ s

theorem unlockLane_showOnly (l : Fin 14) (sync : Sync) (cause : LaneCause) (s : State) :
    ShowOnly (s.modLane l (Lane.unlock sync)) (unlockLane l sync cause s) := by
  unfold unlockLane
  dsimp only
  refine .trans ?_ (laneAbort_showOnly l _)
  refine .trans ?_ (notifyLane_showOnly ..)
  refine .trans ?_ (dropWord_showOnly l _)
  refine .of_fields rfl rfl rfl rfl ?_ rfl rfl
  rw [modLane_lanes, modLane_lanes, Tab.modify_modify]
  rfl

theorem loseActivity_showOnly {l : Fin 14} {s : State} (h : (s.lanes.get l).sync ≠ .nosignal) :
    ShowOnly (s.modLane l (Lane.unlock .nosignal)) (loseActivity l s) := by
  unfold loseActivity
  rw [if_neg h]
  exact unlockLane_showOnly ..

theorem seeActivity_showOnly {l : Fin 14} {s : State} (h : (s.lanes.get l).sync = .nosignal) :
    ShowOnly (s.modLane l fun x => { x with sync := .hunt }) (seeActivity l s) := by
  unfold seeActivity
  rw [if_pos h]
  exact .trans (notifyLane_showOnly ..) (laneAbort_showOnly l _)

theorem takeWord_showOnly (n : Fin 12) (w : SideWord) (s : State) : ShowOnly s (takeWord n w s) :=
  (takeWord_cueKept n w s).showOnly

theorem Tab.modify_eq_self {α : Type} {n : Nat} (t : Tab α n) (i : Fin n) {f : α → α} (h : f (t.get i) = t.get i) :
    t.modify i f = t :=
  Tab.ext_get fun j => by
    rw [Tab.get_modify]
    split
    · next e => rw [h, e]
    · rfl

theorem acceptWord_showOnly (l : Fin 14) (side : List Byte) (last : Bool) (s : State) :
    ShowOnly (s.modLane l (Lane.take l side)) (acceptWord l side last s) := by
  unfold acceptWord
  split
  · next e =>
    exact .of_fields rfl rfl rfl rfl (Tab.modify_eq_self _ _ (by simp [Lane.take, e])).symm rfl rfl
  · next n e =>
    have taken : Lane.take l side = fun x => { x with accepted := some (readSideWord side) } := by
      funext x
      simp [Lane.take, e]
    rw [taken]
    dsimp only
    split
    · refine .trans ?_ (screenTakesWord_showOnly ..)
      exact (routerTakesWord_showOnly ..).trans (takeWord_showOnly ..)
    · refine .trans ?_ (takeWord_showOnly ..)
      exact (screenTakesWord_showOnly ..).trans (routerTakesWord_showOnly ..)

/-! ### The law of one lane -/

theorem Lane.unlock_lawful {sync : Sync} (h : sync = .nosignal ∨ sync = .hunt) (p : Bool) (x : Lane) :
    (x.unlock sync).lawful p := by
  rcases h with rfl | rfl <;> exact ⟨rfl, rfl, rfl, rfl, rfl, rfl⟩

/-- The interval slips, the mask and the counts of a lane do not matter to its law. -/
theorem Lane.lawful_of {p : Bool} {x y : Lane} (hx : x.lawful p) (sync : y.sync = x.sync)
    (alignment : y.alignment = x.alignment) (good : y.good = x.good) (bad : y.bad = x.bad) (store : y.store = x.store)
    (skew : y.skew = x.skew) (accepted : y.accepted = x.accepted) : y.lawful p := by
  unfold Lane.lawful at *
  rw [sync, alignment, good, bad, store, skew, accepted]
  exact hx

theorem Lane.write_length (a : Audio) {x : Lane} (h : x.store.length ≤ 4) : (x.write a).store.length ≤ 4 := by
  unfold Lane.write Config.storeBlocks
  split
  · simp only [List.length_append, List.length_drop, List.length_singleton]
    omega
  · simp only [List.length_append, List.length_singleton]
    omega

/-- A write changes the store and the slips alone. -/
theorem Lane.write_frame (a : Audio) (x : Lane) :
    ∃ b c k d, x.write a = { x with store := b, slips := c, intervalSlips := k, lastSlip := d } := by
  unfold Lane.write Lane.slip
  split
  · exact ⟨_, _, _, _, rfl⟩
  · exact ⟨_, x.slips, x.intervalSlips, x.lastSlip, rfl⟩

theorem Lane.read_lawful {p : Bool} {x : Lane} (h : x.lawful p) : x.read.2.lawful p := by
  unfold Lane.read
  split
  · next delivers =>
    split
    · next b rest e =>
      unfold Lane.lawful at *
      cases hs : x.sync with
      | nosignal => simp [Lane.delivering, hs] at delivers
      | hunt => simp [Lane.delivering, hs] at delivers
      | probation => simp [Lane.delivering, hs] at delivers
      | locked =>
        simp only [hs] at h ⊢
        obtain ⟨ha, hg, hb, hk, hl, hw⟩ := h
        rw [e, List.length_cons] at hl
        exact ⟨ha, hg, hb, hk, by omega, hw⟩
      | flywheel =>
        simp only [hs] at h ⊢
        obtain ⟨ha, hg, hb, hk, hl, hw⟩ := h
        rw [e, List.length_cons] at hl
        exact ⟨ha, hg, hb, hk, by omega, hw⟩
    · exact Lane.lawful_of h rfl rfl rfl rfl rfl rfl rfl
  · exact h

/-! ### The lane law -/

/-- A law holds of a state: a wrapper that keeps Lean from unfolding the law, and with it the state. -/
structure Holds (P : State → Prop) (s : State) : Prop where
  holds : P s

theorem laneLaw_of_lanes {s t : State} (h : Holds LaneLaw s) (hl : t.lanes = s.lanes) : Holds LaneLaw t :=
  ⟨fun l => by rw [hl]; exact h.holds l⟩

theorem laneLaw_modLane {s : State} {l : Fin 14} {f : Lane → Lane} (h : Holds LaneLaw s)
    (hf : (s.lanes.get l).lawful (laneScreen l).isSome → (f (s.lanes.get l)).lawful (laneScreen l).isSome) :
    Holds LaneLaw (s.modLane l f) := ⟨fun k => by
  rw [modLane_lanes, Tab.get_modify]
  split
  · next e => exact e ▸ hf (h.holds l)
  · exact h.holds k⟩

theorem unlockLane_laneLaw {s : State} (h : Holds LaneLaw s) (l : Fin 14) {sync : Sync}
    (hs : sync = .nosignal ∨ sync = .hunt) (cause : LaneCause) : Holds LaneLaw (unlockLane l sync cause s) :=
  laneLaw_of_lanes (laneLaw_modLane h fun _ => Lane.unlock_lawful hs _ _) (unlockLane_showOnly ..).lanes

theorem loseActivity_laneLaw {s : State} (h : Holds LaneLaw s) (l : Fin 14) : Holds LaneLaw (loseActivity l s) := by
  unfold loseActivity
  split
  · exact h
  · exact unlockLane_laneLaw h l (.inl rfl) _

theorem seeActivity_laneLaw {s : State} (h : Holds LaneLaw s) (l : Fin 14) : Holds LaneLaw (seeActivity l s) := by
  by_cases hs : (s.lanes.get l).sync = .nosignal
  · refine laneLaw_of_lanes (laneLaw_modLane h fun hx => ?_) (seeActivity_showOnly hs).lanes
    unfold Lane.lawful at hx
    rw [hs] at hx
    exact hx
  · unfold seeActivity
    rwa [if_neg hs]

theorem findBlock_laneLaw {s : State} (h : Holds LaneLaw s) (l : Fin 14) (b : LaneBlock) (p k : Nat) :
    Holds LaneLaw (findBlock l b p k s) := by
  unfold findBlock
  split
  · next hb =>
    refine laneLaw_of_lanes (laneLaw_modLane h fun hx => ?_) (notifyLane_showOnly ..).lanes
    unfold Lane.lawful at hx
    rw [hb.1] at hx
    obtain ⟨-, -, bad, -, store, word⟩ := hx
    exact ⟨rfl, .inl rfl, bad, rfl, store, word⟩
  · exact h

/-- What a lane holds that is LOCKED but for its word, and holds no word where it accepts none. -/
structure Lane.Locks (l : Fin 14) (x : Lane) : Prop where
  sync : x.sync = .locked
  alignment : x.alignment.isSome = true
  good : x.good = none
  bad : x.bad = none
  skew : x.skew.isSome = true
  store : x.store.length ≤ 4
  word : laneScreen l = none → x.accepted = none

theorem Lane.Locks.lawful {l : Fin 14} {x : Lane} (h : x.Locks l) (side : List Byte) :
    (x.take l side).lawful (laneScreen l).isSome := by
  cases hl : laneScreen l with
  | none =>
    simp only [Lane.take, hl, Lane.lawful, h.sync, Option.isSome_none, Bool.false_eq_true, if_false]
    exact ⟨h.alignment, h.good, h.bad, h.skew, h.store, by rw [h.word hl]; rfl⟩
  | some n =>
    simp only [Lane.take, hl, Lane.lawful, h.sync, Option.isSome_some, if_true]
    exact ⟨h.alignment, h.good, h.bad, h.skew, h.store, trivial⟩

/-- A word accepted on a lane that its block leaves LOCKED. -/
theorem acceptWord_laneLaw {s t : State} {l : Fin 14} {f : Lane → Lane} (h : Holds LaneLaw s)
    (locks : (f (s.lanes.get l)).Locks l) (ht : t.lanes = s.lanes.modify l f) (side : List Byte) (last : Bool) :
    Holds LaneLaw (acceptWord l side last t) := by
  refine laneLaw_of_lanes (s := s.modLane l fun x => Lane.take l side (f x)) (laneLaw_modLane h fun _ => locks.lawful side) ?_
  rw [(acceptWord_showOnly l side last t).lanes, modLane_lanes, ht]
  exact Tab.modify_modify s.lanes l f (Lane.take l side)

theorem probationBlock_laneLaw {s : State} (h : Holds LaneLaw s) {l : Fin 14} (hs : (s.lanes.get l).sync = .probation)
    (b : LaneBlock) (k : Nat) (last : Bool) : Holds LaneLaw (probationBlock l b k last s) := by
  have hx := h.holds l
  simp only [Lane.lawful, hs] at hx
  obtain ⟨alignment, good, bad, skew, store, word⟩ := hx
  unfold probationBlock
  split
  · split
    · exact acceptWord_laneLaw
        (f := fun x => { x.prime b.frames with sync := .locked, good := none, skew := some (skewOf k) }) h
        ⟨rfl, alignment, rfl, bad, rfl, by simp [Lane.prime], fun _ => word⟩ rfl _ _
    · next few =>
      refine laneLaw_modLane h fun _ => ?_
      have one : (s.lanes.get l).good = some 1 := good.resolve_right fun two => few (by rw [two]; decide)
      simp only [Lane.lawful, hs]
      exact ⟨alignment, .inr (by rw [one]; rfl), bad, rfl, store, word⟩
  · exact unlockLane_laneLaw h l (.inr rfl) _

theorem accepted_of_isSome_none {l : Fin 14} {w : Option SideWord} (h : w.isSome = (laneScreen l).isSome)
    (hl : laneScreen l = none) : w = none := by
  rw [hl] at h
  exact Option.isSome_eq_false_iff.1 h |> Option.isNone_iff_eq_none.1

theorem lockedBlock_laneLaw {s : State} (h : Holds LaneLaw s) {l : Fin 14} (hs : (s.lanes.get l).sync = .locked)
    (b : LaneBlock) (k : Nat) (last : Bool) : Holds LaneLaw (lockedBlock l b k last s) := by
  have hx := h.holds l
  simp only [Lane.lawful, hs] at hx
  obtain ⟨alignment, good, bad, skew, store, word⟩ := hx
  have written := fun a => Lane.write_length a store
  unfold lockedBlock
  split
  · obtain ⟨c, d, e, f, hw⟩ := Lane.write_frame b.frames (s.lanes.get l)
    have bound := written b.frames
    refine acceptWord_laneLaw (f := fun x => { x.write b.frames with skew := some (skewOf k) }) h ?_ rfl _ _
    rw [hw] at bound ⊢
    exact ⟨hs, alignment, good, bad, rfl, bound, accepted_of_isSome_none word⟩
  · obtain ⟨c, d, e, f, hw⟩ := Lane.write_frame silentAudio (s.lanes.get l)
    have bound := written silentAudio
    refine laneLaw_of_lanes (laneLaw_modLane h fun _ => ?_) (notifyLane_showOnly ..).lanes
    rw [hw] at bound ⊢
    exact ⟨alignment, good, ⟨1, rfl, by omega, by omega⟩, skew, bound, word⟩

theorem flywheelBlock_laneLaw {s : State} (h : Holds LaneLaw s) {l : Fin 14} (hs : (s.lanes.get l).sync = .flywheel)
    (b : LaneBlock) (k : Nat) (last : Bool) : Holds LaneLaw (flywheelBlock l b k last s) := by
  have hx := h.holds l
  simp only [Lane.lawful, hs] at hx
  obtain ⟨alignment, good, ⟨j, bad, low, high⟩, skew, store, word⟩ := hx
  have written := fun a => Lane.write_length a store
  unfold flywheelBlock
  dsimp only
  split
  · obtain ⟨c, d, e, f, hw⟩ := Lane.write_frame b.frames (s.lanes.get l)
    have bound := written b.frames
    refine acceptWord_laneLaw
      (f := fun x => { x.write b.frames with sync := .locked, bad := none, skew := some (skewOf k) }) h ?_ rfl _ _
    rw [hw] at bound ⊢
    exact ⟨rfl, alignment, good, rfl, rfl, bound, accepted_of_isSome_none word⟩
  · split
    · next few =>
      obtain ⟨c, d, e, f, hw⟩ := Lane.write_frame silentAudio (s.lanes.get l)
      have bound := written silentAudio
      refine laneLaw_modLane h fun _ => ?_
      rw [hw] at bound ⊢
      rw [bad] at few ⊢
      simp only [Option.getD_some] at few
      simp only [Lane.lawful, hs]
      exact ⟨alignment, good, ⟨j + 1, rfl, by omega, by omega⟩, skew, bound, word⟩
    · exact unlockLane_laneLaw (laneLaw_modLane h fun hx => Lane.lawful_of hx rfl rfl rfl rfl rfl rfl rfl) l (.inr rfl) _

theorem laneBlock_laneLaw {s : State} (h : Holds LaneLaw s) (l : Fin 14) (b : LaneBlock) (k : Nat) (last : Bool) :
    Holds LaneLaw (laneBlock l b k last s) := by
  unfold laneBlock
  split
  · exact h
  · exact h
  · exact probationBlock_laneLaw h ‹_› b k last
  · exact lockedBlock_laneLaw h ‹_› b k last
  · exact flywheelBlock_laneLaw h ‹_› b k last

theorem clearSlips_laneLaw {s : State} (h : Holds LaneLaw s) : Holds LaneLaw (clearSlips s) := ⟨fun l => by
  simp only [clearSlips, Tab.get_map]
  exact Lane.lawful_of (h.holds l) rfl rfl rfl rfl rfl rfl rfl⟩

theorem houseBlock_laneLaw {s : State} (h : Holds LaneLaw s) (inp : BlockInputs) : Holds LaneLaw (houseBlock inp s) :=
  ⟨fun l => by
    rw [(houseBlock_showOnly inp s).lanes, afterSound, (runSound_keeps _ _ _ _).1 l, (beforeSound_keeps inp s).1 l]
    refine Lane.read_lawful ?_
    split
    · exact Lane.lawful_of (h.holds l) rfl rfl rfl rfl rfl rfl rfl
    · exact h.holds l⟩

theorem powerOn_laneLaw (lines : SiteLines) : Holds LaneLaw (State.powerOn lines) := ⟨fun l => by
  simp only [State.powerOn, Tab.get_fill]
  exact ⟨rfl, rfl, rfl, rfl, rfl, rfl⟩⟩

theorem SenseFrame.lanes {s t : State} (h : SenseFrame s t) : t.lanes = s.lanes := by
  obtain ⟨y, x, p, rfl⟩ := h
  rfl

theorem reallocate_lanes (cs : List Change) (s : State) : (reallocate cs s).lanes = s.lanes := by
  obtain ⟨o, h⟩ := reallocate_frame cs s
  rw [h]

theorem recompute_lanes (c : PowerCause) (s : State) : (recompute c s).lanes = s.lanes :=
  (recompute_showOnly c s).lanes

theorem applyConfig_lanes (n : Fin 12) (c : ScreenConfig) (s : State) : (applyConfig n c s).lanes = s.lanes := by
  have moved : (if c.lipSync = (s.screens.get n).config.lipSync then s
      else reallocate (s.lipChanges n c.lipSync) s).lanes = s.lanes := by
    split
    · rfl
    · exact reallocate_lanes _ s
  unfold applyConfig
  dsimp only
  split
  · rw [recompute_lanes]
    exact moved
  · exact moved

theorem returnBlock_lanes (l : Fin 12) (r : Option Report) (s : State) : (returnBlock l r s).lanes = s.lanes := by
  obtain ⟨x, h⟩ := returnBlock_frame l r s
  exact h.lanes

theorem excluded_senseFrame (o : Fin 192) (station : Fin 16) (s : State) : SenseFrame s (excluded o station s) :=
  (modOutput_senseFrame ..).trans (healthChanged_frame ..)

theorem included_senseFrame (o : Fin 192) (station : Fin 16) (s : State) : SenseFrame s (included o station s) :=
  (modOutput_senseFrame ..).trans (healthChanged_frame ..)

theorem clearCues_lanes (n : Fin 12) (s : State) : (clearCues n s).lanes = s.lanes := by
  unfold clearCues
  rfl

/-- The commands whose moves reach the lanes. -/
def movesLanes : Instr → Bool
  | .powerOnReset _ => true
  | .houseBlock _ => true
  | .referenceLost _ => true
  | .intervalEvent => true
  | .activityLost _ => true
  | .activitySeen _ => true
  | .blockFound _ _ _ _ => true
  | .laneBlockEvent _ _ _ _ => true
  | .automaticStart _ => true
  | .frameSent _ _ _ => true
  | .laneSet _ _ _ => true
  | _ => false

/-- Every other move leaves the lanes. -/
theorem Moves.lanes {i : Instr} {s t : State} (hm : Moves i s t) (hi : movesLanes i = false) : t.lanes = s.lanes := by
  by_cases shows : movesPlant i = false
  · exact (hm.showOnly shows).lanes
  cases hm with
  | selftest => rfl
  | returnBlock l aux => exact returnBlock_lanes _ _ s
  | screenSet c => exact applyConfig_lanes _ c s
  | outputMap => rfl
  | outputMoved => exact reallocate_lanes _ s
  | tuneLoad => rfl
  | tuneMoved => exact reallocate_lanes _ s
  | senseSet => rfl
  | exclude o => exact (excluded_senseFrame ..).lanes
  | includeOutput o => exact (included_senseFrame ..).lanes
  | cueAdd => rfl
  | cueRemove => rfl
  | cueClear => exact clearCues_lanes _ s
  | powerOn | houseBlock | referenceLost | interval | activityLost | activitySeen | blockFound | laneBlock
  | automaticStart | restart | laneSet => cases hi
  | _ => exact absurd rfl shows

theorem Moves.laneLaw {i : Instr} {s t : State} (hm : Moves i s t) (h : Holds LaneLaw s) : Holds LaneLaw t := by
  by_cases hi : movesLanes i = false
  · exact laneLaw_of_lanes h (hm.lanes hi)
  cases hm with
  | powerOn lines => exact laneLaw_of_lanes (powerOn_laneLaw lines) rfl
  | houseBlock inp => exact houseBlock_laneLaw h inp
  | referenceLost inp => exact laneLaw_of_lanes (houseBlock_laneLaw h inp) (changeClock_showOnly ..).lanes
  | interval => exact laneLaw_of_lanes (clearSlips_laneLaw h) (takeInterval_showOnly s).lanes
  | activityLost l => exact loseActivity_laneLaw h l
  | activitySeen l => exact seeActivity_laneLaw h l
  | blockFound l b p k => exact findBlock_laneLaw h l b p k
  | laneBlock l b k x => exact laneBlock_laneLaw h l b k x
  | automaticStart e => exact laneBlock_laneLaw h _ _ _ _
  | restart port a b => exact laneLaw_of_lanes (powerOn_laneLaw ⟨s.evac, a, b⟩) rfl
  | laneSet l => exact laneLaw_modLane h fun hx => Lane.lawful_of hx rfl rfl rfl rfl rfl rfl rfl
  | _ => exact absurd rfl hi

/-- Settles O60, move by move: the lane of an event meets its law in the sync state it enters. -/
theorem laneLawKept : Obligations.LaneLawKept := fun _ _ h ht =>
  (step_keeps (P := Holds LaneLaw) (fun _ _ h => ⟨h.holds⟩) (fun _ _ h => ⟨h.holds⟩) (fun _ _ _ h hm => hm.laneLaw h)
    ⟨h⟩ ht).holds

end Sys2Proof.Machine
end

section
/-! The law of the sense records (07 R129 to R132): the thresholds stand in order, an output that is FAILED SHORT is not
driven, and a record counts reports while it has a candidate. -/

namespace Sys2Proof.Machine

/-! ### What a lane event is made of -/

/-- A relation that composes and that holds of the parts of which every lane event is made: a change of the lane, notices,
the abort of a measurement, a lost rolling field, a route's layout and what the cues do. -/
structure LaneSteps (R : State → State → Prop) : Prop where
  refl : ∀ s, R s s
  trans : ∀ {s t u}, R s t → R t u → R s u
  lane : ∀ l f (s : State), R s (s.modLane l f)
  notify : ∀ m (s : State), R s (s.notify m)
  abort : ∀ s, R s (abortMeasurement .lane s)
  roll : ∀ n (s : State), R s (s.modScreen n fun c => { c with lastRolling := none })
  route : ∀ n f (s : State), R s (s.modRoute n f)
  cues : ∀ n w s, R s (takeWord n w s)

section
variable {R : State → State → Prop} (hR : LaneSteps R)
include hR

theorem laneAbort_related (l : Fin 14) (s : State) : R s (laneAbort l s) := by
  unfold laneAbort
  split
  · exact hR.abort s
  · exact hR.refl s

theorem dropWord_related (l : Fin 14) (s : State) : R s (dropWord l s) := by
  unfold dropWord
  dsimp only
  refine hR.trans ?_ (hR.lane l _ _)
  split
  · exact hR.roll _ s
  · exact hR.refl s

theorem unlockLane_related (l : Fin 14) (sync : Sync) (cause : LaneCause) (s : State) :
    R s (unlockLane l sync cause s) := by
  unfold unlockLane
  dsimp only
  refine hR.trans ?_ (laneAbort_related hR l _)
  refine hR.trans ?_ (hR.notify _ _)
  exact hR.trans (hR.lane l _ s) (dropWord_related hR l _)

theorem loseActivity_related (l : Fin 14) (s : State) : R s (loseActivity l s) := by
  unfold loseActivity
  split
  · exact hR.refl s
  · exact unlockLane_related hR ..

theorem seeActivity_related (l : Fin 14) (s : State) : R s (seeActivity l s) := by
  unfold seeActivity
  split
  · refine hR.trans ?_ (laneAbort_related hR l _)
    exact hR.trans (hR.lane l _ s) (hR.notify _ _)
  · exact hR.refl s

theorem findBlock_related (l : Fin 14) (b : LaneBlock) (p k : Nat) (s : State) : R s (findBlock l b p k s) := by
  unfold findBlock
  split
  · exact hR.trans (hR.lane l _ s) (hR.notify _ _)
  · exact hR.refl s

theorem routerTakesWord_related (n : Fin 12) (w : SideWord) (s : State) : R s (routerTakesWord n w s) := by
  unfold routerTakesWord
  split
  · exact hR.route n _ s
  · exact hR.refl s

variable (hw : ∀ n w s, R s (screenTakesWord n w s))
include hw

theorem acceptWord_related (l : Fin 14) (side : List Byte) (last : Bool) (s : State) : R s (acceptWord l side last s) := by
  unfold acceptWord
  split
  · exact hR.refl s
  · next n _ =>
    have others : ∀ t, R t (takeWord n (readSideWord side) (routerTakesWord n (readSideWord side) t)) := fun t =>
      hR.trans (routerTakesWord_related hR n _ t) (hR.cues n _ _)
    dsimp only
    split
    · exact hR.trans (hR.trans (hR.lane l _ s) (others _)) (hw _ _ _)
    · exact hR.trans (hR.trans (hR.lane l _ s) (hw _ _ _)) (others _)

/-- A block event is made of these parts and of a screen taking its word. -/
theorem laneBlock_related (l : Fin 14) (b : LaneBlock) (k : Nat) (last : Bool) (s : State) :
    R s (laneBlock l b k last s) := by
  unfold laneBlock
  split
  · exact hR.refl s
  · exact hR.refl s
  · unfold probationBlock
    dsimp only
    split
    · split
      · refine hR.trans ?_ (acceptWord_related hR hw ..)
        exact hR.trans (hR.lane l _ s) (hR.notify _ _)
      · exact hR.lane l _ s
    · exact unlockLane_related hR ..
  · unfold lockedBlock
    split
    · exact hR.trans (hR.lane l _ s) (acceptWord_related hR hw ..)
    · exact hR.trans (hR.lane l _ s) (hR.notify _ _)
  · unfold flywheelBlock
    dsimp only
    split
    · refine hR.trans ?_ (acceptWord_related hR hw ..)
      exact hR.trans (hR.lane l _ s) (hR.notify _ _)
    · split
      · exact hR.lane l _ s
      · exact hR.trans (hR.lane l _ s) (unlockLane_related hR ..)
end

/-! ### Lane events leave the plant and the delay store -/

theorem storeKept_laneSteps : LaneSteps StoreKept where
  refl := .refl
  trans := .trans
  lane := modLane_storeKept
  notify m s := (notify_showOnly m s).storeKept
  abort s := (abortMeasurement_showOnly _ s).storeKept
  roll n s := (modScreen_showOnly n _ s).storeKept
  route _ _ _ := .of_fields rfl rfl rfl rfl rfl rfl
  cues n w s := (takeWord_cueKept n w s).showOnly.storeKept

theorem laneBlock_storeKept (l : Fin 14) (b : LaneBlock) (k : Nat) (last : Bool) (s : State) :
    StoreKept s (laneBlock l b k last s) :=
  laneBlock_related storeKept_laneSteps (fun n w s => (screenTakesWord_showOnly n w s).storeKept) l b k last s

theorem loseActivity_storeKept (l : Fin 14) (s : State) : StoreKept s (loseActivity l s) :=
  loseActivity_related storeKept_laneSteps l s

theorem seeActivity_storeKept (l : Fin 14) (s : State) : StoreKept s (seeActivity l s) :=
  seeActivity_related storeKept_laneSteps l s

theorem findBlock_storeKept (l : Fin 14) (b : LaneBlock) (p k : Nat) (s : State) : StoreKept s (findBlock l b p k s) :=
  findBlock_related storeKept_laneSteps l b p k s

theorem completeSelftest_plantKept (a b : Bool) (s : State) : PlantKept s (completeSelftest a b s) :=
  .of_fields rfl rfl rfl rfl

theorem changeClock_plantKept (new old : Clock) (s : State) : PlantKept s (changeClock new old s) :=
  (changeClock_showOnly new old s).toPlantKept

/-! ### A change of health -/

theorem abortTarget_showOnly (o : Fin 192) (c : AbortCause) (s : State) : ShowOnly s (abortTarget o c s) := by
  unfold abortTarget
  split
  · split
    · exact abortMeasurement_showOnly c s
    · exact .refl s
  · exact .refl s

theorem healthChanged_showOnly (o : Fin 192) (previous : Health) (cause : HealthCause) (z : Option Nat)
    (station : Option (Fin 16)) (s : State) : ShowOnly s (healthChanged o previous cause z station s) := by
  unfold healthChanged
  dsimp only
  split
  · exact .refl s
  · split
    · exact (notify_showOnly _ s).trans (abortTarget_showOnly ..)
    · split
      · exact (notify_showOnly _ s).trans (abortTarget_showOnly ..)
      · exact notify_showOnly _ s

/-! ### The law of one output -/

/-- The law of the thresholds, the drive enable and the health record of one output. -/
def Output.senseLawful (x : Output) : Prop :=
  x.thresholds.shortMax < x.thresholds.lowDrift ∧ x.thresholds.lowDrift ≤ x.thresholds.highDrift ∧
    x.thresholds.highDrift < x.thresholds.openMin ∧ x.thresholds.openMin ≤ 4095 ∧
    ((x.sense.health = .failedShort ∨ x.sense.settled = some .short) → x.driveOn = false) ∧
    (x.sense.candidate = none ↔ x.sense.count = 0) ∧ x.sense.count ≤ 3

theorem senseLaw_iff (s : State) : SenseLaw s ↔ ∀ o, (s.outputs.get o).senseLawful := Iff.rfl

/-- Two outputs agree on all that the law of the sense records reads. -/
def Output.SensedAlike (x y : Output) : Prop := y.sense = x.sense ∧ y.thresholds = x.thresholds ∧ y.driveOn = x.driveOn

theorem Output.Alike.sensedAlike {x y : Output} (h : x.Alike y) : x.SensedAlike y := ⟨h.sense, h.thresholds, h.driveOn⟩

theorem Output.SensedAlike.lawful {x y : Output} (h : x.SensedAlike y) (hx : x.senseLawful) : y.senseLawful := by
  obtain ⟨sense, thresholds, driveOn⟩ := h
  unfold Output.senseLawful at *
  rw [sense, thresholds, driveOn]
  exact hx

theorem settledState_short (c : LineClass) : c.settledState = .failedShort ↔ c = .short := by
  cases c <;> decide

/-- The record of an output that is driven, after a report: it is FAILED SHORT or settled SHORT only where SHORT settles
just now, and it counts reports while it has a candidate. -/
theorem debounce_lawful (r : HealthRecord) (c : LineClass) (hh : r.health ≠ .failedShort)
    (hs : r.settled ≠ some .short) (hc : r.candidate = none ↔ r.count = 0) (hn : r.count ≤ 3) :
    ((debounce r c).health = .failedShort ∨ (debounce r c).settled = some .short →
      (debounce r c).settles = true ∧ c = .short) ∧
    ((debounce r c).candidate = none ↔ (debounce r c).count = 0) ∧ (debounce r c).count ≤ 3 := by
  have settle : ((Debounced.settle c).health = .failedShort ∨ (Debounced.settle c).settled = some .short →
      (Debounced.settle c).settles = true ∧ c = .short) ∧
      ((Debounced.settle c).candidate = none ↔ (Debounced.settle c).count = 0) ∧ (Debounced.settle c).count ≤ 3 := by
    simp [Debounced.settle, settledState_short]
  have counts : ((countReport r c).health = .failedShort ∨ (countReport r c).settled = some .short →
      (countReport r c).settles = true ∧ c = .short) ∧
      ((countReport r c).candidate = none ↔ (countReport r c).count = 0) ∧ (countReport r c).count ≤ 3 := by
    unfold countReport
    split
    · split
      · exact settle
      · simp [hh, hs]; omega
    · simp [hh, hs]
  have meets : ((meetReport r c).health = .failedShort ∨ (meetReport r c).settled = some .short →
      (meetReport r c).settles = true ∧ c = .short) ∧
      ((meetReport r c).candidate = none ↔ (meetReport r c).count = 0) ∧ (meetReport r c).count ≤ 3 := by
    unfold meetReport
    split
    · simp [hh, hs, hc, hn]
    · simp [hs]
  have same : ((Debounced.same r).health = .failedShort ∨ (Debounced.same r).settled = some .short →
      (Debounced.same r).settles = true ∧ c = .short) ∧
      ((Debounced.same r).candidate = none ↔ (Debounced.same r).count = 0) ∧ (Debounced.same r).count ≤ 3 := by
    simp [Debounced.same, hh, hs, hc, hn]
  unfold debounce
  split
  · exact counts
  · exact meets
  · exact meets
  · exact meets
  · exact meets
  · split
    · next hr =>
      have notShort : c ≠ .short := fun e => hs (hr.trans (congrArg some e))
      simp [settledState_short, notShort, hs]
    · exact counts
  · exact same
  · exact same
  · exact same

theorem countFault_fields (c : LineClass) (f : LastFault) (r : HealthRecord) :
    (r.countFault c f).health = r.health ∧ (r.countFault c f).settled = r.settled ∧
      (r.countFault c f).candidate = r.candidate ∧ (r.countFault c f).count = r.count := by
  cases c <;> exact ⟨rfl, rfl, rfl, rfl⟩

theorem HealthRecord.take_fields (z : Nat) (c : LineClass) (f : LastFault) (r : HealthRecord) :
    (r.take z c f).health = (debounce r c).health ∧ (r.take z c f).settled = (debounce r c).settled ∧
      (r.take z c f).candidate = (debounce r c).candidate ∧ (r.take z c f).count = (debounce r c).count := by
  unfold HealthRecord.take
  dsimp only
  split
  · exact countFault_fields c f _
  · exact ⟨rfl, rfl, rfl, rfl⟩

theorem take_senseLawful {x : Output} (h : x.senseLawful) (driven : x.driveOn = true) (z : Nat) (c : LineClass)
    (f : LastFault) :
    ({ x with
        sense := x.sense.take z c f,
        driveOn := if (debounce x.sense c).settles && decide (c = .short) then false else x.driveOn } :
      Output).senseLawful := by
  obtain ⟨h1, h2, h3, h4, hdrive, hcount, hthree⟩ := h
  have notShort : ¬(x.sense.health = .failedShort ∨ x.sense.settled = some .short) := fun hx => by
    rw [hdrive hx] at driven
    cases driven
  obtain ⟨short, counts, three⟩ := debounce_lawful x.sense c (fun e => notShort (.inl e)) (fun e => notShort (.inr e))
    hcount hthree
  obtain ⟨eh, es, ec, en⟩ := x.sense.take_fields z c f
  refine ⟨h1, h2, h3, h4, fun hx => ?_, ?_, ?_⟩
  · rw [eh, es] at hx
    obtain ⟨settles, rfl⟩ := short hx
    rw [settles]
    rfl
  · rw [ec, en]
    exact counts
  · rw [en]
    exact three

theorem restate_senseLawful {x : Output} (h : x.senseLawful) {health : Health} (hh : health ≠ .failedShort) (d : Bool) :
    ({ x with sense := x.sense.restate health, driveOn := d } : Output).senseLawful := by
  obtain ⟨h1, h2, h3, h4, -⟩ := h
  refine ⟨h1, h2, h3, h4, fun hx => ?_, ⟨fun _ => rfl, fun _ => rfl⟩, Nat.zero_le 3⟩
  rcases hx with hx | hx
  · exact absurd hx hh
  · cases hx

theorem clampNat_bounds {lo hi : Nat} (h : lo ≤ hi) (v : Nat) : lo ≤ clampNat lo hi v ∧ clampNat lo hi v ≤ hi := by
  unfold clampNat
  split
  · exact ⟨le_refl lo, h⟩
  · split <;> omega

theorem selectNat_le {lo hi top kept : Nat} (h : lo ≤ hi) (ht : hi ≤ top) (hk : kept ≤ top) (v : Option Nat) :
    (selectNat lo hi v kept).value ≤ top := by
  cases v with
  | none => exact hk
  | some v => exact (clampNat_bounds h v).2.trans ht

theorem select_senseLawful {x : Output} (h : x.senseLawful) (sel : SenseSel) :
    ({ x with thresholds := (x.thresholds.select sel).value } : Output).senseLawful := by
  obtain ⟨h1, h2, h3, h4, rest⟩ := h
  have short : (selectNat 0 4092 sel.shortMax x.thresholds.shortMax).value ≤ 4093 :=
    selectNat_le (by omega) (by omega) (by omega) _
  have low : (selectNat 1 4093 sel.lowDrift x.thresholds.lowDrift).value ≤ 4094 :=
    selectNat_le (by omega) (by omega) (by omega) _
  have high : (selectNat 1 4094 sel.highDrift x.thresholds.highDrift).value ≤ 4094 :=
    selectNat_le (by omega) (by omega) (by omega) _
  have top : (selectNat 2 4095 sel.openMin x.thresholds.openMin).value ≤ 4095 :=
    selectNat_le (by omega) (by omega) h4 _
  refine ⟨?_, ?_, ?_, ?_, rest⟩ <;> simp only [Thresholds.select, orderThresholds] <;> omega

/-! ### The law of every output -/

theorem senseLaw_of_sensedAlike {s t : State} (h : Holds SenseLaw s)
    (ht : ∀ o, (s.outputs.get o).SensedAlike (t.outputs.get o)) : Holds SenseLaw t :=
  ⟨fun o => (ht o).lawful (h.holds o)⟩

theorem senseLaw_of_plantKept {s t : State} (h : Holds SenseLaw s) (ht : PlantKept s t) : Holds SenseLaw t :=
  senseLaw_of_sensedAlike h fun o => (ht.outputs o).sensedAlike

theorem senseLaw_modOutput {s : State} {o : Fin 192} {f : Output → Output} (h : Holds SenseLaw s)
    (hf : (s.outputs.get o).senseLawful → (f (s.outputs.get o)).senseLawful) : Holds SenseLaw (s.modOutput o f) :=
  ⟨fun p => by
    rw [modOutput_outputs, Tab.get_modify]
    split
    · exact hf (h.holds o)
    · exact h.holds p⟩

theorem takeReport_senseLaw {s : State} (h : Holds SenseLaw s) (o : Fin 192) (r : Report) :
    Holds SenseLaw (takeReport o r s) := by
  unfold takeReport
  split
  · exact h
  · next heard =>
    have driven : (s.outputs.get o).driveOn = true := by
      cases e : (s.outputs.get o).driveOn with
      | true => rfl
      | false => simp [State.ignores, e] at heard
    refine senseLaw_of_plantKept (senseLaw_modOutput h fun hx => ?_) (healthChanged_showOnly ..).toPlantKept
    exact take_senseLawful hx driven _ _ _

theorem findOutput_senseLaw {s : State} (h : Holds SenseLaw s) (o : Fin 192) : Holds SenseLaw (findOutput o s) := by
  unfold findOutput
  dsimp only
  split
  · refine senseLaw_of_plantKept (senseLaw_modOutput h fun hx => ?_) (healthChanged_showOnly ..).toPlantKept
    obtain ⟨h1, h2, h3, h4, drive, rest⟩ := hx
    exact ⟨h1, h2, h3, h4, fun hx => drive (.inr (hx.resolve_left (by simp))), rest⟩
  · exact h

theorem loseOutput_senseLaw {s : State} (h : Holds SenseLaw s) (o : Fin 192) : Holds SenseLaw (loseOutput o s) := by
  unfold loseOutput
  dsimp only
  split
  · exact h
  · refine senseLaw_of_plantKept (senseLaw_modOutput h fun hx => ?_) (healthChanged_showOnly ..).toPlantKept
    exact restate_senseLawful hx (health := .unsensed) (by decide) _

theorem overList_holds {α : Type} {P : State → Prop} {f : α → State → State} (hf : ∀ x t, Holds P t → Holds P (f x t))
    (l : List α) {s : State} (hs : Holds P s) : Holds P (overList f l s) :=
  overList_induct hs fun x _ t ht => hf x t ht

theorem returnBlock_senseLaw {s : State} (h : Holds SenseLaw s) (l : Fin 12) (r : Option Report) :
    Holds SenseLaw (returnBlock l r s) := by
  have locked : ∀ f, Holds SenseLaw (s.modReturnLane l f) := fun f => senseLaw_of_plantKept h (.of_fields rfl rfl rfl rfl)
  unfold returnBlock
  dsimp only
  split
  · split
    · exact takeReport_senseLaw (overList_holds (fun o t ht => findOutput_senseLaw ht o) _ (locked _)) _ _
    · exact locked _
  · exact locked _
  · exact takeReport_senseLaw (locked _) _ _
  · split
    · exact overList_holds (fun o t ht => loseOutput_senseLaw ht o) _ (locked _)
    · exact locked _

/-! ### The delay store changes pages and lines alone -/

/-- Nothing of an output changes but its pages and its delay line. -/
def PagesOnly (s t : State) : Prop :=
  ∀ o, t.outputs.get o = { s.outputs.get o with pages := (t.outputs.get o).pages, line := (t.outputs.get o).line }

theorem PagesOnly.refl (s : State) : PagesOnly s s := fun _ => rfl

theorem PagesOnly.trans {s t u : State} (h : PagesOnly s t) (h' : PagesOnly t u) : PagesOnly s u := fun o => by
  rw [h' o, h o]

theorem modOutput_restart_pagesOnly (o : Fin 192) (d : Nat) (g : Output → List Nat) (s : State) :
    PagesOnly s (s.modOutput o fun x => x.restart d (g x)) := fun p => by
  rw [modOutput_outputs, Tab.get_modify]
  split
  · next e => rw [e]; rfl
  · rfl

theorem reallocate_pagesOnly (cs : List Change) (s : State) : PagesOnly s (reallocate cs s) := by
  unfold reallocate
  refine overList_induct (P := PagesOnly s) ?_ fun c _ t ht => ?_
  · refine overList_induct (P := PagesOnly s) (.refl s) fun c _ t ht => ?_
    unfold shrink
    split
    · exact ht.trans (modOutput_restart_pagesOnly _ _ _ _)
    · exact ht
  · unfold grow
    split
    · exact ht.trans (modOutput_restart_pagesOnly _ _ _ _)
    · exact ht

theorem reallocate_senseLaw {s : State} (h : Holds SenseLaw s) (cs : List Change) :
    Holds SenseLaw (reallocate cs s) :=
  senseLaw_of_sensedAlike h fun o => by
    rw [reallocate_pagesOnly cs s o]
    exact ⟨rfl, rfl, rfl⟩

theorem applyConfig_senseLaw {s : State} (h : Holds SenseLaw s) (n : Fin 12) (c : ScreenConfig) :
    Holds SenseLaw (applyConfig n c s) := by
  have stored : Holds SenseLaw ((if c.lipSync = (s.screens.get n).config.lipSync then s
      else reallocate (s.lipChanges n c.lipSync) s).modScreen n fun x => { x with config := c }) := by
    split
    · exact ⟨h.holds⟩
    · exact ⟨(reallocate_senseLaw h _).holds⟩
  unfold applyConfig
  dsimp only
  split
  · exact senseLaw_of_plantKept stored (recompute_showOnly ..).toPlantKept
  · exact stored

theorem powerOn_senseLaw (lines : SiteLines) : Holds SenseLaw (State.powerOn lines) := ⟨fun o => by
  simp only [State.powerOn, Tab.get_fill]
  exact ⟨by decide, by decide, by decide, by decide, fun h => by simp [Output.reset, HealthRecord.reset] at h,
    ⟨fun _ => rfl, fun _ => rfl⟩, by decide⟩⟩

theorem clearCues_outputs (n : Fin 12) (s : State) : (clearCues n s).outputs = s.outputs := by
  unfold clearCues
  rfl

theorem Moves.senseLaw {i : Instr} {s t : State} (hm : Moves i s t) (h : Holds SenseLaw s) : Holds SenseLaw t := by
  have same : ∀ u : State, u.outputs = s.outputs → Holds SenseLaw u := fun u hu =>
    senseLaw_of_sensedAlike h fun o => by rw [hu]; exact ⟨rfl, rfl, rfl⟩
  have changed : ∀ u : State, Holds SenseLaw u → ∀ o (f : Output → Output), (∀ x : Output, x.SensedAlike (f x)) →
      Holds SenseLaw (u.modOutput o f) := fun u hu o f hf => senseLaw_modOutput hu (hf _).lawful
  by_cases hi : movesPlant i = false
  · exact senseLaw_of_plantKept h (hm.showOnly hi).toPlantKept
  cases hm with
  | powerOn lines => exact ⟨(powerOn_senseLaw lines).holds⟩
  | houseBlock inp => exact senseLaw_of_plantKept h (houseBlock_plantKept inp s)
  | referenceLost inp =>
    exact senseLaw_of_plantKept (senseLaw_of_plantKept h (houseBlock_plantKept inp s)) (changeClock_plantKept ..)
  | interval => exact senseLaw_of_plantKept h (takeInterval_storeKept s).toPlantKept
  | selftest => exact senseLaw_of_plantKept h (completeSelftest_plantKept ..)
  | activityLost l => exact senseLaw_of_plantKept h (loseActivity_storeKept l s).toPlantKept
  | activitySeen l => exact senseLaw_of_plantKept h (seeActivity_storeKept l s).toPlantKept
  | blockFound l b p k => exact senseLaw_of_plantKept h (findBlock_storeKept l b p k s).toPlantKept
  | laneBlock l b k x => exact senseLaw_of_plantKept h (laneBlock_storeKept l b k x s).toPlantKept
  | automaticStart e => exact senseLaw_of_plantKept h (laneBlock_storeKept ..).toPlantKept
  | returnBlock l aux => exact returnBlock_senseLaw h l _
  | restart port a b => exact ⟨(powerOn_senseLaw ⟨s.evac, a, b⟩).holds⟩
  | screenSet c => exact applyConfig_senseLaw h _ c
  | laneSet l => exact same _ rfl
  | outputMap => exact changed s h _ _ fun _ => ⟨rfl, rfl, rfl⟩
  | outputMoved => exact changed _ (reallocate_senseLaw h _) _ _ fun _ => ⟨rfl, rfl, rfl⟩
  | tuneLoad => exact changed s h _ _ fun _ => ⟨rfl, rfl, rfl⟩
  | tuneMoved => exact changed _ (reallocate_senseLaw h _) _ _ fun _ => ⟨rfl, rfl, rfl⟩
  | senseSet o => exact senseLaw_modOutput h fun hx => select_senseLawful hx _
  | exclude o =>
    refine senseLaw_of_plantKept (senseLaw_modOutput h fun hx => ?_) (healthChanged_showOnly ..).toPlantKept
    exact restate_senseLawful hx (by decide) _
  | includeOutput o =>
    refine senseLaw_of_plantKept (senseLaw_modOutput h fun hx => ?_) (healthChanged_showOnly ..).toPlantKept
    exact restate_senseLawful hx (by decide) _
  | cueAdd => exact same _ rfl
  | cueRemove => exact same _ rfl
  | cueClear => exact same _ (clearCues_outputs _ s)
  | _ => exact absurd rfl hi

/-- Settles O59, move by move: only a report, a request and a return lane reach the sense records, and each leaves an output
its law. -/
theorem senseLawKept : Obligations.SenseLawKept := fun _ _ h ht =>
  (step_keeps (P := Holds SenseLaw) (fun _ _ h => ⟨h.holds⟩) (fun _ _ h => ⟨h.holds⟩) (fun _ _ _ h hm => hm.senseLaw h)
    ⟨h⟩ ht).holds

end Sys2Proof.Machine
end

section
/-! The law of the cue pool and the lists (09 R151): where an entry stands, and that it stands there after every move. -/

namespace Sys2Proof.Machine

/-! ### Entries -/

theorem timeEntry_eq (s : State) (e : Fin 512) :
    s.timeEntry e = (s.pool.get e).bind fun c =>
      match c.trigger with
      | .time t => some (t, c)
      | _ => none := by
  unfold State.timeEntry
  cases s.pool.get e <;> rfl

theorem timeEntry_of_time {s : State} {e : Fin 512} {c : Cue} (hc : s.pool.get e = some c)
    (ht : c.trigger.isTime = true) : s.timeEntry e = some (s.cueTime e, c) := by
  unfold State.cueTime
  rw [timeEntry_eq, hc, Option.bind_some]
  cases h : c.trigger with
  | time t => rfl
  | state => rw [h] at ht; cases ht
  | alarm => rw [h] at ht; cases ht
  | call => rw [h] at ht; cases ht

/-- The show time of an entry is read off its trigger alone. -/
theorem cueTime_eq (s : State) (e : Fin 512) :
    s.cueTime e =
      match (s.pool.get e).map Cue.trigger with
      | some (.time t) => t
      | _ => 0 := by
  unfold State.cueTime
  rw [timeEntry_eq]
  cases s.pool.get e with
  | none => rfl
  | some c =>
    rw [Option.bind_some, Option.map_some]
    cases c.trigger <;> rfl

theorem cueTime_congr {s t : State} {e : Fin 512}
    (h : (t.pool.get e).map Cue.trigger = (s.pool.get e).map Cue.trigger) : t.cueTime e = s.cueTime e := by
  rw [cueTime_eq, cueTime_eq, h]

/-! ### The place of a new entry -/

theorem mem_placeByTime {s : State} {t : Nat} {e x : Fin 512} {l : List (Fin 512)} :
    x ∈ placeByTime s t e l ↔ x = e ∨ x ∈ l := by
  induction l with
  | nil => simp [placeByTime]
  | cons y rest ih =>
    unfold placeByTime
    split
    · simp only [List.mem_cons, ih]
      tauto
    · simp only [List.mem_cons]

theorem nodup_placeByTime {s : State} {t : Nat} {e : Fin 512} {l : List (Fin 512)} (hl : l.Nodup) (he : e ∉ l) :
    (placeByTime s t e l).Nodup := by
  induction l with
  | nil => simp [placeByTime]
  | cons y rest ih =>
    obtain ⟨hy, hrest⟩ := List.nodup_cons.1 hl
    obtain ⟨hne, hmem⟩ := not_or.1 (List.mem_cons.not.1 he)
    unfold placeByTime
    split
    · refine List.nodup_cons.2 ⟨fun h => ?_, ih hrest hmem⟩
      rcases mem_placeByTime.1 h with h | h
      · exact hne h.symm
      · exact hy h
    · exact List.nodup_cons.2 ⟨he, hl⟩

theorem sorted_placeByTime {s : State} {t : Nat} {e : Fin 512} {l : List (Fin 512)}
    (hl : l.Pairwise fun a b => s.cueTime a ≤ s.cueTime b) (he : s.cueTime e = t)
    (hx : ∀ x ∈ l, ∃ c, s.timeEntry x = some (s.cueTime x, c)) :
    (placeByTime s t e l).Pairwise fun a b => s.cueTime a ≤ s.cueTime b := by
  induction l with
  | nil => simp [placeByTime]
  | cons y rest ih =>
    obtain ⟨hy, hrest⟩ := List.pairwise_cons.1 hl
    obtain ⟨c, hc⟩ := hx y (by simp)
    unfold placeByTime
    rw [hc]
    simp only [Option.map_some, Option.getD_some, decide_eq_true_eq]
    split
    · next early =>
      refine List.pairwise_cons.2 ⟨fun b hb => ?_, ih hrest fun x hm => hx x (by simp [hm])⟩
      rcases mem_placeByTime.1 hb with rfl | hb
      · exact early.trans he.ge
      · exact hy b hb
    · next late =>
      refine List.pairwise_cons.2 ⟨fun b hb => ?_, hl⟩
      have below : s.cueTime e ≤ s.cueTime y := by omega
      rcases List.mem_cons.1 hb with rfl | hb
      · exact below
      · exact below.trans (hy b hb)

/-! ### The law -/

/-- The lists and the screens and triggers of the entries are left as they are. -/
theorem cueLaw_of_kept {s t : State} (h : Holds CueLaw s)
    (lists : ∀ n, (t.cues.get n).timeList = (s.cues.get n).timeList ∧
      (t.cues.get n).eventList = (s.cues.get n).eventList)
    (pool : ∀ e, (t.pool.get e).map (fun c => { c with state := none }) =
      (s.pool.get e).map fun c => { c with state := none }) : Holds CueLaw t := by
  obtain ⟨⟨timed, others, nodup, sorted⟩⟩ := h
  have seen : ∀ (f : Fin 12 → Trigger → Prop) e, (∃ c, t.pool.get e = some c ∧ f c.screen c.trigger) ↔
      ∃ c, s.pool.get e = some c ∧ f c.screen c.trigger := by
    intro f e
    have he := pool e
    cases ht : t.pool.get e <;> cases hs : s.pool.get e <;> simp only [ht, hs, Option.map_none, Option.map_some,
      reduceCtorEq, Option.some.injEq] at he
    · simp
    · next a b =>
      have screen : a.screen = b.screen := (congrArg Cue.screen he :)
      have trigger : a.trigger = b.trigger := (congrArg Cue.trigger he :)
      simp [screen, trigger]
  have times : ∀ e, t.cueTime e = s.cueTime e := fun e => cueTime_congr (by
    have he := congrArg (Option.map Cue.trigger) (pool e)
    simpa only [Option.map_map, Function.comp_def] using he)
  refine ⟨fun n e => ?_, fun n e => ?_, fun n => ?_, fun n => ?_⟩
  · rw [(lists n).1, timed, seen fun m k => m = n ∧ k.isTime = true]
  · rw [(lists n).2, others, seen fun m k => m = n ∧ k.isTime = false]
  · rw [(lists n).1, (lists n).2]
    exact nodup n
  · rw [(lists n).1]
    simp only [times]
    exact sorted n

theorem cueLaw_of_plantKept {s t : State} (h : Holds CueLaw s) (ht : PlantKept s t) : Holds CueLaw t :=
  cueLaw_of_kept h ht.lists ht.pool

theorem cueLaw_of_fields {s t : State} (h : Holds CueLaw s) (hc : t.cues = s.cues) (hp : t.pool = s.pool) :
    Holds CueLaw t :=
  cueLaw_of_kept h (fun n => by rw [hc]; exact ⟨rfl, rfl⟩) fun e => by rw [hp]

/-- Pool entries that are in use stand in no list of another screen. -/
theorem cueLaw_empty {s : State} (hp : ∀ e, s.pool.get e = none) (ht : ∀ n, (s.cues.get n).timeList = [])
    (he : ∀ n, (s.cues.get n).eventList = []) : Holds CueLaw s := by
  refine ⟨fun n e => ?_, fun n e => ?_, fun n => ?_, fun n => ?_⟩
  · simp [hp, ht]
  · simp [hp, he]
  · simp [ht, he]
  · simp [ht]

/-! ### CUE ADD -/

theorem addCue_pool (e : Fin 512) (c : Cue) (s : State) : (addCue e c s).pool = s.pool.set e (some c) := rfl

theorem addCue_lists (e : Fin 512) (c : Cue) (s : State) (n : Fin 12) :
    ((addCue e c s).cues.get n).timeList =
        (if c.screen = n ∧ c.trigger.isTime = true then
          placeByTime (s.setCue e c) ((s.setCue e c).cueTime e) e (s.cues.get n).timeList
        else (s.cues.get n).timeList) ∧
      ((addCue e c s).cues.get n).eventList =
        (if c.screen = n ∧ c.trigger.isTime = false then (s.cues.get n).eventList ++ [e]
        else (s.cues.get n).eventList) := by
  have now : (s.setCue e c).pool.get e = some c := by simp
  unfold addCue
  dsimp only
  rw [modCues_cues, Tab.get_modify, cueTime_eq, now]
  by_cases hn : c.screen = n
  · subst hn
    cases ht : c.trigger <;> simp [ht, Trigger.isTime]
  · simp [hn]

theorem addCue_cueTime {e x : Fin 512} (c : Cue) (s : State) (h : x ≠ e) : (addCue e c s).cueTime x = s.cueTime x :=
  cueTime_congr (by rw [addCue_pool, Tab.get_set, if_neg h.symm])

theorem addCue_cueLaw {s : State} (h : Holds CueLaw s) {e : Fin 512} (c : Cue) (free : s.pool.get e = none) :
    Holds CueLaw (addCue e c s) := by
  obtain ⟨⟨timed, others, nodup, sorted⟩⟩ := h
  have freshTime : ∀ n, e ∉ (s.cues.get n).timeList := fun n hm => by
    obtain ⟨d, hd, -⟩ := (timed n e).1 hm
    rw [free] at hd
    cases hd
  have freshEvent : ∀ n, e ∉ (s.cues.get n).eventList := fun n hm => by
    obtain ⟨d, hd, -⟩ := (others n e).1 hm
    rw [free] at hd
    cases hd
  have seen : ∀ (f : Cue → Prop) x, (∃ d, (addCue e c s).pool.get x = some d ∧ f d) ↔
      (x = e ∧ f c) ∨ ∃ d, s.pool.get x = some d ∧ f d := by
    intro f x
    rw [addCue_pool, Tab.get_set]
    by_cases hx : e = x
    · subst hx
      simp [free]
    · simp [hx, Ne.symm hx]
  have times : ∀ x, (addCue e c s).cueTime x = (s.setCue e c).cueTime x := fun x => cueTime_congr rfl
  have old : ∀ n x, x ∈ (s.cues.get n).timeList → (s.setCue e c).cueTime x = s.cueTime x := fun n x hx => by
    have other : x ≠ e := fun e' => freshTime n (e' ▸ hx)
    rw [← times, addCue_cueTime c s other]
  have oldSorted : ∀ n, (s.cues.get n).timeList.Pairwise fun a b =>
      (s.setCue e c).cueTime a ≤ (s.setCue e c).cueTime b := fun n =>
    (sorted n).imp_of_mem fun ha hb hab => by rwa [old n _ ha, old n _ hb]
  refine ⟨fun n x => ?_, fun n x => ?_, fun n => ⟨?_, ?_⟩, fun n => ?_⟩
  · rw [seen fun d => d.screen = n ∧ d.trigger.isTime = true, (addCue_lists e c s n).1, ← timed n x]
    split
    · next hc => simp [mem_placeByTime, hc]
    · next hc => simp [hc]
  · rw [seen fun d => d.screen = n ∧ d.trigger.isTime = false, (addCue_lists e c s n).2, ← others n x]
    split
    · next hc => simp [hc, or_comm]
    · next hc => simp [hc]
  · rw [(addCue_lists e c s n).1]
    split
    · exact nodup_placeByTime (nodup n).1 (freshTime n)
    · exact (nodup n).1
  · rw [(addCue_lists e c s n).2]
    split
    · exact List.nodup_append.2 ⟨(nodup n).2, by simp, fun a ha b hb => by
        rw [List.mem_singleton] at hb
        exact fun hab => freshEvent n (hb ▸ hab ▸ ha)⟩
    · exact (nodup n).2
  · rw [(addCue_lists e c s n).1]
    simp only [times]
    split
    · refine sorted_placeByTime (oldSorted n) rfl fun x hx => ?_
      obtain ⟨d, hd, -, ht⟩ := (timed n x).1 hx
      have still : (s.setCue e c).pool.get x = some d := by
        have other : e ≠ x := fun e' => freshTime n (e' ▸ hx)
        rw [setCue_pool, Tab.get_set, if_neg other, hd]
      exact ⟨d, timeEntry_of_time still ht⟩
    · exact oldSorted n

/-! ### CUE REMOVE and CUE CLEAR -/

/-- Entries leave the pool, each from the one list it stands in. -/
theorem cueLaw_of_removed {s t : State} (h : Holds CueLaw s) (gone : Fin 512 → Prop) [DecidablePred gone]
    (pool : ∀ e, t.pool.get e = if gone e then none else s.pool.get e)
    (times : ∀ n, (t.cues.get n).timeList = (s.cues.get n).timeList.filter fun e => ¬gone e)
    (events : ∀ n, (t.cues.get n).eventList = (s.cues.get n).eventList.filter fun e => ¬gone e) : Holds CueLaw t := by
  obtain ⟨⟨timed, others, nodup, sorted⟩⟩ := h
  have seen : ∀ (f : Cue → Prop) x, (∃ d, t.pool.get x = some d ∧ f d) ↔
      (∃ d, s.pool.get x = some d ∧ f d) ∧ ¬gone x := by
    intro f x
    rw [pool]
    split
    · next hx => simp [hx]
    · next hx => simp [hx]
  refine ⟨fun n x => ?_, fun n x => ?_, fun n => ⟨?_, ?_⟩, fun n => ?_⟩
  · rw [seen fun d => d.screen = n ∧ d.trigger.isTime = true, times, List.mem_filter, timed n x, decide_eq_true_iff]
  · rw [seen fun d => d.screen = n ∧ d.trigger.isTime = false, events, List.mem_filter, others n x, decide_eq_true_iff]
  · rw [times]
    exact (nodup n).1.filter _
  · rw [events]
    exact (nodup n).2.filter _
  · rw [times]
    refine ((sorted n).filter _).imp_of_mem fun {a b} ha hb hab => ?_
    have stay : ∀ x, ¬gone x → t.cueTime x = s.cueTime x := fun x hx => cueTime_congr (by rw [pool, if_neg hx])
    rwa [stay a (of_decide_eq_true (List.mem_filter.1 ha).2), stay b (of_decide_eq_true (List.mem_filter.1 hb).2)]

theorem freeCue_cueLaw {s : State} (h : Holds CueLaw s) {n : Fin 12} {e : Fin 512} (listed : s.listed n e = true) :
    Holds CueLaw (freeCue n e s) := by
  obtain ⟨timed, others, -, -⟩ := h.holds
  have own : ∃ c, s.pool.get e = some c ∧ c.screen = n := by
    simp only [State.listed, Bool.or_eq_true, List.contains_iff_mem] at listed
    rcases listed with hm | hm
    · obtain ⟨c, hc, hn, -⟩ := (timed n e).1 hm
      exact ⟨c, hc, hn⟩
    · obtain ⟨c, hc, hn, -⟩ := (others n e).1 hm
      exact ⟨c, hc, hn⟩
  obtain ⟨c, hc, hn⟩ := own
  have elsewhere : ∀ m, n ≠ m → e ∉ (s.cues.get m).timeList ∧ e ∉ (s.cues.get m).eventList := fun m hm =>
    ⟨fun hx => by
      obtain ⟨d, hd, hdm, -⟩ := (timed m e).1 hx
      rw [hc] at hd
      exact hm (hn ▸ hdm ▸ congrArg Cue.screen (Option.some.inj hd)),
    fun hx => by
      obtain ⟨d, hd, hdm, -⟩ := (others m e).1 hx
      rw [hc] at hd
      exact hm (hn ▸ hdm ▸ congrArg Cue.screen (Option.some.inj hd))⟩
  have kept : ∀ {l : List (Fin 512)}, e ∉ l → l = l.filter fun x => ¬x = e := fun {l} hl => by
    refine (List.filter_eq_self.2 fun x hx => ?_).symm
    have other : x ≠ e := fun he => hl (he ▸ hx)
    exact decide_eq_true other
  refine cueLaw_of_removed h (fun x => x = e) (fun x => ?_) (fun m => ?_) fun m => ?_
  · simp only [freeCue, Tab.get_set, eq_comm]
  · simp only [freeCue, modCues_cues, Tab.get_modify]
    split
    · next hm => subst hm; rfl
    · next hm => exact kept (elsewhere m hm).1
  · simp only [freeCue, modCues_cues, Tab.get_modify]
    split
    · next hm => subst hm; rfl
    · next hm => exact kept (elsewhere m hm).2

theorem clearCues_cueLaw {s : State} (h : Holds CueLaw s) (n : Fin 12) : Holds CueLaw (clearCues n s) := by
  obtain ⟨timed, others, -, -⟩ := h.holds
  have elsewhere : ∀ m, n ≠ m → ∀ e, (e ∈ (s.cues.get m).timeList ∨ e ∈ (s.cues.get m).eventList) →
      e ∉ (s.cues.get n).entries := by
    intro m hm e he hn
    have owner : ∀ k, (e ∈ (s.cues.get k).timeList ∨ e ∈ (s.cues.get k).eventList) →
        (s.pool.get e).map Cue.screen = some k := by
      rintro k (hk | hk)
      · obtain ⟨c, hc, hs, -⟩ := (timed k e).1 hk
        rw [hc, Option.map_some, hs]
      · obtain ⟨c, hc, hs, -⟩ := (others k e).1 hk
        rw [hc, Option.map_some, hs]
    exact hm (Option.some.inj ((owner n (List.mem_append.1 hn)).symm.trans (owner m he)))
  refine cueLaw_of_removed h (fun e => e ∈ (s.cues.get n).entries) (fun e => ?_) (fun m => ?_) fun m => ?_
  · simp only [clearCues, Tab.get_update, List.contains_iff_mem]
  · simp only [clearCues, Tab.get_modify]
    split
    · next hm =>
      subst hm
      exact (List.filter_eq_nil_iff.2 fun e he => by simp [CueScreen.entries, he]).symm
    · next hm => exact (List.filter_eq_self.2 fun e he => decide_eq_true (elsewhere m hm e (.inl he))).symm
  · simp only [clearCues, Tab.get_modify]
    split
    · next hm =>
      subst hm
      exact (List.filter_eq_nil_iff.2 fun e he => by simp [CueScreen.entries, he]).symm
    · next hm => exact (List.filter_eq_self.2 fun e he => decide_eq_true (elsewhere m hm e (.inr he))).symm

/-! ### Every move -/

theorem powerOn_cueLaw (lines : SiteLines) : Holds CueLaw (State.powerOn lines) :=
  cueLaw_empty (fun e => by simp only [State.powerOn, Tab.get_fill])
    (fun n => by simp only [State.powerOn, Tab.get_fill]; rfl) fun n => by simp only [State.powerOn, Tab.get_fill]; rfl

theorem reallocate_cueLaw {s : State} (h : Holds CueLaw s) (cs : List Change) : Holds CueLaw (reallocate cs s) := by
  obtain ⟨o, e⟩ := reallocate_frame cs s
  exact cueLaw_of_fields h (by rw [e]) (by rw [e])

theorem applyConfig_cueLaw {s : State} (h : Holds CueLaw s) (n : Fin 12) (c : ScreenConfig) :
    Holds CueLaw (applyConfig n c s) := by
  have stored : Holds CueLaw ((if c.lipSync = (s.screens.get n).config.lipSync then s
      else reallocate (s.lipChanges n c.lipSync) s).modScreen n fun x => { x with config := c }) := by
    split
    · exact cueLaw_of_fields h rfl rfl
    · exact cueLaw_of_fields (reallocate_cueLaw h _) rfl rfl
  unfold applyConfig
  dsimp only
  split
  · exact cueLaw_of_plantKept stored (recompute_showOnly ..).toPlantKept
  · exact stored

theorem cueLaw_of_senseFrame {s t : State} (h : Holds CueLaw s) (ht : SenseFrame s t) : Holds CueLaw t := by
  obtain ⟨y, x, p, e⟩ := ht
  exact cueLaw_of_fields h (by rw [e]) (by rw [e])

theorem Moves.cueLaw {i : Instr} {s t : State} (hm : Moves i s t) (h : Holds CueLaw s) : Holds CueLaw t := by
  by_cases hi : movesPlant i = false
  · exact cueLaw_of_plantKept h (hm.showOnly hi).toPlantKept
  cases hm with
  | powerOn lines => exact cueLaw_of_fields (powerOn_cueLaw lines) rfl rfl
  | houseBlock inp => exact cueLaw_of_plantKept h (houseBlock_plantKept inp s)
  | referenceLost inp =>
    exact cueLaw_of_plantKept (cueLaw_of_plantKept h (houseBlock_plantKept inp s)) (changeClock_plantKept ..)
  | interval => exact cueLaw_of_plantKept h (takeInterval_storeKept s).toPlantKept
  | selftest => exact cueLaw_of_plantKept h (completeSelftest_plantKept ..)
  | activityLost l => exact cueLaw_of_plantKept h (loseActivity_storeKept l s).toPlantKept
  | activitySeen l => exact cueLaw_of_plantKept h (seeActivity_storeKept l s).toPlantKept
  | blockFound l b p k => exact cueLaw_of_plantKept h (findBlock_storeKept l b p k s).toPlantKept
  | laneBlock l b k x => exact cueLaw_of_plantKept h (laneBlock_storeKept l b k x s).toPlantKept
  | automaticStart e => exact cueLaw_of_plantKept h (laneBlock_storeKept ..).toPlantKept
  | returnBlock l aux =>
    obtain ⟨x, frame⟩ := returnBlock_frame l (readReport (bytesOfAux aux)) s
    exact cueLaw_of_senseFrame (s := { s with returnLanes := x }) (cueLaw_of_fields h rfl rfl) frame
  | restart port a b => exact cueLaw_of_fields (powerOn_cueLaw ⟨s.evac, a, b⟩) rfl rfl
  | screenSet c => exact applyConfig_cueLaw h _ c
  | laneSet l => exact cueLaw_of_fields h rfl rfl
  | outputMap => exact cueLaw_of_fields h rfl rfl
  | outputMoved => exact cueLaw_of_fields (reallocate_cueLaw h _) rfl rfl
  | tuneLoad => exact cueLaw_of_fields h rfl rfl
  | tuneMoved => exact cueLaw_of_fields (reallocate_cueLaw h _) rfl rfl
  | senseSet o => exact cueLaw_of_fields h rfl rfl
  | exclude o => exact cueLaw_of_senseFrame h (excluded_senseFrame ..)
  | includeOutput o => exact cueLaw_of_senseFrame h (included_senseFrame ..)
  | cueAdd c free => exact addCue_cueLaw h c free
  | cueRemove listed => exact freeCue_cueLaw h listed
  | cueClear n => exact clearCues_cueLaw h n
  | _ => exact absurd rfl hi

/-- Settles O56, move by move: an entry enters the one list of its screen and trigger, at its place by time, and leaves it
when it is freed. -/
theorem cueLawKept : Obligations.CueLawKept := fun _ _ h ht =>
  (step_keeps (P := Holds CueLaw) (fun _ _ h => ⟨h.holds⟩) (fun _ _ h => ⟨h.holds⟩) (fun _ _ _ h hm => hm.cueLaw h)
    ⟨h⟩ ht).holds

end Sys2Proof.Machine
end

section
/-! What the shared operations leave of the shows: the states, holders and stamps of the screens with EVAC (`CoreKept`),
and with them the draws granted and the available draw (`GrantsKept`). -/

namespace Sys2Proof.Machine

/-! ### The relations -/

/-- The state, holder and stamp of every screen, the stamp counter and EVAC are left as they are. -/
structure CoreKept (s t : State) : Prop where
  evac : t.evac = s.evac
  counter : t.stampCounter = s.stampCounter
  state : ∀ n, (t.screens.get n).state = (s.screens.get n).state
  holder : ∀ n, (t.screens.get n).holder = (s.screens.get n).holder
  stamp : ∀ n, (t.screens.get n).stamp = (s.screens.get n).stamp

/-- With them, the draws granted and the available draw. -/
structure GrantsKept (s t : State) : Prop extends CoreKept s t where
  draw : ∀ n, (t.grants.get n).draw = (s.grants.get n).draw
  available : t.budget.available = s.budget.available

theorem CoreKept.refl (s : State) : CoreKept s s := ⟨rfl, rfl, fun _ => rfl, fun _ => rfl, fun _ => rfl⟩

theorem CoreKept.trans {s t u : State} (h : CoreKept s t) (h' : CoreKept t u) : CoreKept s u :=
  ⟨h'.evac.trans h.evac, h'.counter.trans h.counter, fun n => (h'.state n).trans (h.state n),
    fun n => (h'.holder n).trans (h.holder n), fun n => (h'.stamp n).trans (h.stamp n)⟩

theorem GrantsKept.refl (s : State) : GrantsKept s s := ⟨.refl s, fun _ => rfl, rfl⟩

theorem GrantsKept.trans {s t u : State} (h : GrantsKept s t) (h' : GrantsKept t u) : GrantsKept s u :=
  ⟨h.toCoreKept.trans h'.toCoreKept, fun n => (h'.draw n).trans (h.draw n), h'.available.trans h.available⟩

theorem GrantsKept.overScreens {f : Fin 12 → State → State} (h : ∀ n t, GrantsKept t (f n t)) (s : State) :
    GrantsKept s (overScreens f s) :=
  overScreens_induct (P := GrantsKept s) (.refl s) fun n t ht => ht.trans (h n t)

theorem GrantsKept.overList {α : Type} {f : α → State → State} (h : ∀ x t, GrantsKept t (f x t)) (l : List α)
    (s : State) : GrantsKept s (overList f l s) :=
  overList_induct (P := GrantsKept s) (.refl s) fun x _ t ht => ht.trans (h x t)

theorem CoreKept.of_fields {s t : State} (hs : t.screens = s.screens) (he : t.evac = s.evac)
    (hc : t.stampCounter = s.stampCounter) : CoreKept s t :=
  ⟨he, hc, fun n => by rw [hs], fun n => by rw [hs], fun n => by rw [hs]⟩

theorem GrantsKept.of_fields {s t : State} (hs : t.screens = s.screens) (he : t.evac = s.evac)
    (hc : t.stampCounter = s.stampCounter) (hg : t.grants = s.grants) (hb : t.budget = s.budget) : GrantsKept s t :=
  ⟨.of_fields hs he hc, fun n => by rw [hg], by rw [hb]⟩

/-- The run fields of a screen that the Screen Controller's laws read. -/
def Screen.CoreAlike (c d : Screen) : Prop := d.state = c.state ∧ d.holder = c.holder ∧ d.stamp = c.stamp

/-- Screens may change in all but these fields. -/
theorem GrantsKept.of_screens {s : State} {c : Tab Screen 12} (h : ∀ n, (s.screens.get n).CoreAlike (c.get n)) :
    GrantsKept s { s with screens := c } :=
  ⟨⟨rfl, rfl, fun n => (h n).1, fun n => (h n).2.1, fun n => (h n).2.2⟩, fun _ => rfl, rfl⟩

theorem modScreen_grantsKept (n : Fin 12) (f : Screen → Screen) (s : State)
    (h : ∀ c : Screen, c.CoreAlike (f c) := by intro; exact ⟨rfl, rfl, rfl⟩) : GrantsKept s (s.modScreen n f) := by
  refine .of_screens fun m => ?_
  rw [Tab.get_modify]
  split
  · next e => exact e ▸ h _
  · exact ⟨rfl, rfl, rfl⟩

theorem CueKept.grantsKept {s t : State} (h : CueKept s t) : GrantsKept s t := by
  have shows := h.showKept
  obtain ⟨b, c, e, q, p, eq⟩ := h.frame
  exact ⟨⟨shows.evac, shows.counter, shows.state, shows.holder, shows.stamp⟩, fun n => by rw [eq], by rw [eq]⟩

theorem SenseFrame.grantsKept {s t : State} (h : SenseFrame s t) : GrantsKept s t := by
  obtain ⟨y, x, p, eq⟩ := h
  rw [eq]
  exact .of_fields rfl rfl rfl rfl rfl

/-! ### Shared operations -/

theorem notify_grantsKept (m : Notice) (s : State) : GrantsKept s (s.notify m) := .of_fields rfl rfl rfl rfl rfl

theorem notifyShow_grantsKept (s : State) (n : Fin 12) (previous : ShowState) (cause : ShowCause)
    (station : Option (Fin 16)) (refusal : Option Reason) (showMax : Option Nat) :
    GrantsKept s (s.notifyShow n previous cause station refusal showMax) := notify_grantsKept _ s

theorem clearTones_grantsKept (n : Fin 12) (s : State) : GrantsKept s (clearTones n s) := .of_fields rfl rfl rfl rfl rfl

theorem setTones_grantsKept (l : List (Fin 192)) (b : Bool) (s : State) : GrantsKept s (setTones l b s) :=
  .of_fields rfl rfl rfl rfl rfl

theorem abortMeasurement_grantsKept (c : AbortCause) (s : State) : GrantsKept s (abortMeasurement c s) := by
  obtain ⟨o, x, p, h⟩ := abortMeasurement_frame c s
  rw [h]
  exact .of_fields rfl rfl rfl rfl rfl

theorem abortOn_grantsKept (n : Fin 12) (c : AbortCause) (s : State) : GrantsKept s (abortOn n c s) := by
  obtain ⟨o, x, p, h⟩ := abortOn_frame n c s
  rw [h]
  exact .of_fields rfl rfl rfl rfl rfl

/-- A recompute changes the grants alone. -/
theorem recompute_coreKept (c : PowerCause) (s : State) : CoreKept s (recompute c s) := by
  obtain ⟨g, o, x, p, h⟩ := recompute_frame c s
  rw [h]
  exact .of_fields rfl rfl rfl

theorem clearBase_grantsKept (n : Fin 12) (s : State) : GrantsKept s (clearBase n s) := .of_fields rfl rfl rfl rfl rfl

theorem clearLoudTrim_grantsKept (n : Fin 12) (s : State) : GrantsKept s (clearLoudTrim n s) :=
  .of_fields rfl rfl rfl rfl rfl

theorem withdrawAlarms_grantsKept (n : Fin 12) (s : State) : GrantsKept s (withdrawAlarms n s) := by
  obtain ⟨a, p, h⟩ := withdrawAlarms_frame n s
  rw [h]
  exact .of_fields rfl rfl rfl rfl rfl

theorem formLines_grantsKept (s : State) : GrantsKept s (formLines s) := .of_fields rfl rfl rfl rfl rfl

theorem modLine_grantsKept (n : Fin 12) (l : Fin 8) (f : BoothLine → BoothLine) (s : State) :
    GrantsKept s (s.modLine n l f) := (modLine_cueKept n l f s).grantsKept

theorem notifyChanges_grantsKept (before : Tab Screen 12) (cause : ShowCause) (s : State) :
    GrantsKept s (notifyChanges before cause s) := by
  rw [notifyChanges_eq]
  exact .of_fields rfl rfl rfl rfl rfl

theorem clearCalibrationTones_grantsKept (s : State) : GrantsKept s (clearCalibrationTones s) :=
  .overScreens (fun n t => by
    split
    · exact clearTones_grantsKept n t
    · exact .refl t) s

theorem startEffects_grantsKept (n : Fin 12) (s : State) : GrantsKept s (startEffects n s) := by
  refine .trans ?_ (startCues_cueKept n _).grantsKept
  exact .of_fields rfl rfl rfl rfl rfl

theorem reallocate_grantsKept (cs : List Change) (s : State) : GrantsKept s (reallocate cs s) := by
  obtain ⟨o, h⟩ := reallocate_frame cs s
  rw [h]
  exact .of_fields rfl rfl rfl rfl rfl

/-! ### Measurements, blocks and intervals -/

theorem endPhase_grantsKept (s : State) : GrantsKept s (endPhase s) := by
  obtain ⟨x, o, h⟩ := endPhase_frame s
  rw [h]
  exact .of_fields rfl rfl rfl rfl rfl

theorem endMeasurement_grantsKept (s : State) : GrantsKept s (endMeasurement s) := by
  obtain ⟨x, o, m, p, h⟩ := endMeasurement_frame s
  rw [h]
  exact .of_fields rfl rfl rfl rfl rfl

theorem stepMeasurement_grantsKept (s : State) : GrantsKept s (stepMeasurement s) := by
  obtain ⟨x, o, m, p, h⟩ := stepMeasurement_frame s
  rw [h]
  exact .of_fields rfl rfl rfl rfl rfl

theorem ensureClosed_grantsKept (s : State) : GrantsKept s (ensureClosed s) := by
  obtain ⟨o, e, r, m, x, b, h⟩ := ensureClosed_frame s
  rw [h]
  exact .of_fields rfl rfl rfl rfl rfl

theorem judgeScreen_grantsKept (slips : Fin 14 → Nat) (n : Fin 12) (s : State) : GrantsKept s (judgeScreen slips n s) :=
  .trans (t := s.modAlarms n (Alarms.judge (s.gather slips n))) (.of_fields rfl rfl rfl rfl rfl)
    (judgeScreen_cueKept slips n s).grantsKept

theorem clearSlips_grantsKept (s : State) : GrantsKept s (clearSlips s) := .of_fields rfl rfl rfl rfl rfl

theorem closeIntervals_grantsKept (s : State) : GrantsKept s (closeIntervals s) := by
  unfold closeIntervals
  exact .of_fields rfl rfl rfl rfl rfl

theorem closedInterval_grantsKept (s : State) : GrantsKept s (closedInterval s) := by
  have closed := ensureClosed_grantsKept s
  unfold closedInterval
  generalize ensureClosed s = u at closed
  refine closed.trans (.trans ?_ (closeIntervals_grantsKept _))
  exact .of_fields rfl rfl rfl rfl rfl

theorem takeInterval_grantsKept (s : State) : GrantsKept s (takeInterval s) := by
  have judged : GrantsKept s (judgeInterval s) := by
    unfold judgeInterval
    refine .trans ?_ (.overScreens (judgeScreen_grantsKept _) _)
    exact (closedInterval_grantsKept s).trans (clearSlips_grantsKept _)
  have based : GrantsKept s (overScreens stepBase (judgeInterval s)) := by
    refine judged.trans ?_
    obtain ⟨a, h⟩ := stepBases_frame (judgeInterval s)
    rw [h]
    generalize judgeInterval s = u
    exact .of_fields rfl rfl rfl rfl rfl
  rw [takeInterval_eq]
  split
  · exact based
  · exact based.trans (stepMeasurement_grantsKept _)

/-! ### The house block up to its sound -/

theorem fadeAdvance_coreAlike (c : Screen) : c.CoreAlike c.fadeAdvance := by
  unfold Screen.fadeAdvance
  dsimp only
  split <;> exact ⟨rfl, rfl, rfl⟩

theorem houseFade_coreAlike (c : Screen) : c.CoreAlike c.houseFade := by
  unfold Screen.houseFade
  split
  · exact ⟨rfl, rfl, rfl⟩
  · split
    · exact fadeAdvance_coreAlike c
    · exact ⟨rfl, rfl, rfl⟩

theorem beforeSelftest_grantsKept (inp : BlockInputs) (s : State) : GrantsKept s (beforeSelftest inp s) := by
  have passed : GrantsKept s (passReset inp.sinceReset s) := by
    obtain ⟨z, h⟩ := passReset_frame inp.sinceReset s
    rw [h]
    exact .of_fields rfl rfl rfl rfl rfl
  have faded : ∀ u, GrantsKept u (advanceFades u) := fun u =>
    .of_screens fun n => by rw [Tab.get_map]; exact houseFade_coreAlike _
  exact (passed.trans (faded _)).trans (.of_fields rfl rfl rfl rfl rfl)

theorem tickSelftest_grantsKept (a b : Bool) (s : State) : GrantsKept s (tickSelftest a b s) := by
  obtain ⟨t, g, p, h⟩ := tickSelftest_frame a b s
  rw [h]
  exact .of_fields rfl rfl rfl rfl rfl

theorem countBlock_grantsKept (s : State) : GrantsKept s (countBlock s) := by
  unfold countBlock
  split
  · exact .refl s
  · split
    · exact takeInterval_grantsKept s
    · exact .of_fields rfl rfl rfl rfl rfl

theorem afterSound_grantsKept (inp : BlockInputs) (s : State) : GrantsKept s (afterSound inp s) := by
  have counted : GrantsKept s (beforeSound inp s) :=
    (((beforeSelftest_grantsKept inp s).trans (tickSelftest_grantsKept _ _ _)).trans (ensureClosed_grantsKept _)).trans
      (countBlock_grantsKept _)
  obtain ⟨a, l, z, o, k, m, r, w, h⟩ :=
    runSound_frame inp.periods (flagsRead inp s) (atHouseBlock inp s) (beforeSound inp s)
  unfold afterSound
  rw [h]
  exact counted.trans (.of_fields rfl rfl rfl rfl rfl)

theorem changeClock_grantsKept (new old : Clock) (s : State) : GrantsKept s (changeClock new old s) :=
  .of_fields rfl rfl rfl rfl rfl

/-! ### Lanes, apart from the Screen Controller's part of a word -/

theorem grantsKept_laneSteps : LaneSteps GrantsKept where
  refl := .refl
  trans := .trans
  lane _ _ _ := .of_fields rfl rfl rfl rfl rfl
  notify := notify_grantsKept
  abort := abortMeasurement_grantsKept _
  roll n s := modScreen_grantsKept n _ s
  route _ _ _ := .of_fields rfl rfl rfl rfl rfl
  cues n w s := (takeWord_cueKept n w s).grantsKept

/-- What holds wherever the grants are kept, and composes, holds of the parts of a lane event. -/
theorem laneSteps_of_grantsKept {R : State → State → Prop} (kept : ∀ {s t}, GrantsKept s t → R s t)
    (trans : ∀ {s t u}, R s t → R t u → R s u) : LaneSteps R where
  refl s := kept (.refl s)
  trans := trans
  lane l f s := kept (grantsKept_laneSteps.lane l f s)
  notify m s := kept (notify_grantsKept m s)
  abort s := kept (abortMeasurement_grantsKept _ s)
  roll n s := kept (grantsKept_laneSteps.roll n s)
  route n f s := kept (grantsKept_laneSteps.route n f s)
  cues n w s := kept (takeWord_cueKept n w s).grantsKept

theorem returnBlock_grantsKept (l : Fin 12) (r : Option Report) (s : State) : GrantsKept s (returnBlock l r s) := by
  obtain ⟨x, frame⟩ := returnBlock_frame l r s
  exact .trans (t := { s with returnLanes := x }) (.of_fields rfl rfl rfl rfl rfl) frame.grantsKept

theorem clearCues_grantsKept (n : Fin 12) (s : State) : GrantsKept s (clearCues n s) := by
  unfold clearCues
  exact .of_fields rfl rfl rfl rfl rfl

/-! ### The commands that reach no show -/

/-- The commands whose moves reach the shows or the grants. -/
def movesShow : Instr → Bool
  | .powerOnReset _ => true
  | .evacAsserted => true
  | .evacReleased => true
  | .houseBlock _ => true
  | .referenceLost _ => true
  | .fadeCompletion _ => true
  | .laneBlockEvent _ _ _ _ => true
  | .automaticStart _ => true
  | .frameSent _ _ _ => true
  | .enable _ _ => true
  | .disable _ _ => true
  | .hold _ _ => true
  | .calibrate _ _ => true
  | .free _ _ => true
  | .start _ _ => true
  | .pause _ _ => true
  | .resume _ _ => true
  | .endShow _ _ _ => true
  | .screenSet _ _ _ => true
  | .budgetSet _ _ => true
  | _ => false

theorem Moves.grantsKept {i : Instr} {s t : State} (hm : Moves i s t) (hi : movesShow i = false) : GrantsKept s t := by
  cases hm with
  | referenceRegained => exact changeClock_grantsKept _ _ s
  | interval => exact takeInterval_grantsKept s
  | fadeStep => exact modScreen_grantsKept _ _ s fadeAdvance_coreAlike
  | pulseEnd => exact modLine_grantsKept _ _ _ s
  | selftest => exact .of_fields rfl rfl rfl rfl rfl
  | activityLost => exact loseActivity_related grantsKept_laneSteps _ s
  | activitySeen => exact seeActivity_related grantsKept_laneSteps _ s
  | blockFound => exact findBlock_related grantsKept_laneSteps _ _ _ _ s
  | phaseEnd => exact ((ensureClosed_grantsKept s).trans (endPhase_grantsKept _)).trans (.of_fields rfl rfl rfl rfl rfl)
  | result =>
    exact ((ensureClosed_grantsKept s).trans (endMeasurement_grantsKept _)).trans (.of_fields rfl rfl rfl rfl rfl)
  | returnBlock => exact returnBlock_grantsKept _ _ s
  | level => exact modScreen_grantsKept _ _ s
  | laneSet => exact grantsKept_laneSteps.lane _ _ s
  | outputMap => exact .of_fields rfl rfl rfl rfl rfl
  | outputMoved => exact .trans (reallocate_grantsKept _ s) (.of_fields rfl rfl rfl rfl rfl)
  | layoutSet => exact .of_fields rfl rfl rfl rfl rfl
  | pagingSet => exact .of_fields rfl rfl rfl rfl rfl
  | tuneLoad => exact .of_fields rfl rfl rfl rfl rfl
  | tuneMoved => exact .trans (reallocate_grantsKept _ s) (.of_fields rfl rfl rfl rfl rfl)
  | trim => exact .of_fields rfl rfl rfl rfl rfl
  | offsetSet => exact .of_fields rfl rfl rfl rfl rfl
  | alarmSet => exact .of_fields rfl rfl rfl rfl rfl
  | senseSet => exact .of_fields rfl rfl rfl rfl rfl
  | exclude => exact (excluded_senseFrame ..).grantsKept
  | includeOutput => exact (included_senseFrame ..).grantsKept
  | cueAdd c => exact .of_fields rfl rfl rfl rfl rfl
  | cueRemove => exact .of_fields rfl rfl rfl rfl rfl
  | cueClear => exact clearCues_grantsKept _ s
  | lineSet => exact modLine_grantsKept _ _ _ s
  | lineEvacSet => exact modLine_grantsKept _ _ _ s
  | tone => exact .of_fields rfl rfl rfl rfl rfl
  | measure => exact .of_fields rfl rfl rfl rfl rfl
  | abort => exact abortMeasurement_grantsKept _ s
  | micSet => exact .of_fields rfl rfl rfl rfl rfl
  | markSet => exact .of_fields rfl rfl rfl rfl rfl
  | _ => cases hi

end Sys2Proof.Machine
end

section
/-! The laws of holding and of EVAC (01 R3, R22) and of the start stamps (01 R11, 08 R143, R146). A move either lets screens
leave demand (`Lowers`) or lets screens enter it with stamps above those held (`Raises`); both keep the laws. -/

namespace Sys2Proof.Machine

/-! ### Screens that leave demand, or keep it -/

/-- A screen that keeps its stamp and its demand, or drops both, and is held as rightly as before. -/
structure Screen.Lowers (c d : Screen) : Prop where
  held : c.heldRightly → d.heldRightly
  stamp : (d.stamp = c.stamp ∧ d.state.demands = c.state.demands) ∨ (d.stamp = 0 ∧ d.state.demands = false)

/-- No screen enters demand, and the law of EVAC is kept. -/
structure Lowers (s t : State) : Prop where
  evac : EvacLaw s → EvacLaw t
  counter : t.stampCounter = s.stampCounter
  screen : ∀ n, (s.screens.get n).Lowers (t.screens.get n)

theorem heldRightly_congr {c d : Screen} (hs : d.state = c.state) (hh : d.holder = c.holder) (h : c.heldRightly) :
    d.heldRightly := by
  unfold Screen.heldRightly at h ⊢
  rwa [hs, hh]

theorem Screen.CoreAlike.lowers {c d : Screen} (h : c.CoreAlike d) : c.Lowers d := by
  obtain ⟨state, holder, stamp⟩ := h
  exact ⟨heldRightly_congr state holder, .inl ⟨stamp, by rw [state]⟩⟩

theorem Screen.Lowers.trans {c d e : Screen} (h : c.Lowers d) (h' : d.Lowers e) : c.Lowers e := by
  refine ⟨fun hc => h'.held (h.held hc), ?_⟩
  rcases h'.stamp with ⟨same, demand⟩ | dropped
  · rw [same, demand]
    exact h.stamp
  · exact .inr dropped

theorem evacLaw_of_coreKept {s t : State} (h : CoreKept s t) (hs : EvacLaw s) : EvacLaw t := by
  intro active n
  rw [h.state n]
  exact hs (h.evac ▸ active) n

theorem CoreKept.coreAlike {s t : State} (h : CoreKept s t) (n : Fin 12) : (s.screens.get n).CoreAlike (t.screens.get n) :=
  ⟨h.state n, h.holder n, h.stamp n⟩

theorem CoreKept.lowers {s t : State} (h : CoreKept s t) : Lowers s t :=
  ⟨evacLaw_of_coreKept h, h.counter, fun n => (h.coreAlike n).lowers⟩

theorem Lowers.trans {s t u : State} (h : Lowers s t) (h' : Lowers t u) : Lowers s u :=
  ⟨fun hs => h'.evac (h.evac hs), h'.counter.trans h.counter, fun n => (h.screen n).trans (h'.screen n)⟩

theorem Lowers.refl (s : State) : Lowers s s := (CoreKept.refl s).lowers

theorem Lowers.overScreens {f : Fin 12 → State → State} (h : ∀ n t, Lowers t (f n t)) (s : State) :
    Lowers s (overScreens f s) :=
  overScreens_induct (P := Lowers s) (.refl s) fun n t ht => ht.trans (h n t)

/-- One screen changes so that it enters neither demand nor a show. -/
theorem modScreen_lowers {n : Fin 12} {f : Screen → Screen} {s : State}
    (hf : (s.screens.get n).Lowers (f (s.screens.get n)))
    (hp : (f (s.screens.get n)).state.playing = true → (s.screens.get n).state.playing = true) :
    Lowers s (s.modScreen n f) := by
  refine ⟨fun hs active m => ?_, rfl, fun m => ?_⟩
  · rw [modScreen_screens, Tab.get_modify]
    split
    · next e =>
      subst e
      exact Bool.eq_false_iff.2 fun shows => Bool.eq_false_iff.1 (hs active n) (hp shows)
    · exact hs active m
  · rw [modScreen_screens, Tab.get_modify]
    split
    · next e => exact e ▸ hf
    · exact Screen.CoreAlike.lowers ⟨rfl, rfl, rfl⟩

theorem heldRightly_of_dark {c : Screen} (hs : c.state = .dark ∨ c.state = .offline) (hh : c.holder = none) :
    c.heldRightly := by
  unfold Screen.heldRightly
  rcases hs with e | e <;> rw [e] <;> exact hh

theorem heldRightly_of_user {c : Screen} {h : Fin 16} (hd : c.state ≠ .dark) (ho : c.state ≠ .offline)
    (hc : c.state ≠ .calibrating) (hh : c.holder = some h) (hr : roleOf h ≠ .service) : c.heldRightly := by
  unfold Screen.heldRightly
  split
  · exact absurd ‹_› ho
  · exact absurd ‹_› hd
  · exact absurd ‹_› hc
  · exact ⟨h, hh, hr⟩

/-- A screen held outside CALIBRATING is held by a station that is not of SERVICE (01 R3). -/
theorem heldRightly_user {c : Screen} (h : c.heldRightly) (hd : c.state ≠ .dark) (ho : c.state ≠ .offline)
    (hc : c.state ≠ .calibrating) : ∃ h, c.holder = some h ∧ roleOf h ≠ .service := by
  unfold Screen.heldRightly at h
  split at h
  · exact absurd ‹_› ho
  · exact absurd ‹_› hd
  · exact absurd ‹_› hc
  · exact h

/-- A state in which a station other than SERVICE holds the screen (01 R3). -/
def ShowState.used : ShowState → Bool
  | .offline => false
  | .dark => false
  | .calibrating => false
  | _ => true

theorem heldRightly_of_used {c d : Screen} (hc : c.state.used = true) (hd : d.state.used = true)
    (hh : d.holder = c.holder) (h : c.heldRightly) : d.heldRightly := by
  have user : ∃ k, c.holder = some k ∧ roleOf k ≠ .service :=
    heldRightly_user h (fun e => by rw [e] at hc; cases hc) (fun e => by rw [e] at hc; cases hc)
      fun e => by rw [e] at hc; cases hc
  obtain ⟨k, hk, hr⟩ := user
  exact heldRightly_of_user (fun e => by rw [e] at hd; cases hd) (fun e => by rw [e] at hd; cases hd)
    (fun e => by rw [e] at hd; cases hd) (hh.trans hk) hr

/-! ### The moves that lower -/

theorem release_lowers (n : Fin 12) (station : Fin 16) (s : State) : Lowers s (release n station s) := by
  have dark : ∀ u : State, Lowers u (u.modScreen n fun c => { c with state := .dark, holder := none, stamp := 0 }) :=
    fun u => modScreen_lowers ⟨fun _ => heldRightly_of_dark (.inl rfl) rfl, .inr ⟨rfl, rfl⟩⟩ fun h => by cases h
  have freed : CoreKept s (if (s.screens.get n).state = .calibrating then clearTones n (abortOn n .freed s) else s) := by
    split
    · exact ((abortOn_grantsKept n _ s).trans (clearTones_grantsKept n _)).toCoreKept
    · exact .refl s
  have settled : ∀ u, CoreKept u (if (s.screens.get n).state = .calibrating then recompute .demand u else u) := by
    intro u
    split
    · exact recompute_coreKept _ u
    · exact .refl u
  unfold release
  dsimp only
  refine .trans ?_ (notifyShow_grantsKept ..).lowers
  refine .trans ?_ (settled _).lowers
  refine .trans ?_ (withdrawAlarms_grantsKept n _).lowers
  refine .trans ?_ (clearBase_grantsKept n _).lowers
  exact freed.lowers.trans (dark _)

theorem completeFade_lowers {n : Fin 12} {s : State} (h : (s.screens.get n).fadeDone = true) :
    Lowers s (completeFade n s) := by
  have ending : (s.screens.get n).state = .ending := by
    simp only [Screen.fadeDone, Bool.and_eq_true, decide_eq_true_eq] at h
    exact h.1
  have armed : Lowers s (s.modScreen n fun c => { c.dropFade with state := .armed, stamp := 0 }) :=
    modScreen_lowers ⟨heldRightly_of_used (by rw [ending]; rfl) rfl rfl, .inr ⟨rfl, rfl⟩⟩ fun h => by cases h
  unfold completeFade
  dsimp only
  refine .trans ?_ (notifyShow_grantsKept ..).lowers
  refine .trans ?_ (fireState_cueKept n .endDone _).grantsKept.lowers
  refine .trans ?_ (clearLoudTrim_grantsKept n _).lowers
  refine .trans ?_ (recompute_coreKept _ _).lowers
  exact armed.trans (clearBase_grantsKept n _).lowers

theorem finishFade_lowers (n : Fin 12) (s : State) : Lowers s (finishFade n s) := by
  unfold finishFade
  split
  · exact completeFade_lowers ‹_›
  · exact .refl s

theorem readSupply_coreKept (a b : Bool) (s : State) : CoreKept s (readSupply a b s) := by
  have read : CoreKept s { s with budget := { s.budget with supply1 := a, supply2 := b, supply := supplyOf a b } } :=
    .of_fields rfl rfl rfl
  unfold readSupply
  dsimp only
  split
  · exact read
  · exact (read.trans (recompute_coreKept _ _)).trans (notify_grantsKept _ _).toCoreKept

theorem houseBlock_lowers (inp : BlockInputs) (s : State) : Lowers s (houseBlock inp s) := by
  have ended : Lowers s (overScreens finishFade (readSupply inp.supply1 inp.supply2 (afterSound inp s))) := by
    refine .trans ?_ (.overScreens finishFade_lowers _)
    exact (afterSound_grantsKept inp s).lowers.trans (readSupply_coreKept _ _ _).lowers
  unfold houseBlock
  generalize overScreens finishFade (readSupply inp.supply1 inp.supply2 (afterSound inp s)) = u at ended
  have marked : CoreKept u { u with blockClosed := false, intervalTaken := false, measureStepped := false } :=
    .of_fields rfl rfl rfl
  exact ended.trans marked.lowers

theorem evacuate_lowers (c : Screen) : c.Lowers c.evacuate := by
  unfold Screen.evacuate
  split
  · next playing =>
    refine ⟨heldRightly_of_used ?_ rfl rfl, .inr ⟨rfl, rfl⟩⟩
    revert playing
    cases c.state <;> decide
  · exact Screen.CoreAlike.lowers ⟨rfl, rfl, rfl⟩

theorem evacuate_not_playing (c : Screen) : c.evacuate.state.playing = false := by
  unfold Screen.evacuate
  split
  · rfl
  · next h => exact Bool.eq_false_iff.2 h

theorem assertEvac_lowers (s : State) : Lowers s (assertEvac s) := by
  have moved : Lowers s { s with evac := true, screens := s.screens.map Screen.evacuate } := by
    refine ⟨fun _ _ n => ?_, rfl, fun n => ?_⟩
    · rw [Tab.get_map]
      exact evacuate_not_playing _
    · rw [Tab.get_map]
      exact evacuate_lowers _
  unfold assertEvac
  dsimp only
  refine .trans ?_ (recompute_coreKept _ _).lowers
  refine .trans ?_ (clearCalibrationTones_grantsKept _).lowers
  refine .trans ?_ (abortMeasurement_grantsKept _ _).lowers
  refine .trans ?_ (notifyChanges_grantsKept _ _ _).lowers
  refine .trans ?_ (notify_grantsKept _ _).lowers
  exact moved.trans (formLines_grantsKept _).lowers

theorem clearPaths_grantsKept (n : Fin 12) (s : State) : GrantsKept s (clearPaths n s) := .of_fields rfl rfl rfl rfl rfl

/-- What DISABLE leaves of the shows and the draws before it clears the screen's fields. -/
theorem beforeClear_grantsKept (n : Fin 12) (s : State) :
    GrantsKept s (linesOff n (rearmAll n (clearPaths n (clearBase n s)))) := by
  have off : ∀ u, GrantsKept u (linesOff n u) := fun u => .of_fields rfl rfl rfl rfl rfl
  refine .trans ?_ (off _)
  refine .trans ?_ (.overList (fun e t => (rearm_cueKept e t).grantsKept) _ _)
  exact (clearBase_grantsKept n s).trans (clearPaths_grantsKept n _)

theorem disabled_lowers (n : Fin 12) (station : Fin 16) (s : State) : Lowers s (disabled n station s) := by
  have cleared : ∀ u, Lowers u (clearScreen n u) := fun u => by
    refine (beforeClear_grantsKept n u).lowers.trans ?_
    unfold clearScreen
    dsimp only
    generalize linesOff n (rearmAll n (clearPaths n (clearBase n u))) = v
    have off : Lowers v (v.modScreen n Screen.disable) :=
      modScreen_lowers ⟨fun _ => heldRightly_of_dark (.inr rfl) rfl, .inr ⟨rfl, rfl⟩⟩ fun h => by cases h
    exact ⟨off.evac, off.counter, off.screen⟩
  unfold disabled
  refine .trans ?_ (notifyShow_grantsKept ..).lowers
  exact (withdrawAlarms_grantsKept n s).lowers.trans (cleared _)

theorem moveShow_lowers {n : Fin 12} {f : Screen → Screen} {s : State} (ev : CueEvent) (station : Fin 16)
    (hc : (s.screens.get n).state.playing = true) (hf : (f (s.screens.get n)).state.playing = true)
    (hh : ∀ c, (f c).holder = c.holder ∧ (f c).stamp = c.stamp) : Lowers s (moveShow n ev station f s) := by
  have used : ∀ x : ShowState, x.playing = true → x.used = true ∧ x.demands = true := fun x => by cases x <;> decide
  have moved : Lowers s (s.modScreen n f) :=
    modScreen_lowers ⟨heldRightly_of_used (used _ hc).1 (used _ hf).1 (hh _).1,
      .inl ⟨(hh _).2, by rw [(used _ hf).2, (used _ hc).2]⟩⟩ fun _ => hc
  unfold moveShow
  refine .trans ?_ (fireState_cueKept n ev _).grantsKept.lowers
  exact moved.trans (notifyShow_grantsKept ..).lowers

theorem setBudget_coreKept (b : Budget) (s : State) : CoreKept s (setBudget b s) := by
  have stored : CoreKept s { s with budget := b } := .of_fields rfl rfl rfl
  unfold setBudget
  dsimp only
  split
  · exact stored
  · exact stored.trans (recompute_coreKept _ _)

theorem applyConfig_coreKept (n : Fin 12) (c : ScreenConfig) (s : State) : CoreKept s (applyConfig n c s) := by
  have moved : CoreKept s (if c.lipSync = (s.screens.get n).config.lipSync then s
      else reallocate (s.lipChanges n c.lipSync) s) := by
    split
    · exact .refl s
    · exact (reallocate_grantsKept _ s).toCoreKept
  unfold applyConfig
  dsimp only
  have set := moved.trans (modScreen_grantsKept n (fun x => { x with config := c }) _).toCoreKept
  split
  · exact set.trans (recompute_coreKept _ _)
  · exact set

end Sys2Proof.Machine
end

section
/-! The moves by which screens enter demand: the stamps they take, and the laws of holding, of EVAC and of the stamps
settled over every move. -/

namespace Sys2Proof.Machine

/-! ### Renumbering -/

theorem filter_length_lt {α : Type} {l : List α} {p q : α → Bool} (h : ∀ x ∈ l, p x = true → q x = true) {a : α}
    (ha : a ∈ l) (hq : q a = true) (hp : p a = false) : (l.filter p).length < (l.filter q).length := by
  have sub : (l.filter p).Sublist (l.filter q) := by
    have both : l.filter p = (l.filter q).filter p := by
      rw [List.filter_filter]
      refine List.filter_congr fun x hx => ?_
      cases hpx : p x with
      | false => rfl
      | true => rw [h x hx hpx]; rfl
    rw [both]
    exact List.filter_sublist
  refine lt_of_le_of_ne sub.length_le fun e => ?_
  have mem : a ∈ l.filter p := sub.eq_of_length e ▸ List.mem_filter.2 ⟨ha, hq⟩
  rw [(List.mem_filter.1 mem).2] at hp
  cases hp

/-- The number of stamps held. -/
def State.stampsHeld (s : State) : Nat :=
  ((List.finRange 12).filter fun n => decide ((s.screens.get n).stamp ≠ 0)).length

theorem stampsHeld_le (s : State) : s.stampsHeld ≤ 12 :=
  (List.length_filter_le _ _).trans (List.length_finRange).le

theorem stampsBelow_lt {s : State} {n : Fin 12} {y : Nat} (hn : (s.screens.get n).stamp ≠ 0)
    (h : (s.screens.get n).stamp < y) : s.stampsBelow (s.screens.get n).stamp < s.stampsBelow y := by
  refine filter_length_lt (fun m _ hm => ?_) (List.mem_finRange n) (decide_eq_true ⟨hn, h⟩)
    (decide_eq_false fun hm => lt_irrefl _ hm.2)
  obtain ⟨held, below⟩ := of_decide_eq_true hm
  exact decide_eq_true ⟨held, below.trans h⟩

theorem stampsBelow_lt_held {s : State} {n : Fin 12} (hn : (s.screens.get n).stamp ≠ 0) :
    s.stampsBelow (s.screens.get n).stamp < s.stampsHeld :=
  filter_length_lt (fun _ _ hm => decide_eq_true (of_decide_eq_true hm).1) (List.mem_finRange n) (decide_eq_true hn)
    (decide_eq_false fun hm => lt_irrefl _ hm.2)

theorem stampsBelow_lt_iff {s : State} {n m : Fin 12} (hn : (s.screens.get n).stamp ≠ 0)
    (hm : (s.screens.get m).stamp ≠ 0) :
    s.stampsBelow (s.screens.get n).stamp < s.stampsBelow (s.screens.get m).stamp ↔
      (s.screens.get n).stamp < (s.screens.get m).stamp := by
  refine ⟨fun h => ?_, stampsBelow_lt hn⟩
  by_contra above
  rcases lt_or_eq_of_le (not_lt.1 above) with less | same
  · exact absurd h (stampsBelow_lt hm less).not_gt
  · rw [same] at h
    exact lt_irrefl _ h

theorem renumber_screen (s : State) (n : Fin 12) :
    (renumber s).screens.get n =
      { s.screens.get n with
        stamp := if (s.screens.get n).stamp = 0 then 0 else s.stampsBelow (s.screens.get n).stamp + 1 } := by
  simp only [renumber, Tab.get_map]
  split
  · next h => rw [← h]
  · rfl

theorem renumber_stamp (s : State) (n : Fin 12) :
    ((renumber s).screens.get n).stamp =
      if (s.screens.get n).stamp = 0 then 0 else s.stampsBelow (s.screens.get n).stamp + 1 := by
  rw [renumber_screen]

theorem renumber_stamp_ne {s : State} {n : Fin 12} :
    ((renumber s).screens.get n).stamp ≠ 0 ↔ (s.screens.get n).stamp ≠ 0 := by
  rw [renumber_stamp]
  split <;> simp [*]

theorem renumber_stamp_lt {s : State} {n m : Fin 12} (hn : (s.screens.get n).stamp ≠ 0)
    (hm : (s.screens.get m).stamp ≠ 0) :
    ((renumber s).screens.get n).stamp < ((renumber s).screens.get m).stamp ↔
      (s.screens.get n).stamp < (s.screens.get m).stamp := by
  rw [renumber_stamp, renumber_stamp, if_neg hn, if_neg hm, Nat.add_lt_add_iff_right, stampsBelow_lt_iff hn hm]

theorem renumber_counter (s : State) : (renumber s).stampCounter = s.stampsHeld := rfl

theorem renumber_stampLaw {s : State} (h : StampLaw s) : StampLaw (renumber s) := by
  obtain ⟨-, held, -, apart⟩ := h
  refine ⟨?_, fun n => ?_, fun n => ?_, fun n m hn e => ?_⟩
  · rw [renumber_counter]
    exact (stampsHeld_le s).trans (by decide)
  · rw [renumber_stamp_ne, held n, renumber_screen]
  · rw [renumber_counter, renumber_stamp]
    split
    · exact Nat.zero_le _
    · next hn => exact stampsBelow_lt_held hn
  · have hm : (s.screens.get m).stamp ≠ 0 := renumber_stamp_ne.1 (e ▸ hn)
    have hn := renumber_stamp_ne.1 hn
    refine apart n m hn (le_antisymm ?_ ?_)
    · exact not_lt.1 fun less => absurd e ((renumber_stamp_lt hm hn).2 less).ne'
    · exact not_lt.1 fun less => absurd e ((renumber_stamp_lt hn hm).2 less).ne

/-! ### Screens that enter demand -/

/-- The stamps held stay held in their order, and those newly taken are above them. -/
structure StampsFollow (s t : State) : Prop where
  held : ∀ n, (s.screens.get n).stamp ≠ 0 → (t.screens.get n).stamp ≠ 0
  order : ∀ n m, (s.screens.get n).stamp ≠ 0 → (s.screens.get m).stamp ≠ 0 →
    ((t.screens.get n).stamp < (t.screens.get m).stamp ↔ (s.screens.get n).stamp < (s.screens.get m).stamp)
  above : ∀ n m, (s.screens.get n).stamp ≠ 0 → (s.screens.get m).stamp = 0 → (t.screens.get m).stamp ≠ 0 →
    (t.screens.get n).stamp < (t.screens.get m).stamp

/-- Screens may enter demand, with stamps above those held. -/
structure Raises (s t : State) : Prop where
  evac : EvacLaw s → EvacLaw t
  held : ∀ n, (s.screens.get n).heldRightly → (t.screens.get n).heldRightly
  stamps : StampLaw s → StampLaw t ∧ StampsFollow s t

theorem StampsFollow.trans {s t u : State} (h : StampsFollow s t) (h' : StampsFollow t u) : StampsFollow s u := by
  refine ⟨fun n hn => h'.held n (h.held n hn), fun n m hn hm => ?_, fun n m hn hm hu => ?_⟩
  · rw [h'.order n m (h.held n hn) (h.held m hm), h.order n m hn hm]
  · by_cases ht : (t.screens.get m).stamp = 0
    · exact h'.above n m (h.held n hn) ht hu
    · exact (h'.order n m (h.held n hn) ht).2 (h.above n m hn hm ht)

theorem StampsFollow.of_stamps {s t : State} (h : ∀ n, (t.screens.get n).stamp = (s.screens.get n).stamp) :
    StampsFollow s t := by
  refine ⟨fun n hn => by rwa [h n], fun n m _ _ => by rw [h n, h m], fun n m _ hm ht => ?_⟩
  rw [h m] at ht
  exact absurd hm ht

theorem Raises.trans {s t u : State} (h : Raises s t) (h' : Raises t u) : Raises s u := by
  refine ⟨fun hs => h'.evac (h.evac hs), fun n hn => h'.held n (h.held n hn), fun hs => ?_⟩
  obtain ⟨lawful, follow⟩ := h.stamps hs
  obtain ⟨lawful', follow'⟩ := h'.stamps lawful
  exact ⟨lawful', follow.trans follow'⟩

theorem stampLaw_of_coreKept {s t : State} (h : CoreKept s t) (hs : StampLaw s) : StampLaw t := by
  obtain ⟨bound, held, below, apart⟩ := hs
  refine ⟨h.counter ▸ bound, fun n => ?_, fun n => ?_, fun n m => ?_⟩
  · rw [h.stamp, h.state]
    exact held n
  · rw [h.stamp, h.counter]
    exact below n
  · rw [h.stamp, h.stamp]
    exact apart n m

theorem CoreKept.raises {s t : State} (h : CoreKept s t) : Raises s t :=
  ⟨evacLaw_of_coreKept h, fun n => heldRightly_congr (h.state n) (h.holder n), fun hs =>
    ⟨stampLaw_of_coreKept h hs, .of_stamps h.stamp⟩⟩

theorem raises_laneSteps : LaneSteps Raises := laneSteps_of_grantsKept (fun h => h.toCoreKept.raises) Raises.trans

theorem Raises.overScreens {f : Fin 12 → State → State} (h : ∀ n t, Raises t (f n t)) (s : State) :
    Raises s (overScreens f s) :=
  overScreens_induct (P := Raises s) (CoreKept.refl s).raises fun n t ht => ht.trans (h n t)

/-- The counter's next value goes to a screen. -/
def nextStamp (n : Fin 12) (s : State) : State :=
  ({ s with stampCounter := s.stampCounter + 1 }).modScreen n fun c => { c with stamp := s.stampCounter + 1 }

/-- The state whose counter gives the stamp: renumbered at the counter's end (01 R11). -/
def stampBase (s : State) : State := if s.stampCounter = Config.maxStamp then renumber s else s

theorem takeStamp_eq (n : Fin 12) (s : State) : takeStamp n s = nextStamp n (stampBase s) := rfl

theorem stampBase_stampLaw {s : State} (h : StampLaw s) :
    StampLaw (stampBase s) ∧ StampsFollow s (stampBase s) ∧ (stampBase s).stampCounter < Config.maxStamp := by
  unfold stampBase
  split
  · refine ⟨renumber_stampLaw h, ⟨fun n => renumber_stamp_ne.2, fun n m => renumber_stamp_lt, fun n m _ hm ht => ?_⟩, ?_⟩
    · exact absurd hm (renumber_stamp_ne.1 ht)
    · rw [renumber_counter]
      exact (stampsHeld_le s).trans_lt (by decide)
  · next below => exact ⟨h, .of_stamps fun _ => rfl, lt_of_le_of_ne h.1 below⟩

theorem stampBase_show (s : State) (n : Fin 12) :
    ((stampBase s).screens.get n).state = (s.screens.get n).state ∧
      ((stampBase s).screens.get n).holder = (s.screens.get n).holder := by
  unfold stampBase
  split
  · rw [renumber_screen]
    exact ⟨rfl, rfl⟩
  · exact ⟨rfl, rfl⟩

theorem stampBase_evac (s : State) : (stampBase s).evac = s.evac := by
  unfold stampBase
  split <;> rfl

/-- A screen that takes a stamp and then changes. -/
def entering (n : Fin 12) (f : Screen → Screen) (s : State) : State := (takeStamp n s).modScreen n f

theorem entering_screen (n : Fin 12) (f : Screen → Screen) (s : State) (m : Fin 12) :
    (entering n f s).screens.get m =
      if n = m then f { (stampBase s).screens.get m with stamp := (stampBase s).stampCounter + 1 }
      else (stampBase s).screens.get m := by
  rw [entering, takeStamp_eq, modScreen_screens, Tab.get_modify, nextStamp, modScreen_screens, Tab.get_modify,
    Tab.get_modify]
  by_cases h : n = m
  · subst h
    simp only [if_pos]
  · simp only [if_neg h]

theorem entering_counter (n : Fin 12) (f : Screen → Screen) (s : State) :
    (entering n f s).stampCounter = (stampBase s).stampCounter + 1 := rfl

theorem entering_evac (n : Fin 12) (f : Screen → Screen) (s : State) : (entering n f s).evac = s.evac :=
  stampBase_evac s

section
variable {n : Fin 12} {f : Screen → Screen} {s : State} (idle : (s.screens.get n).state.demands = false)
  (enters : ∀ c, (f c).state.demands = true) (keeps : ∀ c, (f c).stamp = c.stamp)
include idle enters keeps

/-- A screen outside demand enters it with the stamp after the counter: the law of the stamps holds, and its stamp is above
those held. -/
theorem entering_stampLaw (h : StampLaw s) : StampLaw (entering n f s) ∧ StampsFollow s (entering n f s) := by
  obtain ⟨⟨-, held, below, apart⟩, follow, room⟩ := stampBase_stampLaw h
  have free : ((stampBase s).screens.get n).stamp = 0 := by
    by_contra hn
    have busy := (held n).1 hn
    rw [(stampBase_show s n).1, idle] at busy
    cases busy
  have own : ((entering n f s).screens.get n).stamp = (stampBase s).stampCounter + 1 := by
    rw [entering_screen, if_pos rfl, keeps]
  have other : ∀ m, n ≠ m → (entering n f s).screens.get m = (stampBase s).screens.get m := fun m hm => by
    rw [entering_screen, if_neg hm]
  have busy : ∀ m, ((stampBase s).screens.get m).stamp ≠ 0 → n ≠ m := fun m hm e => hm (e ▸ free)
  refine ⟨⟨room, fun m => ?_, fun m => ?_, fun m k hm e => ?_⟩, follow.trans ⟨fun m hm => ?_, fun m k hm hk => ?_, ?_⟩⟩
  · by_cases hm : n = m
    · subst hm
      rw [own, entering_screen, if_pos rfl, enters]
      simp
    · rw [other m hm]
      exact held m
  · rw [entering_counter]
    by_cases hm : n = m
    · exact hm ▸ own.le
    · rw [other m hm]
      exact (below m).trans (Nat.le_succ _)
  · by_cases hn : n = m
    · by_cases hk : n = k
      · exact hn ▸ hk
      · subst hn
        rw [own, other k hk] at e
        exact absurd (below k) (by omega)
    · by_cases hk : n = k
      · subst hk
        rw [own, other m hn] at e
        exact absurd (below m) (by omega)
      · rw [other m hn] at hm e
        rw [other k hk] at e
        exact apart m k hm e
  · rw [other m (busy m hm)]
    exact hm
  · rw [other m (busy m hm), other k (busy k hk)]
  · intro m k hm hk ht
    rw [other m (busy m hm)]
    by_cases hn : n = k
    · subst hn
      rw [own]
      exact Nat.lt_succ_of_le (below m)
    · rw [other k hn] at ht
      exact absurd hk ht

/-- A screen enters demand outside EVAC, held rightly in its new state. -/
theorem entering_raises (quiet : s.evac = false)
    (rightly : ∀ c : Screen, c.state = (s.screens.get n).state → c.holder = (s.screens.get n).holder →
      c.heldRightly → (f c).heldRightly) : Raises s (entering n f s) := by
  refine ⟨fun _ active => ?_, fun m hm => ?_, entering_stampLaw idle enters keeps⟩
  · rw [entering_evac, quiet] at active
    cases active
  · rw [entering_screen]
    split
    · next e =>
      subst e
      exact rightly _ (stampBase_show s _).1 (stampBase_show s _).2
        (heldRightly_congr (stampBase_show s _).1 (stampBase_show s _).2 hm)
    · exact heldRightly_congr (stampBase_show s m).1 (stampBase_show s m).2 hm
end

/-! ### The moves that raise -/

theorem candidate_eq (n : Fin 12) (state : ShowState) (holder : Option (Fin 16)) (s : State) :
    candidate n state holder s = entering n (fun c => { c with state, holder }) s := rfl

theorem startRefusal_quiet {s : State} {n : Fin 12} (h : s.startRefusal n = none) :
    s.evac = false ∧ (s.lanes.get (programLane n)).delivering = true := by
  unfold State.startRefusal at h
  split at h
  · cases h
  · next quiet =>
    split at h
    · cases h
    · next delivers => exact ⟨by simpa using quiet, by simpa using delivers⟩

theorem judgeStart_raises {n : Fin 12} {s t : State} (armed : (s.screens.get n).state = .armed)
    (h : judgeStart n s = .inr t) : Raises s t := by
  obtain ⟨free, -, eq⟩ := judgeStart_inr h
  have enters : Raises s (candidate n .show (s.screens.get n).holder s) :=
    entering_raises (by rw [armed]; rfl) (fun _ => rfl) (fun _ => rfl) (startRefusal_quiet free).1
      fun c hs hh => heldRightly_of_used (by rw [hs, armed]; rfl) rfl hh.symm
  rw [eq]
  refine .trans ?_ (startEffects_grantsKept n _).raises
  exact enters.trans (recompute_coreKept _ _).raises

theorem autoStart_raises {n : Fin 12} {s : State} (armed : (s.screens.get n).state = .armed) : Raises s (autoStart n s) := by
  unfold autoStart
  split
  · exact (notifyShow_grantsKept ..).raises
  · exact (judgeStart_raises armed ‹_›).trans (notifyShow_grantsKept ..).raises

theorem attemptsStart_armed {w : SideWord} {c : Screen} (h : c.attemptsStart w = true) : c.state = .armed := by
  simp only [Screen.attemptsStart, Bool.and_eq_true, decide_eq_true_eq] at h
  exact h.1.2

theorem screenTakesWord_raises (n : Fin 12) (w : SideWord) (s : State) : Raises s (screenTakesWord n w s) := by
  unfold screenTakesWord
  dsimp only
  refine .trans ?_ (modScreen_grantsKept n _ _).raises
  split
  · exact autoStart_raises (attemptsStart_armed ‹_›)
  · exact (CoreKept.refl s).raises

theorem laneBlock_raises (l : Fin 14) (b : LaneBlock) (k : Nat) (last : Bool) (s : State) :
    Raises s (laneBlock l b k last s) :=
  laneBlock_related raises_laneSteps screenTakesWord_raises l b k last s

theorem calibrating_raises {n : Fin 12} {station : Fin 16} {s t : State} (right : allowed 4 station = true)
    (dark : (s.screens.get n).state = .dark) (quiet : s.evac = false)
    (h : enterDemand n .calibrating (some station) s = some t) : Raises s t := by
  have service : ∀ k : Fin 16, allowed 4 k = true → roleOf k = .service := by decide
  have enters : Raises s (candidate n .calibrating (some station) s) :=
    entering_raises (by rw [dark]; rfl) (fun _ => rfl) (fun _ => rfl) quiet fun _ _ _ _ =>
      ⟨station, rfl, service station right⟩
  rw [(enterDemand_eq h).2]
  exact enters.trans (recompute_coreKept _ _).raises

theorem returnScreen_raises {n : Fin 12} {s : State} (quiet : s.evac = false) :
    Raises s (returnScreen n s) ∧ (returnScreen n s).evac = false := by
  unfold returnScreen
  split
  · next evacuated =>
    exact ⟨entering_raises (by rw [evacuated]; rfl) (fun _ => rfl) (fun _ => rfl) quiet fun c hs _ =>
      heldRightly_of_used (by rw [hs, evacuated]; rfl) rfl rfl, (entering_evac ..).trans quiet⟩
  · exact ⟨(CoreKept.refl s).raises, quiet⟩

theorem releaseEvac_raises (s : State) : Raises s (releaseEvac s) := by
  have quiet : Raises s { s with evac := false } :=
    ⟨fun _ active => Bool.noConfusion active, fun _ h => h, fun h => ⟨h, .of_stamps fun _ => rfl⟩⟩
  have returned : Raises { s with evac := false } (overScreens returnScreen { s with evac := false }) ∧
      (overScreens returnScreen { s with evac := false }).evac = false :=
    overScreens_induct (P := fun t => Raises { s with evac := false } t ∧ t.evac = false)
      ⟨(CoreKept.refl _).raises, rfl⟩ fun n t ht =>
      ⟨ht.1.trans (returnScreen_raises ht.2).1, (returnScreen_raises ht.2).2⟩
  unfold releaseEvac
  dsimp only
  refine .trans ?_ (recompute_coreKept _ _).raises
  refine .trans ?_ (notifyChanges_grantsKept _ _ _).raises
  refine .trans ?_ (notify_grantsKept _ _).raises
  exact (quiet.trans returned.1).trans (formLines_grantsKept _).raises

/-! ### Every move -/

/-- The stamps that screens hold before and after keep their order, and one newly taken is above those held through. -/
def StampsOrdered (s t : State) : Prop :=
  (∀ n m, (s.screens.get n).stamp ≠ 0 → (s.screens.get m).stamp ≠ 0 → (t.screens.get n).stamp ≠ 0 →
    (t.screens.get m).stamp ≠ 0 →
    ((t.screens.get n).stamp < (t.screens.get m).stamp ↔ (s.screens.get n).stamp < (s.screens.get m).stamp)) ∧
  (∀ n m, (s.screens.get n).stamp ≠ 0 → (t.screens.get n).stamp ≠ 0 → (s.screens.get m).stamp = 0 →
    (t.screens.get m).stamp ≠ 0 → (t.screens.get n).stamp < (t.screens.get m).stamp)

/-- A move keeps the laws of holding, of EVAC and of the stamps. -/
structure ShowsLawful (s t : State) : Prop where
  holding : HoldingLaw s → EvacLaw s → HoldingLaw t ∧ EvacLaw t
  stamps : StampLaw s → StampLaw t ∧ StampsOrdered s t

theorem Raises.showsLawful {s t : State} (h : Raises s t) : ShowsLawful s t := by
  refine ⟨fun held quiet => ⟨fun n => h.held n (held n), h.evac quiet⟩, fun hs => ?_⟩
  obtain ⟨lawful, follow⟩ := h.stamps hs
  exact ⟨lawful, fun n m hn hm _ _ => follow.order n m hn hm, fun n m hn _ hm ht => follow.above n m hn hm ht⟩

theorem Lowers.stamp_eq {s t : State} (h : Lowers s t) {n : Fin 12} (hn : (t.screens.get n).stamp ≠ 0) :
    (t.screens.get n).stamp = (s.screens.get n).stamp := by
  rcases (h.screen n).stamp with ⟨same, -⟩ | ⟨dropped, -⟩
  · exact same
  · exact absurd dropped hn

theorem Lowers.showsLawful {s t : State} (h : Lowers s t) : ShowsLawful s t := by
  refine ⟨fun held quiet => ⟨fun n => (h.screen n).held (held n), h.evac quiet⟩, fun ⟨bound, held, below, apart⟩ => ?_⟩
  refine ⟨⟨h.counter ▸ bound, fun n => ?_, fun n => ?_, fun n m hn e => ?_⟩, fun n m _ _ hn hm => ?_, fun n m _ _ hm ht => ?_⟩
  · rcases (h.screen n).stamp with ⟨same, demand⟩ | ⟨dropped, idle⟩
    · rw [same, demand]
      exact held n
    · rw [dropped, idle]
      simp
  · rw [h.counter]
    rcases (h.screen n).stamp with ⟨same, -⟩ | ⟨dropped, -⟩
    · exact same ▸ below n
    · exact dropped ▸ Nat.zero_le _
  · have hm : (t.screens.get m).stamp ≠ 0 := e ▸ hn
    have kept := h.stamp_eq hn
    rw [h.stamp_eq hm, kept] at e
    exact apart n m (kept ▸ hn) e
  · rw [h.stamp_eq hn, h.stamp_eq hm]
  · rw [h.stamp_eq ht] at ht
    exact absurd hm ht

/-- Screens that are all OFFLINE have no holder. -/
theorem holdingAndEvac_of_offline {t : State} (hs : ∀ n, t.screens.get n = Screen.reset) : HoldingLaw t ∧ EvacLaw t := by
  refine ⟨fun n => ?_, fun _ n => ?_⟩
  · rw [hs]
    exact heldRightly_of_dark (.inr rfl) rfl
  · rw [hs]
    rfl

theorem stampLaw_of_offline {t : State} (hs : ∀ n, t.screens.get n = Screen.reset) (hc : t.stampCounter = 0) :
    StampLaw t := by
  refine ⟨?_, fun n => ?_, fun n => ?_, fun n _ hn => ?_⟩
  · rw [hc]
    exact Nat.zero_le _
  · rw [hs]
    decide
  · rw [hs]
    exact Nat.zero_le _
  · rw [hs] at hn
    exact absurd rfl hn

/-- After a reset every screen is OFFLINE with no holder and no stamp. -/
theorem showsLawful_of_offline {s t : State} (hs : ∀ n, t.screens.get n = Screen.reset) (hc : t.stampCounter = 0) :
    ShowsLawful s t := by
  have zero : ∀ n, (t.screens.get n).stamp = 0 := fun n => by rw [hs]; rfl
  refine ⟨fun _ _ => holdingAndEvac_of_offline hs, fun _ => ⟨stampLaw_of_offline hs hc, ?_, ?_⟩⟩
  · exact fun n _ _ _ hn _ => absurd (zero n) hn
  · exact fun n _ _ hn _ _ => absurd (zero n) hn

theorem powerOn_screen (lines : SiteLines) (n : Fin 12) : (State.powerOn lines).screens.get n = Screen.reset :=
  Tab.get_fill ..

theorem Moves.showsLawful {i : Instr} {s t : State} (hm : Moves i s t) : ShowsLawful s t := by
  by_cases hi : movesShow i = false
  · exact (hm.grantsKept hi).lowers.showsLawful
  have user : ∀ k : Fin 16, allowed 3 k = true → roleOf k ≠ .service := by decide
  have manager : ∀ k : Fin 16, isManagement k = true → roleOf k ≠ .service := by decide
  cases hm with
  | powerOn lines => exact showsLawful_of_offline (powerOn_screen lines) rfl
  | restart port a b => exact showsLawful_of_offline (powerOn_screen ⟨s.evac, a, b⟩) rfl
  | evacAsserted => exact (assertEvac_lowers s).showsLawful
  | evacReleased => exact (releaseEvac_raises s).showsLawful
  | houseBlock inp => exact (houseBlock_lowers inp s).showsLawful
  | referenceLost inp =>
    exact ((houseBlock_lowers inp s).trans (changeClock_grantsKept _ _ _).lowers).showsLawful
  | fadeCompletion done => exact (completeFade_lowers done).showsLawful
  | laneBlock l b k x => exact (laneBlock_raises l b k x s).showsLawful
  | automaticStart e => exact (laneBlock_raises ..).showsLawful
  | enable off =>
    refine Lowers.showsLawful (.trans (modScreen_lowers ⟨fun _ => heldRightly_of_dark (.inl rfl) rfl, .inl ⟨rfl, ?_⟩⟩ ?_)
      (notifyShow_grantsKept ..).lowers)
    · rw [off]
      rfl
    · exact fun h => by cases h
  | disable => exact (disabled_lowers ..).showsLawful
  | hold right free dark =>
    refine Lowers.showsLawful (.trans (.trans (modScreen_lowers ⟨fun _ => ?_, .inl ⟨rfl, ?_⟩⟩ ?_)
      (clearBase_grantsKept ..).lowers) (notifyShow_grantsKept ..).lowers)
    · exact heldRightly_of_user (by simp) (by simp) (by simp) rfl (user _ right)
    · rw [dark]
      rfl
    · exact fun h => by cases h
  | calibrate right free dark quiet entered =>
    refine Raises.showsLawful (.trans ?_ (notifyShow_grantsKept ..).raises)
    exact ((calibrating_raises right dark quiet entered).trans (clearBase_grantsKept ..).raises).trans
      (withdrawAlarms_grantsKept ..).raises
  | release => exact (release_lowers ..).showsLawful
  | @takeOver _ _ n _ managed busy =>
    have used : (s.screens.get n).state.used = true := by
      rcases busy with playing | evacuated
      · revert playing
        cases (s.screens.get n).state <;> decide
      · rw [evacuated]
        rfl
    refine Lowers.showsLawful (.trans (modScreen_lowers ⟨fun _ => ?_, .inl ⟨rfl, rfl⟩⟩ fun h => h)
      (notifyShow_grantsKept ..).lowers)
    exact heldRightly_of_user (fun e => by rw [show _ = _ from e] at used; cases used)
      (fun e => by rw [show _ = _ from e] at used; cases used) (fun e => by rw [show _ = _ from e] at used; cases used)
      rfl (manager _ managed)
  | start armed judged => exact ((judgeStart_raises armed judged).trans (notifyShow_grantsKept ..).raises).showsLawful
  | pause shows =>
    exact (moveShow_lowers (f := fun c => { c with state := .paused }) _ _ (by rw [shows]; rfl) rfl fun _ =>
      ⟨rfl, rfl⟩).showsLawful
  | resume paused =>
    exact (moveShow_lowers (f := fun c => { c with state := .show }) _ _ (by rw [paused]; rfl) rfl fun _ =>
      ⟨rfl, rfl⟩).showsLawful
  | endShow r shows =>
    refine (moveShow_lowers (f := Screen.beginFade r) _ _ ?_ rfl fun _ => ⟨rfl, rfl⟩).showsLawful
    rcases shows with e | e <;> rw [e] <;> rfl
  | screenSet c => exact (applyConfig_coreKept ..).lowers.showsLawful
  | budgetSet b => exact (setBudget_coreKept b s).lowers.showsLawful
  | _ => exact absurd rfl hi

/-- A relation that every move has, and that the ports and the queue of commands do not matter to, every step has. -/
theorem step_related {R : State → State → Prop} {s t : State} (same : ∀ u, R u u)
    (hports : ∀ u v p q, R { u with ports := p } v → R u { v with ports := q })
    (hpending : ∀ u v l, R { u with pending := l } v → R u v) (hmove : ∀ i u v, Moves i u v → R u v)
    (ht : step s = .next t) : R s t := by
  unfold step at ht
  split at ht
  · injection ht with ht
    exact ht ▸ same s
  · obtain ⟨u, v, ⟨⟨p, rfl⟩, -⟩, moved, ⟨⟨q, rfl⟩, -⟩⟩ := exec_stepped ht
    rename_i rest _
    refine hpending s _ rest (hports { s with pending := rest } v p q ?_)
    rcases moved with rfl | moved
    · exact same _
    · exact hmove _ _ _ moved

theorem step_showsLawful {s t : State} (ht : step s = .next t) : ShowsLawful s t :=
  step_related (R := ShowsLawful) (fun u => (CoreKept.refl u).lowers.showsLawful) (fun _ _ _ _ h => ⟨h.holding, h.stamps⟩)
    (fun _ _ _ h => ⟨h.holding, h.stamps⟩) (fun _ _ _ h => h.showsLawful) ht

/-- Settles O52, move by move: a screen enters a held state under a station of the role that may hold it, and shows begin
and return only outside EVAC. -/
theorem holdingAndEvacLawsKept : Obligations.HoldingAndEvacLawsKept := fun _ _ held quiet ht =>
  (step_showsLawful ht).holding held quiet

/-- Settles O53: a screen that leaves demand gives its stamp up, and one that enters takes the counter's next value, above
every stamp held; renumbering keeps their order. -/
theorem stampLawKept : Obligations.StampLawKept := by
  refine ⟨fun s t h ht => ?_, fun n s => ⟨fun (below : s.stampCounter ≠ Config.maxStamp) => ?_,
    fun (full : s.stampCounter = Config.maxStamp) => ?_⟩, fun s => ⟨renumber_screen s, rfl⟩,
    fun _ _ _ _ => rfl⟩
  · obtain ⟨lawful, order, above⟩ := (step_showsLawful ht).stamps h
    exact ⟨lawful, order, above⟩
  · rw [takeStamp_eq, stampBase, if_neg below]
    rfl
  · have room : (renumber s).stampCounter ≠ Config.maxStamp := ne_of_lt <| by
      rw [renumber_counter]
      exact (stampsHeld_le s).trans_lt (by decide)
    rw [takeStamp_eq, takeStamp_eq, stampBase, stampBase, if_pos full, if_neg room]

end Sys2Proof.Machine
end

section
/-! The law of the grants (08 R144), move by move: a move that reaches the demand, the draws or the supply ends in a
recompute. Then what the computation itself gives (08 R141, R143, R147, R148). -/

namespace Sys2Proof.Machine

/-! ### The law -/

theorem grantSum_eq (s : State) : s.grantSum = ((List.finRange 12).map fun n => (s.grants.get n).draw).sum := by
  unfold State.grantSum
  rw [Tab.items_eq, List.map_map]
  rfl

theorem powerLaw_recompute (c : PowerCause) (s : State) : PowerLaw (recompute c s) :=
  powerLaw_of_granted (recompute_granted c s)

theorem powerLaw_of_grantsKept {s t : State} (h : GrantsKept s t) (hs : PowerLaw s) : PowerLaw t := by
  obtain ⟨fits, idle⟩ := hs
  refine ⟨?_, fun n hn => ?_⟩
  · rw [grantSum_eq, h.available, List.map_congr_left fun n _ => h.draw n, ← grantSum_eq]
    exact fits
  · rw [h.draw]
    exact idle n (by rw [← h.state]; exact hn)

/-- A recompute with no change to shows and draws after it. -/
theorem powerLaw_after_recompute {c : PowerCause} {s t : State} (h : GrantsKept (recompute c s) t) : PowerLaw t :=
  powerLaw_of_grantsKept h (powerLaw_recompute c s)

theorem powerLaw_modScreen {n : Fin 12} {f : Screen → Screen} {s : State} (hs : PowerLaw s)
    (hf : (f (s.screens.get n)).state.demands = false → (s.screens.get n).state.demands = false) :
    PowerLaw (s.modScreen n f) := by
  obtain ⟨fits, idle⟩ := hs
  refine ⟨fits, fun m hm => idle m ?_⟩
  rw [modScreen_screens, Tab.get_modify] at hm
  split at hm
  · next e => exact e ▸ hf hm
  · exact hm

/-! ### The moves -/

theorem judgeStart_powerLaw {n : Fin 12} {s t : State} (h : judgeStart n s = .inr t) : PowerLaw t := by
  obtain ⟨-, -, eq⟩ := judgeStart_inr h
  rw [eq]
  exact powerLaw_after_recompute (startEffects_grantsKept n _)

theorem autoStart_powerLaw {n : Fin 12} {s : State} (hs : PowerLaw s) : PowerLaw (autoStart n s) := by
  unfold autoStart
  split
  · exact powerLaw_of_grantsKept (notifyShow_grantsKept ..) hs
  · exact powerLaw_of_grantsKept (notifyShow_grantsKept ..) (judgeStart_powerLaw ‹_›)

theorem screenTakesWord_powerLaw (n : Fin 12) (w : SideWord) (s : State) (hs : PowerLaw s) :
    PowerLaw (screenTakesWord n w s) := by
  unfold screenTakesWord
  dsimp only
  refine powerLaw_of_grantsKept (modScreen_grantsKept n _ _) ?_
  split
  · exact autoStart_powerLaw hs
  · exact hs

theorem laneBlock_powerLaw (l : Fin 14) (b : LaneBlock) (k : Nat) (last : Bool) (s : State) (hs : PowerLaw s) :
    PowerLaw (laneBlock l b k last s) :=
  laneBlock_related (R := fun s t => PowerLaw s → PowerLaw t)
    (laneSteps_of_grantsKept powerLaw_of_grantsKept fun h h' hs => h' (h hs)) screenTakesWord_powerLaw l b k last s hs

theorem completeFade_powerLaw (n : Fin 12) (s : State) : PowerLaw (completeFade n s) := by
  unfold completeFade
  dsimp only
  refine powerLaw_of_grantsKept (notifyShow_grantsKept ..) ?_
  refine powerLaw_of_grantsKept (fireState_cueKept n .endDone _).grantsKept ?_
  exact powerLaw_after_recompute (clearLoudTrim_grantsKept n _)

theorem finishFade_powerLaw (n : Fin 12) (s : State) (hs : PowerLaw s) : PowerLaw (finishFade n s) := by
  unfold finishFade
  split
  · exact completeFade_powerLaw n s
  · exact hs

theorem readSupply_powerLaw (a b : Bool) (s : State) (hs : PowerLaw s) : PowerLaw (readSupply a b s) := by
  unfold readSupply
  dsimp only
  split
  · next same =>
    refine powerLaw_of_grantsKept (s := s) ⟨.of_fields rfl rfl rfl, fun _ => rfl, ?_⟩ hs
    simp only [Budget.available, same]
    rfl
  · exact powerLaw_after_recompute (notify_grantsKept _ _)

theorem houseBlock_powerLaw (inp : BlockInputs) (s : State) (hs : PowerLaw s) : PowerLaw (houseBlock inp s) := by
  have ended : PowerLaw (overScreens finishFade (readSupply inp.supply1 inp.supply2 (afterSound inp s))) :=
    overScreens_induct (readSupply_powerLaw _ _ _ (powerLaw_of_grantsKept (afterSound_grantsKept inp s) hs))
      finishFade_powerLaw
  unfold houseBlock
  generalize overScreens finishFade (readSupply inp.supply1 inp.supply2 (afterSound inp s)) = u at ended
  exact ended

theorem release_powerLaw (n : Fin 12) (station : Fin 16) (s : State)
    (held : (s.screens.get n).state = .armed ∨ (s.screens.get n).state = .calibrating) (hs : PowerLaw s) :
    PowerLaw (release n station s) := by
  unfold release
  dsimp only
  refine powerLaw_of_grantsKept (notifyShow_grantsKept ..) ?_
  split
  · exact powerLaw_recompute _ _
  · next out =>
    have armed := held.resolve_right out
    refine powerLaw_of_grantsKept (withdrawAlarms_grantsKept n _) ?_
    refine powerLaw_of_grantsKept (clearBase_grantsKept n _) ?_
    exact powerLaw_modScreen hs fun _ => by rw [armed]; rfl

theorem disabled_powerLaw (n : Fin 12) (station : Fin 16) (s : State) (dark : (s.screens.get n).state = .dark)
    (hs : PowerLaw s) : PowerLaw (disabled n station s) := by
  unfold disabled
  refine powerLaw_of_grantsKept (notifyShow_grantsKept ..) ?_
  have kept := (withdrawAlarms_grantsKept n s).trans (beforeClear_grantsKept n _)
  unfold clearScreen
  dsimp only
  generalize linesOff n (rearmAll n (clearPaths n (clearBase n (withdrawAlarms n s)))) = v at kept
  have off : PowerLaw (v.modScreen n Screen.disable) :=
    powerLaw_modScreen (powerLaw_of_grantsKept kept hs) fun _ => by rw [kept.state, dark]; rfl
  refine powerLaw_of_grantsKept (s := v.modScreen n Screen.disable) ⟨.of_fields rfl rfl rfl, fun m => ?_, rfl⟩ off
  rw [modScreen_grants, Tab.get_modify]
  split
  · next e => exact e ▸ rfl
  · rfl

theorem setBudget_powerLaw (b : Budget) (s : State) (hs : PowerLaw s) : PowerLaw (setBudget b s) := by
  unfold setBudget
  dsimp only
  split
  · next same => exact powerLaw_of_grantsKept (s := s) ⟨.of_fields rfl rfl rfl, fun _ => rfl, same⟩ hs
  · exact powerLaw_recompute _ _

theorem applyConfig_powerLaw (n : Fin 12) (c : ScreenConfig) (s : State) (hs : PowerLaw s) :
    PowerLaw (applyConfig n c s) := by
  have moved : PowerLaw (if c.lipSync = (s.screens.get n).config.lipSync then s
      else reallocate (s.lipChanges n c.lipSync) s) := by
    split
    · exact hs
    · exact powerLaw_of_grantsKept (reallocate_grantsKept _ s) hs
  unfold applyConfig
  dsimp only
  split
  · exact powerLaw_recompute _ _
  · exact powerLaw_of_grantsKept (modScreen_grantsKept n (fun x => { x with config := c }) _) moved

theorem moveShow_powerLaw {n : Fin 12} {f : Screen → Screen} {s : State} (ev : CueEvent) (station : Fin 16)
    (hf : (f (s.screens.get n)).state.demands = true) (hs : PowerLaw s) : PowerLaw (moveShow n ev station f s) := by
  unfold moveShow
  refine powerLaw_of_grantsKept (fireState_cueKept n ev _).grantsKept ?_
  refine powerLaw_of_grantsKept (notifyShow_grantsKept ..) ?_
  exact powerLaw_modScreen hs fun idle => by rw [hf] at idle; cases idle

/-- After a reset nothing is granted. -/
theorem powerLaw_of_reset {s : State} (hg : ∀ n, s.grants.get n = Grant.reset) : PowerLaw s := by
  have none : ∀ n, (s.grants.get n).draw = 0 := fun n => by rw [hg]; rfl
  refine ⟨?_, fun n _ => none n⟩
  rw [grantSum_eq, List.map_congr_left fun n _ => none n]
  exact Nat.zero_le _

theorem powerOn_grant (lines : SiteLines) (n : Fin 12) : (State.powerOn lines).grants.get n = Grant.reset :=
  Tab.get_fill ..

theorem Moves.powerLaw {i : Instr} {s t : State} (hm : Moves i s t) (hs : PowerLaw s) : PowerLaw t := by
  by_cases hi : movesShow i = false
  · exact powerLaw_of_grantsKept (hm.grantsKept hi) hs
  cases hm with
  | powerOn lines => exact powerLaw_of_reset (powerOn_grant lines)
  | restart port a b => exact powerLaw_of_reset (powerOn_grant ⟨s.evac, a, b⟩)
  | evacAsserted => exact powerLaw_recompute _ _
  | evacReleased => exact powerLaw_recompute _ _
  | houseBlock inp => exact houseBlock_powerLaw inp s hs
  | referenceLost inp => exact powerLaw_of_grantsKept (changeClock_grantsKept _ _ _) (houseBlock_powerLaw inp s hs)
  | fadeCompletion => exact completeFade_powerLaw _ s
  | laneBlock l b k x => exact laneBlock_powerLaw l b k x s hs
  | automaticStart e => exact laneBlock_powerLaw _ _ _ _ s hs
  | enable off =>
    exact powerLaw_of_grantsKept (notifyShow_grantsKept ..) (powerLaw_modScreen hs fun _ => by rw [off]; rfl)
  | disable dark => exact disabled_powerLaw _ _ s dark hs
  | hold _ _ dark =>
    refine powerLaw_of_grantsKept (notifyShow_grantsKept ..) ?_
    exact powerLaw_of_grantsKept (clearBase_grantsKept ..) (powerLaw_modScreen hs fun _ => by rw [dark]; rfl)
  | calibrate _ _ _ _ entered =>
    rw [(enterDemand_eq entered).2]
    refine powerLaw_of_grantsKept (notifyShow_grantsKept ..) ?_
    exact powerLaw_of_grantsKept (withdrawAlarms_grantsKept ..) (powerLaw_after_recompute (clearBase_grantsKept ..))
  | release held => exact release_powerLaw _ _ s held hs
  | takeOver =>
    exact powerLaw_of_grantsKept (notifyShow_grantsKept ..) (powerLaw_modScreen hs fun h => h)
  | start _ judged => exact powerLaw_of_grantsKept (notifyShow_grantsKept ..) (judgeStart_powerLaw judged)
  | pause => exact moveShow_powerLaw _ _ rfl hs
  | resume => exact moveShow_powerLaw _ _ rfl hs
  | endShow => exact moveShow_powerLaw _ _ rfl hs
  | screenSet c => exact applyConfig_powerLaw _ c s hs
  | budgetSet b => exact setBudget_powerLaw b s hs
  | _ => exact absurd rfl hi

/-! ### The computation -/

theorem Budget.available_eq (b : Budget) : b.available =
    (if b.supply = .mains then b.mains else if b.supply = .generator then b.generator
    else if b.supply = .battery then b.battery else b.batteryLow) - b.reserve := by
  unfold Budget.available Budget.bank
  cases b.supply <;> rfl

theorem demands_iff (x : ShowState) :
    x.demands = true ↔ x = .show ∨ x = .paused ∨ x = .ending ∨ x = .calibrating := by
  cases x <;> decide

theorem demand_eq_some (n : Fin 12) (c : Screen) (d : Demand) : c.demand n = some d ↔
    (c.state = .show ∨ c.state = .paused ∨ c.state = .ending ∨ c.state = .calibrating) ∧
    d = { screen := n, priority := c.config.priority, stamp := c.stamp, reduced := c.config.reducedDraw,
          full := if c.state = .calibrating then c.config.reducedDraw else c.config.fullDraw } := by
  rw [← demands_iff, Screen.demand]
  split
  · next h => rw [Option.some.injEq, eq_comm, h]; simp
  · next h => simp [h]

/-- The order of rank (08 R143). -/
def Demand.Ranks (a b : Demand) : Prop := a.priority < b.priority ∨ a.priority = b.priority ∧ a.stamp ≤ b.stamp

theorem before_iff (a b : Demand) : a.before b = true ↔ a.Ranks b := by
  simp [Demand.before, Demand.Ranks]

theorem Demand.Ranks.trans {a b c : Demand} (h : a.Ranks b) (h' : b.Ranks c) : a.Ranks c := by
  unfold Demand.Ranks at *
  omega

theorem rankInsert_sorted {d : Demand} {l : List Demand} (h : l.Pairwise Demand.Ranks) :
    (rankInsert d l).Pairwise Demand.Ranks := by
  induction l with
  | nil => exact List.pairwise_singleton _ _
  | cons e rest ih =>
    obtain ⟨first, sorted⟩ := List.pairwise_cons.1 h
    unfold rankInsert
    split
    · next hd =>
      have ahead := (before_iff d e).1 hd
      refine List.pairwise_cons.2 ⟨fun x hx => ?_, h⟩
      rcases List.mem_cons.1 hx with rfl | hx
      · exact ahead
      · exact ahead.trans (first x hx)
    · next hd =>
      have behind : e.Ranks d := by
        rw [before_iff] at hd
        unfold Demand.Ranks at *
        omega
      refine List.pairwise_cons.2 ⟨fun x hx => ?_, ih sorted⟩
      rcases List.mem_cons.1 ((rankInsert_perm d rest).subset hx) with rfl | hx
      · exact behind
      · exact first x hx

theorem ranked_sorted (s : State) : s.ranked.Pairwise Demand.Ranks := by
  unfold State.ranked
  generalize (List.finRange 12).filterMap _ = l
  induction l with
  | nil => exact .nil
  | cons d rest ih => exact rankInsert_sorted ih

theorem find_of_nodup {l : List (Demand × Bool)} (h : (l.map fun x => x.1.screen).Nodup) {x : Demand × Bool}
    (hx : x ∈ l) : (l.find? fun y => y.1.screen == x.1.screen) = some x := by
  induction l with
  | nil => cases hx
  | cons y rest ih =>
    rw [List.map_cons, List.nodup_cons] at h
    rw [List.find?_cons]
    rcases List.mem_cons.1 hx with rfl | hx
    · simp
    · have other : y.1.screen ≠ x.1.screen := fun e => h.1 (e ▸ List.mem_map_of_mem hx)
      rw [beq_eq_false_iff_ne.2 other]
      exact ih h.2 hx

/-- A demander granted a draw has it (08 R144). -/
theorem allot_granted {s : State} {x : Demand × Bool} (hx : x ∈ grantedOf s.budget.available s.ranked) :
    s.allot.get x.1.screen = allotGranted x := by
  unfold State.allot
  rw [Tab.get_ofFn, find_of_nodup (granted_screens s).1 hx]

/-- A screen that is granted none is SUSPENDED where it demands (08 R144). -/
theorem allot_ungranted {s : State} {n : Fin 12}
    (h : ∀ x ∈ grantedOf s.budget.available s.ranked, x.1.screen ≠ n) : s.allot.get n =
      { status := if (s.screens.get n).state.demands = true then .suspended else .none, draw := 0 } := by
  have absent : (grantedOf s.budget.available s.ranked).find? (fun x => x.1.screen == n) = none :=
    List.find?_eq_none.2 fun x hx => by simpa using h x hx
  unfold State.allot
  rw [Tab.get_ofFn, absent]

/-- A grant record with a status that stays takes its draw alone (08 R148). -/
theorem take_same {b : Budget} {a : Allotment} {g : Grant} (h : g.status = a.status) :
    Grant.take b a g = { g with draw := a.draw } := by
  simp [Grant.take, h]

theorem take_changed {b : Budget} {a : Allotment} {g : Grant} (h : g.status ≠ a.status) :
    Grant.take b a g =
      { status := a.status, draw := a.draw,
        sheds := if a.status = .shed then g.sheds + 1 else g.sheds,
        suspends := if a.status = .suspended then g.suspends + 1 else g.suspends,
        lastChange :=
          if a.status = .shed ∨ a.status = .suspended then
            some { status := a.status, supply := b.supply, available := b.available }
          else g.lastChange } := by
  simp [Grant.take, h]

theorem modGrant_congr {s : State} {n : Fin 12} {f g : Grant → Grant} (h : f (s.grants.get n) = g (s.grants.get n)) :
    s.modGrant n f = s.modGrant n g := by
  have same : s.grants.modify n f = s.grants.modify n g := Tab.ext_get fun m => by
    rw [Tab.get_modify, Tab.get_modify]
    split
    · next e => exact e ▸ h
    · rfl
  rw [State.modGrant, same, State.modGrant]

/-- Settles O54: the moves that reach demand, draws or supply end in a recompute, whose grants fit; the rest is the
computation, definition by definition. -/
theorem powerLawKept : Obligations.PowerLawKept := by
  refine ⟨fun s t hs ht => ?_, Budget.available_eq, demand_eq_some, fun s => ⟨rank_perm _, ranked_sorted s⟩,
    fun _ _ => rfl, fun _ _ _ _ => rfl, fun _ => rfl, fun _ _ _ => rfl, fun s first granted hf hg n => ?_,
    fun _ _ => rfl, fun _ _ => rfl, fun cause allot n s old a ho ha => ?_, fun before n s => ?_, fun n s x hx => ?_⟩
  · exact step_keeps (P := PowerLaw) (fun _ _ h => h) (fun _ _ h => h) (fun _ _ _ h hm => hm.powerLaw h) hs ht
  · have eq : granted = grantedOf s.budget.available s.ranked := by rw [hg, hf]; rfl
    rw [eq]
    refine ⟨fun d hd e => ?_, fun d hd e => ?_, allot_ungranted⟩
    · exact e ▸ allot_granted hd
    · exact e ▸ allot_granted hd
  · subst ho ha
    refine ⟨fun same => ?_, fun changed => ?_⟩
    · rw [applyAllotment, if_pos same]
      exact modGrant_congr (take_same same)
    · rw [applyAllotment, if_neg changed]
      exact congrArg (State.notify · _) (modGrant_congr (take_changed changed))
  · refine ⟨fun c now was => if_pos ⟨c, now, was⟩, fun out => if_neg ?_⟩
    rintro ⟨c, now, was⟩
    rcases out with h | h | h
    · exact h c
    · exact h now
    · exact was h
  · have aborted : abortOn n .power s = x := by
      rw [hx, abortOn]
      simp [Context.onScreen, Context.inFlight]
    rw [suspendCalibration, aborted, clearTones]

end Sys2Proof.Machine
end

section
/-! The delay store (04 R85 to R88): its pages are counted, what a reallocation gives each output, and the law of the page
lists, move by move. -/

namespace Sys2Proof.Machine

/-! ### The pages of the store -/

/-- The pages in all lists, counted. -/
def State.pagesHeld (s : State) : Nat := ((List.finRange 192).map fun o => (s.outputs.get o).pages.length).sum

/-- Page lists hold pages of the store that are not BAD, each page once and in one list alone, and a page is BAD once. -/
structure StoreSound (s : State) : Prop where
  once : ∀ o, (s.outputs.get o).pages.Nodup
  good : ∀ o p, p ∈ (s.outputs.get o).pages → p < Config.pageCount ∧ p ∉ s.badPages
  apart : ∀ o o' p, p ∈ (s.outputs.get o).pages → p ∈ (s.outputs.get o').pages → o = o'
  badOnce : s.badPages.Nodup
  badRange : ∀ p ∈ s.badPages, p < Config.pageCount

/-- The self-test's part of the law: while it runs the store is empty, and its faults are pages it has tested. -/
structure TestSound (s : State) : Prop where
  empty : s.selftest.running = true →
    s.badPages = [] ∧ s.selftest.blocks < Config.selftestBlocks ∧ ∀ o, (s.outputs.get o).pages = []
  faultsOnce : s.selftest.faults.Nodup
  faultsTested : ∀ p ∈ s.selftest.faults, p < 2 * s.selftest.blocks

/-- Every page list and delay line has the length of its effective delay. -/
structure DelaysSound (s : State) : Prop where
  pages : ∀ o, (s.outputs.get o).pages.length = pagesFor (s.effectiveDelay o)
  line : ∀ o, (s.outputs.get o).line.length = s.effectiveDelay o

theorem pageLaw_iff (s : State) : PageLaw s ↔ DelaysSound s ∧ StoreSound s ∧ TestSound s :=
  ⟨fun ⟨pages, line, once, good, apart, empty, badOnce, badRange, faultsOnce, faultsTested⟩ =>
    ⟨⟨pages, line⟩, ⟨once, good, apart, badOnce, badRange⟩, ⟨empty, faultsOnce, faultsTested⟩⟩,
    fun ⟨delays, store, test⟩ =>
    ⟨delays.pages, delays.line, store.once, store.good, store.apart, test.empty, store.badOnce, store.badRange,
      test.faultsOnce, test.faultsTested⟩⟩

theorem mem_usedPages {s : State} {p : Nat} : p ∈ s.usedPages ↔ ∃ o, p ∈ (s.outputs.get o).pages := by
  simp [State.usedPages, Tab.items_eq]

theorem length_usedPages (s : State) : s.usedPages.length = s.pagesHeld := by
  simp [State.usedPages, State.pagesHeld, Tab.items_eq, List.length_flatten, Function.comp_def]

theorem usedPages_nodup {s : State} (h : StoreSound s) : s.usedPages.Nodup := by
  unfold State.usedPages
  rw [Tab.items_eq, List.map_map, List.nodup_flatten]
  refine ⟨fun l hl => ?_, List.pairwise_map.2 ?_⟩
  · obtain ⟨o, -, rfl⟩ := List.mem_map.1 hl
    exact h.once o
  · exact (List.nodup_finRange 192).imp fun hne p hp hp' => hne (h.apart _ _ p hp hp')

theorem mem_pagesIn {s : State} {st : PageState} {p : Nat} :
    p ∈ s.pagesIn st ↔ p < Config.pageCount ∧ s.pageState p = st := by
  simp only [State.pagesIn, State.pageState, List.mem_filter, List.mem_range, beq_iff_eq]

theorem pagesIn_nodup (s : State) (st : PageState) : (s.pagesIn st).Nodup := List.nodup_range.filter _

theorem mem_freePages {s : State} {p : Nat} :
    p ∈ s.freePages ↔ p < Config.pageCount ∧ p ∉ s.badPages ∧ ∀ o, p ∉ (s.outputs.get o).pages := by
  rw [State.freePages, mem_pagesIn, State.pageState]
  by_cases bad : p ∈ s.badPages
  · simp [bad]
  · by_cases used : ∃ o, p ∈ (s.outputs.get o).pages
    · have held := mem_usedPages.2 used
      obtain ⟨o, ho⟩ := used
      simp only [List.contains_iff_mem, bad, held, if_true, if_false, reduceCtorEq, and_false, false_iff, not_and]
      exact fun _ _ all => all o ho
    · have loose : p ∉ s.usedPages := fun hp => used (mem_usedPages.1 hp)
      simp only [List.contains_iff_mem, bad, loose, if_false, not_false_eq_true, true_and]
      exact and_congr_right fun _ => ⟨fun _ => not_exists.1 used, fun _ => trivial⟩

theorem length_bad {s : State} (h : StoreSound s) : (s.pagesIn .bad).length = s.badPages.length := by
  refine List.Perm.length_eq ((List.perm_ext_iff_of_nodup (pagesIn_nodup s _) h.badOnce).2 fun p => ?_)
  rw [mem_pagesIn, State.pageState]
  by_cases bad : p ∈ s.badPages
  · simp [bad, h.badRange p bad]
  · simp only [List.contains_iff_mem, bad, if_false, iff_false, not_and]
    intro _
    split <;> simp

theorem length_inUse {s : State} (h : StoreSound s) : (s.pagesIn .inUse).length = s.pagesHeld := by
  rw [← length_usedPages]
  refine List.Perm.length_eq ((List.perm_ext_iff_of_nodup (pagesIn_nodup s _) (usedPages_nodup h)).2 fun p => ?_)
  rw [mem_pagesIn, State.pageState]
  by_cases used : p ∈ s.usedPages
  · obtain ⟨o, ho⟩ := mem_usedPages.1 used
    simp [used, (h.good o p ho).1, (h.good o p ho).2]
  · simp only [List.contains_iff_mem, used, if_false, iff_false, not_and]
    intro _
    split <;> simp

theorem length_pageStates (f : Nat → PageState) (l : List Nat) :
    (l.filter fun p => f p == .free).length + (l.filter fun p => f p == .inUse).length +
      (l.filter fun p => f p == .bad).length = l.length := by
  induction l with
  | nil => rfl
  | cons p rest ih =>
    simp only [List.filter_cons, List.length_cons]
    cases f p <;> simp <;> omega

/-- The FREE, IN USE and BAD pages are the store's (04 R85). -/
theorem length_free {s : State} (h : StoreSound s) :
    s.freePages.length + s.pagesHeld + s.badPages.length = Config.pageCount := by
  have all := length_pageStates s.pageState (List.range Config.pageCount)
  rw [List.length_range] at all
  rw [← length_inUse h, ← length_bad h]
  exact all

/-! ### One output's reallocation -/

/-- An output whose list gives up its last pages (04 R86). -/
def Output.giveUp (c : Change) (x : Output) : Output :=
  if c.needs ≤ x.pages.length then x.restart c.delay (x.pages.take c.needs) else x

/-- An output whose list takes the first of the given pages (04 R86). -/
def Output.takeUp (c : Change) (free : List Nat) (x : Output) : Output :=
  if x.pages.length < c.needs then x.restart c.delay (x.pages ++ free.take (c.needs - x.pages.length)) else x

theorem modOutput_congr {s : State} {o : Fin 192} {f g : Output → Output} (h : f (s.outputs.get o) = g (s.outputs.get o)) :
    s.modOutput o f = s.modOutput o g := by
  have same : s.outputs.modify o f = s.outputs.modify o g := Tab.ext_get fun p => by
    rw [Tab.get_modify, Tab.get_modify]
    split
    · next e => exact e ▸ h
    · rfl
  rw [State.modOutput, same, State.modOutput]

theorem modOutput_self {s : State} {o : Fin 192} {f : Output → Output} (h : f (s.outputs.get o) = s.outputs.get o) :
    s.modOutput o f = s := by
  rw [State.modOutput, Tab.modify_eq_self _ _ h]

theorem shrink_eq (c : Change) (s : State) : shrink c s = s.modOutput c.output (Output.giveUp c) := by
  unfold shrink
  split
  · next h => exact modOutput_congr (if_pos h).symm
  · next h => exact (modOutput_self (if_neg h)).symm

theorem grow_eq (c : Change) (s : State) : grow c s = s.modOutput c.output (Output.takeUp c s.freePages) := by
  unfold grow
  split
  · next h => exact modOutput_congr (if_pos h).symm
  · next h => exact (modOutput_self (if_neg h)).symm

theorem get_modOutput (s : State) (o p : Fin 192) (f : Output → Output) :
    (s.modOutput o f).outputs.get p = if o = p then f (s.outputs.get p) else s.outputs.get p := by
  rw [modOutput_outputs, Tab.get_modify]
  split
  · next e => rw [e]
  · rfl

theorem giveUp_pages (c : Change) (x : Output) : (x.giveUp c).pages = x.pages.take c.needs := by
  unfold Output.giveUp
  split
  · rfl
  · next h => exact (List.take_of_length_le (not_le.1 h).le).symm

theorem takeUp_pages (c : Change) (free : List Nat) (x : Output) :
    (x.takeUp c free).pages = x.pages ++ free.take (c.needs - x.pages.length) := by
  unfold Output.takeUp
  split
  · rfl
  · next h => rw [Nat.sub_eq_zero_of_le (not_lt.1 h), List.take_zero, List.append_nil]

/-! ### The store stays sound -/

theorem shrink_sound {s : State} (h : StoreSound s) (c : Change) : StoreSound (shrink c s) := by
  have sub : ∀ o, ((shrink c s).outputs.get o).pages.Sublist (s.outputs.get o).pages := fun o => by
    rw [shrink_eq, get_modOutput]
    split
    · rw [giveUp_pages]
      exact List.take_sublist _ _
    · exact List.Sublist.refl _
  have bad : (shrink c s).badPages = s.badPages := by rw [shrink_eq]; rfl
  refine ⟨fun o => (sub o).nodup (h.once o), fun o p hp => bad ▸ h.good o p ((sub o).subset hp),
    fun o o' p hp hp' => h.apart o o' p ((sub o).subset hp) ((sub o').subset hp'), bad ▸ h.badOnce, bad ▸ h.badRange⟩

theorem mem_grow {c : Change} {s : State} {o : Fin 192} {p : Nat} :
    p ∈ ((grow c s).outputs.get o).pages ↔ p ∈ (s.outputs.get o).pages ∨
      c.output = o ∧ p ∈ s.freePages.take (c.needs - (s.outputs.get o).pages.length) := by
  rw [grow_eq, get_modOutput]
  split
  · next e => simp [takeUp_pages, e]
  · next e => simp [e]

theorem grow_badPages (c : Change) (s : State) : (grow c s).badPages = s.badPages := by rw [grow_eq]; rfl

theorem freePages_nodup (s : State) : s.freePages.Nodup := pagesIn_nodup s _

theorem grow_sound {s : State} (h : StoreSound s) (c : Change) : StoreSound (grow c s) := by
  have taken : ∀ k p, p ∈ s.freePages.take k →
      p < Config.pageCount ∧ p ∉ s.badPages ∧ ∀ o, p ∉ (s.outputs.get o).pages := fun k p hp =>
    mem_freePages.1 (List.mem_of_mem_take hp)
  have bad := grow_badPages c s
  refine ⟨fun o => ?_, fun o p hp => ?_, fun o o' p hp hp' => ?_, bad ▸ h.badOnce, bad ▸ h.badRange⟩
  · rw [grow_eq, get_modOutput]
    split
    · rw [takeUp_pages]
      exact List.nodup_append.2 ⟨h.once o, (freePages_nodup s).sublist (List.take_sublist _ _), fun a ha b hb e =>
        (taken _ b hb).2.2 o (e ▸ ha)⟩
    · exact h.once o
  · rw [bad]
    rcases mem_grow.1 hp with hp | ⟨-, hp⟩
    · exact h.good o p hp
    · exact ⟨(taken _ p hp).1, (taken _ p hp).2.1⟩
  · rcases mem_grow.1 hp with hp | ⟨e, hp⟩ <;> rcases mem_grow.1 hp' with hp' | ⟨e', hp'⟩
    · exact h.apart o o' p hp hp'
    · exact absurd hp ((taken _ p hp').2.2 o)
    · exact absurd hp' ((taken _ p hp).2.2 o')
    · exact e.symm.trans e'

theorem filter_notMem_take {l : List Nat} (h : l.Nodup) (k : Nat) : (l.filter fun p => decide (p ∉ l.take k)) = l.drop k := by
  have parts : (l.take k ++ l.drop k).Nodup := by rwa [List.take_append_drop]
  obtain ⟨-, -, apart⟩ := List.nodup_append.1 parts
  calc (l.filter fun p => decide (p ∉ l.take k))
      = (l.take k ++ l.drop k).filter fun p => decide (p ∉ l.take k) := by rw [List.take_append_drop]
    _ = l.drop k := by
      rw [List.filter_append, List.filter_eq_nil_iff.2 (by simp), List.nil_append]
      exact List.filter_eq_self.2 fun p hp => decide_eq_true fun ht => apart p ht p hp rfl

theorem freePages_eq (s : State) :
    s.freePages = (List.range Config.pageCount).filter fun p => decide (p ∈ s.freePages) := by
  conv_lhs => rw [State.freePages, State.pagesIn]
  refine List.filter_congr fun p hp => ?_
  rw [Bool.eq_iff_iff, decide_eq_true_iff, State.freePages, mem_pagesIn, State.pageState, beq_iff_eq]
  exact ⟨fun h => ⟨List.mem_range.1 hp, h⟩, fun h => h.2⟩

/-- A list that grows takes the lowest FREE pages, and leaves the others FREE (04 R86). -/
theorem grow_freePages (c : Change) (s : State) : (grow c s).freePages = s.freePages.drop (c.needs - s.held c) := by
  rw [← filter_notMem_take (freePages_nodup s)]
  have members : ∀ p, p ∈ (grow c s).freePages ↔ p ∈ s.freePages ∧ p ∉ s.freePages.take (c.needs - s.held c) := fun p => by
    simp only [mem_freePages, grow_badPages, mem_grow, not_or, not_and]
    constructor
    · exact fun ⟨range, good, out⟩ => ⟨⟨range, good, fun o => (out o).1⟩, (out c.output).2 rfl⟩
    · rintro ⟨⟨range, good, out⟩, left⟩
      exact ⟨range, good, fun o => ⟨out o, fun e => e ▸ left⟩⟩
  rw [freePages_eq (grow c s)]
  conv_rhs => rw [freePages_eq s, List.filter_filter]
  rw [← freePages_eq s]
  refine List.filter_congr fun p _ => ?_
  rw [Bool.eq_iff_iff, decide_eq_true_iff, members, Bool.and_eq_true, decide_eq_true_iff, decide_eq_true_iff, and_comm]

/-! ### The two passes -/

section
variable {f : Change → State → State} (hf : ∀ c s o, c.output ≠ o → (f c s).outputs.get o = s.outputs.get o)
include hf

/-- A pass reaches the outputs of its changes alone. -/
theorem overList_get_other {cs : List Change} {o : Fin 192} (ho : o ∉ cs.map Change.output) (s : State) :
    (overList f cs s).outputs.get o = s.outputs.get o := by
  refine overList_induct (P := fun t => t.outputs.get o = s.outputs.get o) rfl fun c hc t ht => ?_
  rw [hf c t o fun e => ho (e ▸ List.mem_map_of_mem hc), ht]

/-- After the first of its changes a pass finds the outputs of the others as they were. -/
theorem held_after {c : Change} {cs : List Change} (h : c.output ∉ cs.map Change.output) (s : State) :
    ∀ d ∈ cs, (f c s).outputs.get d.output = s.outputs.get d.output := fun d hd =>
  hf c s d.output fun e => h (e ▸ List.mem_map_of_mem hd)
end

theorem shrink_get_other (c : Change) (s : State) (o : Fin 192) (h : c.output ≠ o) :
    (shrink c s).outputs.get o = s.outputs.get o := by
  rw [shrink_eq, get_modOutput, if_neg h]

theorem grow_get_other (c : Change) (s : State) (o : Fin 192) (h : c.output ≠ o) :
    (grow c s).outputs.get o = s.outputs.get o := by
  rw [grow_eq, get_modOutput, if_neg h]

theorem shrinkAll_get {cs : List Change} (h : (cs.map Change.output).Nodup) {c : Change} (hc : c ∈ cs) (s : State) :
    (overList shrink cs s).outputs.get c.output = (s.outputs.get c.output).giveUp c := by
  induction cs generalizing s with
  | nil => cases hc
  | cons d rest ih =>
    obtain ⟨fresh, others⟩ := List.nodup_cons.1 h
    rcases List.mem_cons.1 hc with rfl | hc
    · calc (overList shrink rest (shrink c s)).outputs.get c.output
          = (shrink c s).outputs.get c.output := overList_get_other shrink_get_other fresh _
        _ = (s.outputs.get c.output).giveUp c := by rw [shrink_eq, get_modOutput, if_pos rfl]
    · exact (ih others hc _).trans (by rw [held_after shrink_get_other fresh s c hc])

/-- What a pass of growing lists gives a change: of the pages FREE at its start, those left by the changes before it. -/
theorem growAll_get (before : List Change) {c : Change} {after : List Change}
    (h : ((before ++ c :: after).map Change.output).Nodup) (s : State) :
    (overList grow (before ++ c :: after) s).outputs.get c.output =
      (s.outputs.get c.output).takeUp c
        (s.freePages.drop (before.map fun d => d.needs - s.held d).sum) := by
  induction before generalizing s with
  | nil =>
    obtain ⟨fresh, -⟩ := List.nodup_cons.1 h
    calc (overList grow after (grow c s)).outputs.get c.output
        = (grow c s).outputs.get c.output := overList_get_other grow_get_other fresh _
      _ = (s.outputs.get c.output).takeUp c s.freePages := by rw [grow_eq, get_modOutput, if_pos rfl]
  | cons b bs ih =>
    obtain ⟨fresh, others⟩ := List.nodup_cons.1 h
    have kept := held_after grow_get_other fresh s
    have sums : (bs.map fun d => d.needs - (grow b s).held d) = bs.map fun d => d.needs - s.held d :=
      List.map_congr_left fun d hd => by rw [State.held, State.held, kept d (List.mem_append_left _ hd)]
    refine (ih others (grow b s)).trans ?_
    rw [kept c (List.mem_append_right _ List.mem_cons_self), grow_freePages, sums, List.drop_drop, List.map_cons,
      List.sum_cons]

/-! ### The numbers of pages -/

theorem pagesHeld_modOutput (s : State) (o : Fin 192) (f : Output → Output) :
    (s.modOutput o f).pagesHeld + (s.outputs.get o).pages.length =
      s.pagesHeld + (f (s.outputs.get o)).pages.length := by
  have sums : ∀ t : State, t.pagesHeld = (t.outputs.get o).pages.length +
      ∑ p ∈ Finset.univ.erase o, (t.outputs.get p).pages.length := fun t => by
    rw [State.pagesHeld, ← Fin.sum_univ_def]
    exact (Finset.add_sum_erase _ (fun p => (t.outputs.get p).pages.length) (Finset.mem_univ o)).symm
  have others : ∑ p ∈ Finset.univ.erase o, ((s.modOutput o f).outputs.get p).pages.length =
      ∑ p ∈ Finset.univ.erase o, (s.outputs.get p).pages.length :=
    Finset.sum_congr rfl fun p hp => by rw [get_modOutput, if_neg (Finset.ne_of_mem_erase hp).symm]
  rw [sums, sums s, others, get_modOutput, if_pos rfl]
  omega

theorem shrink_free {s : State} (h : StoreSound s) (c : Change) :
    (shrink c s).freePages.length = s.freePages.length + (s.held c - c.needs) := by
  have before := length_free h
  have after := length_free (shrink_sound h c)
  have moved := pagesHeld_modOutput s c.output (Output.giveUp c)
  have bad : (shrink c s).badPages = s.badPages := by rw [shrink_eq]; rfl
  rw [← shrink_eq, giveUp_pages, List.length_take] at moved
  rw [bad] at after
  unfold State.held
  omega

theorem shrinkAll_sound {s : State} (h : StoreSound s) (cs : List Change) : StoreSound (overList shrink cs s) :=
  overList_induct (P := StoreSound) h fun c _ _ ht => shrink_sound ht c

theorem reallocate_sound {s : State} (h : StoreSound s) (cs : List Change) : StoreSound (reallocate cs s) :=
  overList_induct (P := StoreSound) (shrinkAll_sound h cs) fun c _ _ ht => grow_sound ht c

theorem shrinkAll_free {s : State} (h : StoreSound s) {cs : List Change} (hcs : (cs.map Change.output).Nodup) :
    (overList shrink cs s).freePages.length = s.freePages.length + (cs.map fun c => s.held c - c.needs).sum := by
  induction cs generalizing s with
  | nil => exact (Nat.add_zero _).symm
  | cons c rest ih =>
    obtain ⟨fresh, others⟩ := List.nodup_cons.1 hcs
    have sums : (rest.map fun d => (shrink c s).held d - d.needs) = rest.map fun d => s.held d - d.needs :=
      List.map_congr_left fun d hd => by rw [State.held, State.held, held_after shrink_get_other fresh s d hd]
    refine (ih (shrink_sound h c) others).trans ?_
    rw [shrink_free h, sums, List.map_cons, List.sum_cons, Nat.add_assoc]

theorem growAll_free (cs : List Change) (hcs : (cs.map Change.output).Nodup) (s : State) :
    (overList grow cs s).freePages = s.freePages.drop (cs.map fun c => c.needs - s.held c).sum := by
  induction cs generalizing s with
  | nil => rfl
  | cons c rest ih =>
    obtain ⟨fresh, others⟩ := List.nodup_cons.1 hcs
    have sums : (rest.map fun d => d.needs - (grow c s).held d) = rest.map fun d => d.needs - s.held d :=
      List.map_congr_left fun d hd => by rw [State.held, State.held, held_after grow_get_other fresh s d hd]
    refine (ih others (grow c s)).trans ?_
    rw [grow_freePages, sums, List.drop_drop, List.map_cons, List.sum_cons]

theorem netPages_eq (s : State) (cs : List Change) :
    s.netPages cs = ((cs.map fun c => c.needs - s.held c).sum : ℕ) - ((cs.map fun c => s.held c - c.needs).sum : ℕ) := by
  unfold State.netPages
  induction cs with
  | nil => rfl
  | cons c rest ih =>
    rw [List.map_cons, List.sum_cons, ih, List.map_cons, List.map_cons, List.sum_cons, List.sum_cons]
    omega

/-! ### The reallocation of several outputs -/

section
variable {s : State} {cs : List Change} (outputs : (cs.map Change.output).Nodup)
include outputs

/-- What a change that shrinks needs no more is what a growing one finds: it needs as many pages as before. -/
theorem shrinkAll_needs {c : Change} (hc : c ∈ cs) : c.needs - (overList shrink cs s).held c = c.needs - s.held c := by
  rw [State.held, shrinkAll_get outputs hc, giveUp_pages, List.length_take, State.held]
  omega

theorem reallocate_get {before after : List Change} {c : Change} (e : cs = before ++ c :: after) :
    (reallocate cs s).outputs.get c.output = ((s.outputs.get c.output).giveUp c).takeUp c
      ((overList shrink cs s).freePages.drop (before.map fun d => d.needs - s.held d).sum) := by
  have hc : c ∈ cs := by simp [e]
  have sums : (before.map fun d => d.needs - (overList shrink cs s).held d) =
      before.map fun d => d.needs - s.held d :=
    List.map_congr_left fun d hd => shrinkAll_needs outputs (by simp [e, hd])
  have grown := growAll_get before (e ▸ outputs) (overList shrink cs s)
  rw [sums, shrinkAll_get outputs hc, ← e] at grown
  exact grown

omit outputs in
theorem reallocate_get_other {o : Fin 192} (ho : o ∉ cs.map Change.output) :
    (reallocate cs s).outputs.get o = s.outputs.get o :=
  (overList_get_other grow_get_other ho _).trans (overList_get_other shrink_get_other ho s)

/-- The FREE pages between the two passes cover what the growing lists take, when the net new pages are FREE at first. -/
theorem shrinkAll_room (h : StoreSound s) (room : s.netPages cs ≤ s.freePages.length) :
    (cs.map fun c => c.needs - s.held c).sum ≤ (overList shrink cs s).freePages.length := by
  rw [shrinkAll_free h outputs]
  rw [netPages_eq] at room
  omega

theorem reallocate_freePages (h : StoreSound s) (room : s.netPages cs ≤ s.freePages.length) :
    ((reallocate cs s).freePages.length : ℤ) = s.freePages.length - s.netPages cs := by
  have fits := shrinkAll_room outputs h room
  have sums : (cs.map fun d => d.needs - (overList shrink cs s).held d) = cs.map fun d => d.needs - s.held d :=
    List.map_congr_left fun d hd => shrinkAll_needs outputs hd
  rw [reallocate, growAll_free cs outputs, sums, List.length_drop, netPages_eq]
  rw [shrinkAll_free h outputs] at fits ⊢
  omega

/-- Every change is given as many pages as its delay needs, and its line restarts as silence (04 R86, R87). -/
theorem reallocate_pages (h : StoreSound s) (room : s.netPages cs ≤ s.freePages.length) {c : Change} (hc : c ∈ cs) :
    ((reallocate cs s).outputs.get c.output).pages.length = c.needs ∧
      ((reallocate cs s).outputs.get c.output).line = List.replicate c.delay 0 := by
  obtain ⟨before, after, e⟩ := List.append_of_mem hc
  have fits := shrinkAll_room outputs h room
  have part : (before.map fun d => d.needs - s.held d).sum + (c.needs - s.held c) ≤
      (cs.map fun d => d.needs - s.held d).sum := by
    rw [e, List.map_append, List.map_cons, List.sum_append, List.sum_cons]
    omega
  rw [reallocate_get outputs e]
  constructor
  · rw [takeUp_pages, List.length_append, List.length_take, List.length_drop, giveUp_pages, List.length_take]
    have own : s.held c = (s.outputs.get c.output).pages.length := rfl
    omega
  · by_cases fewer : c.needs ≤ (s.outputs.get c.output).pages.length
    · have down : ((s.outputs.get c.output).giveUp c).pages.length = c.needs := by
        rw [giveUp_pages, List.length_take, Nat.min_eq_left fewer]
      rw [Output.takeUp, if_neg (by omega), Output.giveUp, if_pos fewer]
      rfl
    · rw [Output.giveUp, if_neg fewer, Output.takeUp, if_pos (not_le.1 fewer)]
      rfl
end

end Sys2Proof.Machine
end

section
/-! The law of the page lists (04 R75, R85, R86, R88), move by move: a move that changes an effective delay reallocates the
outputs it reaches, and the self-test finds the store empty. -/

namespace Sys2Proof.Machine

/-! ### What leaves the delays and the store -/

/-- Two outputs agree on their place, tuning delay and pages, and their delay lines are equally long. -/
structure Output.DelayAlike (x y : Output) : Prop where
  place : y.place = x.place
  delay : y.delay = x.delay
  line : y.line.length = x.line.length
  pages : y.pages = x.pages

/-- The effective delays and the delay store are left as they are. -/
structure DelaysKept (s t : State) : Prop where
  outputs : ∀ o, (s.outputs.get o).DelayAlike (t.outputs.get o)
  config : ∀ n, (t.screens.get n).config = (s.screens.get n).config
  badPages : t.badPages = s.badPages
  selftest : t.selftest = s.selftest

theorem Output.Alike.delayAlike {x y : Output} (h : x.Alike y) : x.DelayAlike y := ⟨h.place, h.delay, h.line, h.pages⟩

theorem StoreKept.delaysKept {s t : State} (h : StoreKept s t) : DelaysKept s t :=
  ⟨fun o => (h.outputs o).delayAlike, h.config, h.badPages, h.selftest⟩

theorem DelaysKept.refl (s : State) : DelaysKept s s := (StoreKept.refl s).delaysKept

theorem DelaysKept.trans {s t u : State} (h : DelaysKept s t) (h' : DelaysKept t u) : DelaysKept s u :=
  ⟨fun o => ⟨(h'.outputs o).place.trans (h.outputs o).place, (h'.outputs o).delay.trans (h.outputs o).delay,
    (h'.outputs o).line.trans (h.outputs o).line, (h'.outputs o).pages.trans (h.outputs o).pages⟩,
    fun n => (h'.config n).trans (h.config n), h'.badPages.trans h.badPages, h'.selftest.trans h.selftest⟩

theorem DelaysKept.overList {α : Type} {f : α → State → State} (h : ∀ x t, DelaysKept t (f x t)) (l : List α) (s : State) :
    DelaysKept s (overList f l s) :=
  overList_induct (P := DelaysKept s) (.refl s) fun x _ t ht => ht.trans (h x t)

theorem modOutput_delaysKept (o : Fin 192) (f : Output → Output) (s : State)
    (h : ∀ x : Output, x.DelayAlike (f x) := by intro; exact ⟨rfl, rfl, rfl, rfl⟩) : DelaysKept s (s.modOutput o f) := by
  refine ⟨fun p => ?_, fun _ => rfl, rfl, rfl⟩
  rw [get_modOutput]
  split
  · exact h _
  · exact ⟨rfl, rfl, rfl, rfl⟩

/-- The tuning delay and the lip-sync offset of the place make the effective delay (03 R50). -/
theorem effectiveDelay_eq (s : State) (o : Fin 192) :
    s.effectiveDelay o = (s.outputs.get o).delay + s.offsetAt (s.outputs.get o).place := by
  unfold State.effectiveDelay State.offsetAt Output.screen
  dsimp only
  generalize (s.outputs.get o).place = place
  cases place <;> rfl

theorem offsetAt_congr {s t : State} (h : ∀ n, (t.screens.get n).config = (s.screens.get n).config)
    (place : Option (Fin 12 × Role)) : t.offsetAt place = s.offsetAt place := by
  unfold State.offsetAt
  cases place with
  | none => rfl
  | some p => simp [h p.1]

theorem DelaysKept.effectiveDelay {s t : State} (h : DelaysKept s t) (o : Fin 192) :
    t.effectiveDelay o = s.effectiveDelay o := by
  rw [effectiveDelay_eq, effectiveDelay_eq, offsetAt_congr h.config, (h.outputs o).place, (h.outputs o).delay]

theorem storeSound_congr {s t : State} (h : StoreSound s) (pages : ∀ o, (t.outputs.get o).pages = (s.outputs.get o).pages)
    (bad : t.badPages = s.badPages) : StoreSound t := by
  refine ⟨fun o => ?_, fun o p => ?_, fun o o' p => ?_, bad ▸ h.badOnce, bad ▸ h.badRange⟩
  · rw [pages]
    exact h.once o
  · rw [pages, bad]
    exact h.good o p
  · rw [pages, pages]
    exact h.apart o o' p

theorem testSound_congr {s t : State} (h : TestSound s) (pages : ∀ o, (t.outputs.get o).pages = (s.outputs.get o).pages)
    (bad : t.badPages = s.badPages) (test : t.selftest = s.selftest) : TestSound t := by
  refine ⟨fun running => ?_, test ▸ h.faultsOnce, test ▸ h.faultsTested⟩
  rw [test] at running ⊢
  obtain ⟨none, early, empty⟩ := h.empty running
  exact ⟨bad.trans none, early, fun o => (pages o).trans (empty o)⟩

theorem pageLaw_congr {s t : State} (h : Holds PageLaw s) (pages : ∀ o, (t.outputs.get o).pages = (s.outputs.get o).pages)
    (line : ∀ o, (t.outputs.get o).line.length = (s.outputs.get o).line.length)
    (delay : ∀ o, t.effectiveDelay o = s.effectiveDelay o) (bad : t.badPages = s.badPages)
    (test : t.selftest = s.selftest) : Holds PageLaw t := by
  obtain ⟨delays, store, tests⟩ := (pageLaw_iff s).1 h.holds
  refine ⟨(pageLaw_iff t).2 ⟨⟨fun o => ?_, fun o => ?_⟩, storeSound_congr store pages bad,
    testSound_congr tests pages bad test⟩⟩
  · rw [pages, delay]
    exact delays.pages o
  · rw [line, delay]
    exact delays.line o

theorem pageLaw_of_delaysKept {s t : State} (h : Holds PageLaw s) (ht : DelaysKept s t) : Holds PageLaw t :=
  pageLaw_congr h (fun o => (ht.outputs o).pages) (fun o => (ht.outputs o).line) ht.effectiveDelay ht.badPages ht.selftest

theorem pageLaw_of_showOnly {s t : State} (h : Holds PageLaw s) (ht : ShowOnly s t) : Holds PageLaw t :=
  pageLaw_of_delaysKept h ht.storeKept.delaysKept

/-! ### Reports -/

theorem takeReport_delaysKept (o : Fin 192) (r : Report) (s : State) : DelaysKept s (takeReport o r s) := by
  unfold takeReport
  split
  · exact .refl s
  · exact .trans (modOutput_delaysKept o _ s) (healthChanged_showOnly ..).storeKept.delaysKept

theorem findOutput_delaysKept (o : Fin 192) (s : State) : DelaysKept s (findOutput o s) := by
  unfold findOutput
  dsimp only
  split
  · exact .trans (modOutput_delaysKept o _ s) (healthChanged_showOnly ..).storeKept.delaysKept
  · exact .refl s

theorem loseOutput_delaysKept (o : Fin 192) (s : State) : DelaysKept s (loseOutput o s) := by
  unfold loseOutput
  dsimp only
  split
  · exact .refl s
  · exact .trans (modOutput_delaysKept o _ s) (healthChanged_showOnly ..).storeKept.delaysKept

theorem returnBlock_delaysKept (l : Fin 12) (r : Option Report) (s : State) : DelaysKept s (returnBlock l r s) := by
  have locked : ∀ f, DelaysKept s (s.modReturnLane l f) := fun f =>
    ⟨fun _ => ⟨rfl, rfl, rfl, rfl⟩, fun _ => rfl, rfl, rfl⟩
  unfold returnBlock
  dsimp only
  split
  · split
    · refine .trans ?_ (takeReport_delaysKept _ _ _)
      exact .trans (locked _) (.overList findOutput_delaysKept _ _)
    · exact locked _
  · exact locked _
  · exact .trans (locked _) (takeReport_delaysKept _ _ _)
  · split
    · exact .trans (locked _) (.overList loseOutput_delaysKept _ _)
    · exact locked _

/-! ### The self-test -/

/-- The faults found so far with those of the next two pages (04 R88). -/
theorem test_sound {t : SelfTest} (once : t.faults.Nodup) (tested : ∀ p ∈ t.faults, p < 2 * t.blocks) (a b : Bool) :
    (t.test a b).faults.Nodup ∧ ∀ p ∈ (t.test a b).faults, p < 2 * (t.test a b).blocks := by
  have next : ((if a then [2 * t.blocks] else []) ++ (if b then [2 * t.blocks + 1] else [])).Nodup := by
    cases a <;> cases b <;> simp
  have range : ∀ p ∈ (if a then [2 * t.blocks] else []) ++ (if b then [2 * t.blocks + 1] else []),
      2 * t.blocks ≤ p ∧ p < 2 * (t.blocks + 1) := by
    cases a <;> cases b <;> simp <;> omega
  have faults : (t.test a b).faults =
      t.faults ++ ((if a then [2 * t.blocks] else []) ++ (if b then [2 * t.blocks + 1] else [])) := by
    simp [SelfTest.test]
  rw [faults]
  refine ⟨List.nodup_append.2 ⟨once, next, fun p hp q hq e => ?_⟩, fun p hp => ?_⟩
  · have late := (range q hq).1
    have early := tested p hp
    omega
  · change p < 2 * (t.blocks + 1)
    rcases List.mem_append.1 hp with hp | hp
    · have early := tested p hp
      omega
    · exact (range p hp).2

theorem ends_running {t : SelfTest} (h : t.ends = true) : t.running = true := by
  unfold SelfTest.ends at h
  exact (Bool.and_eq_true_iff.1 h).1

theorem completeSelftest_pageLaw {s : State} (h : Holds PageLaw s) (ends : s.selftest.ends = true) (a b : Bool) :
    Holds PageLaw (completeSelftest a b s) := by
  obtain ⟨delays, store, test⟩ := (pageLaw_iff s).1 h.holds
  obtain ⟨-, early, empty⟩ := test.empty (ends_running ends)
  obtain ⟨once, tested⟩ := test_sound test.faultsOnce test.faultsTested a b
  have none : ∀ o, ((completeSelftest a b s).outputs.get o).pages = [] := empty
  refine ⟨(pageLaw_iff _).2 ⟨⟨delays.pages, delays.line⟩, ⟨fun o => ?_, fun o p hp => ?_, fun o o' p hp => ?_, once, fun p hp => ?_⟩,
    ⟨fun running => Bool.noConfusion running, once, tested⟩⟩⟩
  · rw [none]
    exact .nil
  · rw [none] at hp
    cases hp
  · rw [none] at hp
    cases hp
  · have last := tested p hp
    have blocks : (s.selftest.test a b).blocks = s.selftest.blocks + 1 := rfl
    have size : Config.pageCount = 2 * Config.selftestBlocks := by decide
    omega

theorem tickSelftest_pageLaw {s : State} (h : Holds PageLaw s) (a b : Bool) : Holds PageLaw (tickSelftest a b s) := by
  unfold tickSelftest
  split
  · exact completeSelftest_pageLaw h ‹_› a b
  · next goes =>
    split
    · next running =>
      obtain ⟨delays, store, test⟩ := (pageLaw_iff s).1 h.holds
      obtain ⟨none, -, empty⟩ := test.empty running
      obtain ⟨once, tested⟩ := test_sound test.faultsOnce test.faultsTested a b
      have early : s.selftest.blocks + 1 < Config.selftestBlocks := by
        unfold SelfTest.ends at goes
        rw [running] at goes
        simpa using goes
      exact ⟨(pageLaw_iff _).2 ⟨⟨delays.pages, delays.line⟩, ⟨store.once, store.good, store.apart, store.badOnce, store.badRange⟩,
        ⟨fun _ => ⟨none, early, empty⟩, once, tested⟩⟩⟩
    · exact h

theorem houseBlock_pageLaw {s : State} (h : Holds PageLaw s) (inp : BlockInputs) : Holds PageLaw (houseBlock inp s) := by
  have tested : Holds PageLaw (atHouseBlock inp s) := by
    rw [atHouseBlock_eq]
    refine pageLaw_of_showOnly (tickSelftest_pageLaw ?_ _ _) (ensureClosed_showOnly _)
    exact pageLaw_of_showOnly h (beforeSelftest_showOnly inp s)
  exact pageLaw_of_delaysKept tested (houseBlock_storeKept inp s).delaysKept

/-! ### Reallocations -/

theorem reallocRefusal_none {s : State} {cs : List Change} (h : s.reallocRefusal cs = none) :
    s.selftest.running = false ∧ s.netPages cs ≤ s.freePages.length := by
  unfold State.reallocRefusal at h
  split at h
  · cases h
  · next done =>
    split at h
    · cases h
    · split at h
      · cases h
      · next room => exact ⟨by simpa using done, not_lt.1 room⟩

/-- A move that gives the outputs it reallocates the delays of their changes, and no other output another delay, keeps the
law. -/
theorem reallocate_pageLaw {s t : State} {cs : List Change} (h : Holds PageLaw s) (outputs : (cs.map Change.output).Nodup)
    (free : s.reallocRefusal cs = none) (pages : ∀ o, (t.outputs.get o).pages = ((reallocate cs s).outputs.get o).pages)
    (line : ∀ o, (t.outputs.get o).line = ((reallocate cs s).outputs.get o).line) (bad : t.badPages = s.badPages)
    (test : t.selftest = s.selftest) (changed : ∀ c ∈ cs, t.effectiveDelay c.output = c.delay)
    (others : ∀ o, o ∉ cs.map Change.output → t.effectiveDelay o = s.effectiveDelay o) : Holds PageLaw t := by
  obtain ⟨delays, store, tests⟩ := (pageLaw_iff s).1 h.holds
  obtain ⟨done, room⟩ := reallocRefusal_none free
  have kept : (reallocate cs s).badPages = s.badPages := by
    obtain ⟨o, e⟩ := reallocate_frame cs s
    rw [e]
  refine ⟨(pageLaw_iff t).2 ⟨⟨fun o => ?_, fun o => ?_⟩,
    storeSound_congr (reallocate_sound store cs) pages (bad.trans kept.symm),
    ⟨fun running => ?_, test ▸ tests.faultsOnce, test ▸ tests.faultsTested⟩⟩⟩
  · rw [pages]
    by_cases ho : o ∈ cs.map Change.output
    · obtain ⟨c, hc, rfl⟩ := List.mem_map.1 ho
      rw [(reallocate_pages outputs store room hc).1, changed c hc]
      rfl
    · rw [reallocate_get_other ho, others o ho]
      exact delays.pages o
  · rw [line]
    by_cases ho : o ∈ cs.map Change.output
    · obtain ⟨c, hc, rfl⟩ := List.mem_map.1 ho
      rw [(reallocate_pages outputs store room hc).2, changed c hc, List.length_replicate]
    · rw [reallocate_get_other ho, others o ho]
      exact delays.line o
  · rw [test, done] at running
    cases running

section
variable {s : State} {o : Fin 192} {d : Nat} {f : Output → Output} (h : Holds PageLaw s)
  (keeps : ∀ x, (f x).pages = x.pages ∧ (f x).line = x.line)
  (delay : ∀ x : Output, x.place = (s.outputs.get o).place → x.delay = (s.outputs.get o).delay →
    (f x).delay + s.offsetAt (f x).place = d)
include h keeps delay

/-- An output changes, and its effective delay stays. -/
theorem modOutput_pageLaw (same : d = s.effectiveDelay o) : Holds PageLaw (s.modOutput o f) := by
  refine pageLaw_congr h (fun p => ?_) (fun p => ?_) (fun p => ?_) rfl rfl
  · rw [get_modOutput]
    split
    · exact (keeps _).1
    · rfl
  · rw [get_modOutput]
    split
    · rw [(keeps _).2]
    · rfl
  · by_cases e : o = p
    · subst e
      rw [← same, ← delay (s.outputs.get o) rfl rfl, effectiveDelay_eq, get_modOutput, if_pos rfl]
      rfl
    · rw [effectiveDelay_eq, effectiveDelay_eq, get_modOutput, if_neg e]
      rfl

/-- An output changes and is reallocated to its new effective delay. -/
theorem modOutput_reallocated_pageLaw (free : s.reallocRefusal [⟨o, d⟩] = none) :
    Holds PageLaw ((reallocate [⟨o, d⟩] s).modOutput o f) := by
  have same := reallocate_pagesOnly [⟨o, d⟩] s
  obtain ⟨y, frame⟩ := reallocate_frame [⟨o, d⟩] s
  have offset : ∀ place, ((reallocate [⟨o, d⟩] s).modOutput o f).offsetAt place = s.offsetAt place :=
    offsetAt_congr fun n => by rw [modOutput_screens, frame]
  refine reallocate_pageLaw (cs := [⟨o, d⟩]) h (List.nodup_singleton o) free (fun p => ?_) (fun p => ?_) ?_ ?_ (fun c hc => ?_) fun p hp => ?_
  · rw [get_modOutput]
    split
    · exact (keeps _).1
    · rfl
  · rw [get_modOutput]
    split
    · exact (keeps _).2
    · rfl
  · rw [modOutput_badPages, frame]
  · rw [modOutput_selftest, frame]
  · obtain rfl := List.mem_singleton.1 hc
    rw [effectiveDelay_eq, offset, get_modOutput, if_pos rfl]
    exact delay _ (by rw [same o]) (by rw [same o])
  · have other : o ≠ p := fun e => hp (by simp [e])
    rw [effectiveDelay_eq, effectiveDelay_eq, offset, get_modOutput, if_neg other, same p]
end

theorem lipChanges_outputs (s : State) (n : Fin 12) (lip : Nat) :
    (s.lipChanges n lip).map Change.output = s.outputsOf n := by
  rw [State.lipChanges, List.map_map]
  exact List.map_id _

/-- Storing a configuration replaces the configuration of its own screen. -/
theorem stored_config {s u : State} (hu : u.screens = s.screens) (n m : Fin 12) (c : ScreenConfig) :
    ((u.modScreen n fun x => { x with config := c }).screens.get m).config =
      if n = m then c else (s.screens.get m).config := by
  rw [modScreen_screens, Tab.get_modify, hu]
  split <;> rfl

/-- An output on the stored screen takes the stored lip-sync offset. -/
theorem stored_offsetAt_here {s u : State} (hu : u.screens = s.screens) {n : Fin 12} {c : ScreenConfig} {o : Fin 192}
    (ho : (s.outputs.get o).screen = some n) :
    (u.modScreen n fun x => { x with config := c }).offsetAt (s.outputs.get o).place = c.lipSync := by
  obtain ⟨p, hp, rfl⟩ := Option.map_eq_some_iff.1 ho
  simp only [State.offsetAt, hp, Option.map_some, Option.getD_some, stored_config hu, if_true]

/-- An output on no screen, or on another, keeps its offset. -/
theorem stored_offsetAt_elsewhere {s u : State} (hu : u.screens = s.screens) {n : Fin 12} {c : ScreenConfig} {o : Fin 192}
    (ho : (s.outputs.get o).screen ≠ some n) :
    (u.modScreen n fun x => { x with config := c }).offsetAt (s.outputs.get o).place =
      s.offsetAt (s.outputs.get o).place := by
  unfold State.offsetAt
  cases hp : (s.outputs.get o).place with
  | none => rfl
  | some p =>
    have other : n ≠ p.1 := fun e => ho (by rw [Output.screen, hp, e]; rfl)
    simp only [Option.map_some, Option.getD_some, stored_config hu, if_neg other]

/-- Where the lip-sync offset stays, every output keeps its delay. -/
theorem stored_same_pageLaw {s : State} (h : Holds PageLaw s) {n : Fin 12} {c : ScreenConfig}
    (same : c.lipSync = (s.screens.get n).config.lipSync) :
    Holds PageLaw (s.modScreen n fun x => { x with config := c }) := by
  refine pageLaw_congr h (fun _ => rfl) (fun _ => rfl) (fun o => ?_) rfl rfl
  rw [effectiveDelay_eq, effectiveDelay_eq, modScreen_outputs]
  by_cases ho : (s.outputs.get o).screen = some n
  · obtain ⟨p, hp, rfl⟩ := Option.map_eq_some_iff.1 ho
    rw [stored_offsetAt_here rfl ho, same, State.offsetAt, hp]
    rfl
  · rw [stored_offsetAt_elsewhere rfl ho]

/-- Where the lip-sync offset changes, the screen's outputs are reallocated for their new delays. -/
theorem stored_moved_pageLaw {s : State} (h : Holds PageLaw s) {n : Fin 12} {c : ScreenConfig}
    (accepted : s.reallocRefusal (s.lipChanges n c.lipSync) = none) :
    Holds PageLaw ((reallocate (s.lipChanges n c.lipSync) s).modScreen n fun x => { x with config := c }) := by
  have pagesOnly := reallocate_pagesOnly (s.lipChanges n c.lipSync) s
  obtain ⟨y, frame⟩ := reallocate_frame (s.lipChanges n c.lipSync) s
  have screens : (reallocate (s.lipChanges n c.lipSync) s).screens = s.screens := by rw [frame]
  refine reallocate_pageLaw h ?_ accepted (fun _ => rfl) (fun _ => rfl) ?_ ?_ (fun d hd => ?_) fun o ho => ?_
  · rw [lipChanges_outputs]
    exact (List.nodup_finRange 192).filter _
  · rw [modScreen_badPages, frame]
  · rw [modScreen_selftest, frame]
  · obtain ⟨o, ho, rfl⟩ := List.mem_map.1 hd
    have on := of_decide_eq_true (List.mem_filter.1 ho).2
    rw [effectiveDelay_eq, modScreen_outputs, pagesOnly o]
    exact congrArg _ (stored_offsetAt_here screens on)
  · have off : (s.outputs.get o).screen ≠ some n := fun on => ho <| by
      rw [lipChanges_outputs]
      exact List.mem_filter.2 ⟨List.mem_finRange o, decide_eq_true on⟩
    rw [effectiveDelay_eq, effectiveDelay_eq, modScreen_outputs, pagesOnly o]
    exact congrArg _ (stored_offsetAt_elsewhere screens off)

/-- A changed lip-sync offset that is not refused has a reallocation that is not refused. -/
theorem reallocRefusal_of_setRefusal {s : State} {n : Fin 12} {c : ScreenConfig} (free : s.setRefusal n c = none)
    (differs : c.lipSync ≠ (s.screens.get n).config.lipSync) : s.reallocRefusal (s.lipChanges n c.lipSync) = none := by
  unfold State.setRefusal at free
  dsimp only at free
  rw [if_neg differs] at free
  split at free
  · cases free
  · exact free

/-- A SCREEN SET reallocates the outputs of its screen where the lip-sync offset differs (01 R24). -/
theorem applyConfig_pageLaw {s : State} (h : Holds PageLaw s) {n : Fin 12} {c : ScreenConfig}
    (free : s.setRefusal n c = none) : Holds PageLaw (applyConfig n c s) := by
  have stored : Holds PageLaw ((if c.lipSync = (s.screens.get n).config.lipSync then s
      else reallocate (s.lipChanges n c.lipSync) s).modScreen n fun x => { x with config := c }) := by
    split
    · next same => exact stored_same_pageLaw h same
    · next differs => exact stored_moved_pageLaw h (reallocRefusal_of_setRefusal free differs)
  unfold applyConfig
  dsimp only
  split
  · exact pageLaw_of_showOnly stored (recompute_showOnly ..)
  · exact stored

/-- After a reset the store is empty. -/
theorem pageLaw_of_reset {s : State} (outputs : ∀ o, s.outputs.get o = Output.reset) (test : TestSound s)
    (badOnce : s.badPages.Nodup) (badRange : ∀ p ∈ s.badPages, p < Config.pageCount) : Holds PageLaw s := by
  have none : ∀ o, (s.outputs.get o).pages = [] := fun o => by rw [outputs]; rfl
  have zero : ∀ o, s.effectiveDelay o = 0 := fun o => by rw [effectiveDelay_eq, outputs]; rfl
  refine ⟨(pageLaw_iff s).2 ⟨⟨fun o => ?_, fun o => ?_⟩, ⟨fun o => ?_, fun o p hp => ?_, fun o o' p hp => ?_, badOnce, badRange⟩,
    test⟩⟩
  · rw [none, zero]
    rfl
  · rw [zero, outputs]
    rfl
  · rw [none]
    exact .nil
  · rw [none] at hp
    cases hp
  · rw [none] at hp
    cases hp

theorem powerOn_output (lines : SiteLines) (o : Fin 192) : (State.powerOn lines).outputs.get o = Output.reset :=
  Tab.get_fill ..

theorem restart_pageLaw {s : State} (h : Holds PageLaw s) (a b : Bool) : Holds PageLaw (restartPart a b s) := by
  obtain ⟨-, store, test⟩ := (pageLaw_iff s).1 h.holds
  have outputs : ∀ o, (restartPart a b s).outputs.get o = Output.reset := powerOn_output ⟨s.evac, a, b⟩
  refine pageLaw_of_reset outputs ⟨fun running => ?_, test.faultsOnce, test.faultsTested⟩ store.badOnce store.badRange
  obtain ⟨none, early, -⟩ := test.empty running
  exact ⟨none, early, fun o => by rw [outputs]; rfl⟩

theorem testSound_of_reset {s : State} (outputs : ∀ o, s.outputs.get o = Output.reset) (bad : s.badPages = [])
    (test : s.selftest = { running := true, blocks := 0, faults := [] }) : TestSound s := by
  refine ⟨fun _ => ⟨bad, ?_, fun o => by rw [outputs]; rfl⟩, ?_, fun p hp => ?_⟩
  · rw [test]
    exact Nat.two_pow_pos 11
  · rw [test]
    exact .nil
  · rw [test] at hp
    cases hp

theorem Moves.pageLaw {i : Instr} {s t : State} (hm : Moves i s t) (h : Holds PageLaw s) : Holds PageLaw t := by
  by_cases hi : movesPlant i = false
  · exact pageLaw_of_showOnly h (hm.showOnly hi)
  cases hm with
  | powerOn lines =>
    exact pageLaw_of_reset (powerOn_output lines) (testSound_of_reset (powerOn_output lines) rfl rfl) .nil fun p hp => by cases hp
  | houseBlock inp => exact houseBlock_pageLaw h inp
  | referenceLost inp => exact pageLaw_of_showOnly (houseBlock_pageLaw h inp) (changeClock_showOnly ..)
  | interval => exact pageLaw_of_delaysKept h (takeInterval_storeKept s).delaysKept
  | selftest ends => exact completeSelftest_pageLaw h ends _ _
  | activityLost l => exact pageLaw_of_delaysKept h (loseActivity_storeKept l s).delaysKept
  | activitySeen l => exact pageLaw_of_delaysKept h (seeActivity_storeKept l s).delaysKept
  | blockFound l b p k => exact pageLaw_of_delaysKept h (findBlock_storeKept l b p k s).delaysKept
  | laneBlock l b k x => exact pageLaw_of_delaysKept h (laneBlock_storeKept l b k x s).delaysKept
  | automaticStart e => exact pageLaw_of_delaysKept h (laneBlock_storeKept ..).delaysKept
  | returnBlock l aux => exact pageLaw_of_delaysKept h (returnBlock_delaysKept l _ s)
  | restart port a b => exact restart_pageLaw h a b
  | screenSet c free => exact applyConfig_pageLaw h free
  | laneSet l => exact pageLaw_of_delaysKept h (modLane_storeKept ..).delaysKept
  | outputMap new _ _ _ same =>
    refine modOutput_pageLaw (d := s.effectiveDelay _) h (fun _ => ⟨rfl, rfl⟩) (fun x _ hd => ?_) rfl
    rw [effectiveDelay_eq, same, ← hd]
  | outputMoved new _ _ _ free =>
    exact modOutput_reallocated_pageLaw h (fun _ => ⟨rfl, rfl⟩) (fun x _ hd => by rw [← hd]) free
  | tuneLoad g b d same =>
    exact modOutput_pageLaw h (fun _ => ⟨rfl, rfl⟩) (fun x hp _ => congrArg (fun p => d + s.offsetAt p) hp) same
  | tuneMoved g b d free =>
    exact modOutput_reallocated_pageLaw h (fun _ => ⟨rfl, rfl⟩) (fun x hp _ => congrArg (fun p => d + s.offsetAt p) hp) free
  | senseSet o => exact pageLaw_of_delaysKept h (modOutput_delaysKept o _ s)
  | exclude o =>
    exact pageLaw_of_showOnly (pageLaw_of_delaysKept h (modOutput_delaysKept o _ s)) (healthChanged_showOnly ..)
  | includeOutput o =>
    exact pageLaw_of_showOnly (pageLaw_of_delaysKept h (modOutput_delaysKept o _ s)) (healthChanged_showOnly ..)
  | cueAdd => exact pageLaw_of_delaysKept h ⟨fun _ => ⟨rfl, rfl, rfl, rfl⟩, fun _ => rfl, rfl, rfl⟩
  | cueRemove => exact pageLaw_of_delaysKept h ⟨fun _ => ⟨rfl, rfl, rfl, rfl⟩, fun _ => rfl, rfl, rfl⟩
  | cueClear n =>
    refine pageLaw_of_delaysKept h ?_
    unfold clearCues
    exact ⟨fun _ => ⟨rfl, rfl, rfl, rfl⟩, fun _ => rfl, rfl, rfl⟩
  | _ => exact absurd rfl hi

/-- Settles O57: the law, move by move, and the count of the pages: those in one state are listed without repetition. -/
theorem pageLawKept : Obligations.PageLawKept := by
  refine ⟨fun s t h ht => ?_, fun s h => ?_⟩
  · exact (step_keeps (P := Holds PageLaw) (fun _ _ h => ⟨h.holds⟩) (fun _ _ h => ⟨h.holds⟩) (fun _ _ _ h hm => hm.pageLaw h)
      ⟨h⟩ ht).holds
  · obtain ⟨-, store, -⟩ := (pageLaw_iff s).1 h
    exact ⟨length_bad store, length_inUse store, length_free store⟩

end Sys2Proof.Machine
end

section
/-! The reallocation of the delay store, said whole (04 R86, R87). -/

namespace Sys2Proof.Machine

theorem overList_singleton {α : Type} (f : α → State → State) (x : α) (s : State) : overList f [x] s = f x s := rfl

theorem reallocate_shrinks {s : State} {c : Change} (h : c.needs ≤ s.held c) : reallocate [c] s =
    s.modOutput c.output fun x => { x with pages := x.pages.take c.needs, line := List.replicate c.delay 0 } := by
  have shrunk : shrink c s = s.modOutput c.output fun x => x.restart c.delay (x.pages.take c.needs) := if_pos h
  have few : ¬(shrink c s).held c < c.needs := by
    rw [State.held, shrink_eq, get_modOutput, if_pos rfl, giveUp_pages, List.length_take]
    have own : s.held c = (s.outputs.get c.output).pages.length := rfl
    omega
  rw [reallocate, overList_singleton, overList_singleton, grow, if_neg few, shrunk]
  rfl

theorem reallocate_grows {s : State} {c : Change} (h : s.held c < c.needs) : reallocate [c] s =
    s.modOutput c.output fun x =>
      { x with
        pages := x.pages ++ s.freePages.take (c.needs - x.pages.length), line := List.replicate c.delay 0 } := by
  have kept : shrink c s = s := if_neg (not_le.2 h)
  rw [reallocate, overList_singleton, overList_singleton, kept, grow_eq]
  exact modOutput_congr (if_pos h)

/-- The pages FREE between the two passes are those that no list keeps. -/
theorem shrinkAll_freePages {s : State} {cs : List Change} (outputs : (cs.map Change.output).Nodup)
    {kept : Fin 192 → List Nat} (other : ∀ o, (∀ c ∈ cs, c.output ≠ o) → kept o = (s.outputs.get o).pages)
    (own : ∀ c ∈ cs, kept c.output = (s.outputs.get c.output).pages.take c.needs) :
    (overList shrink cs s).freePages =
      (List.range 4096).filter fun p => decide (p ∉ s.badPages ∧ ∀ o, p ∉ kept o) := by
  have pages : ∀ o, ((overList shrink cs s).outputs.get o).pages = kept o := fun o => by
    by_cases ho : o ∈ cs.map Change.output
    · obtain ⟨c, hc, rfl⟩ := List.mem_map.1 ho
      rw [shrinkAll_get outputs hc, giveUp_pages, own c hc]
    · rw [overList_get_other shrink_get_other ho, other o fun c hc e => ho (e ▸ List.mem_map_of_mem hc)]
  have bad : (overList shrink cs s).badPages = s.badPages :=
    overList_induct (P := fun t => t.badPages = s.badPages) rfl fun c _ t ht => by rw [shrink_eq]; exact ht
  generalize overList shrink cs s = t at pages bad
  rw [freePages_eq]
  refine List.filter_congr fun p hp => ?_
  rw [Bool.eq_iff_iff, decide_eq_true_iff, decide_eq_true_iff, mem_freePages, bad]
  simp only [pages]
  exact ⟨fun h => h.2, fun h => ⟨List.mem_range.1 hp, h⟩⟩

/-- Settles O39: the refusals are the definition's; a list gives up or takes pages at its end, and the passes find the
FREE pages that the changes before have left. -/
theorem reallocationMovesPages : Obligations.ReallocationMovesPages := by
  intro s
  refine ⟨fun cs running => if_pos running, fun cs done far => ?_, fun cs done near => ?_, fun c h => reallocate_shrinks h,
    fun c h => reallocate_grows h, fun cs law outputs free => ?_, fun cs kept free law outputs accepted other own hfree
      before c after e => ?_, fun n lip => rfl⟩
  · have past : (cs.any fun c => decide (Config.maxDelay < c.delay)) = true := by
      obtain ⟨c, hc, h⟩ := far
      exact List.any_eq_true.2 ⟨c, hc, decide_eq_true h⟩
    rw [State.reallocRefusal, if_neg (by simp [done]), if_pos past]
  · have within : ¬(cs.any fun c => decide (Config.maxDelay < c.delay)) = true := fun h => by
      obtain ⟨c, hc, far⟩ := List.any_eq_true.1 h
      exact absurd (near c hc) (not_le.2 (of_decide_eq_true far))
    rw [State.reallocRefusal, if_neg (by simp [done]), if_neg within]
    rfl
  · obtain ⟨-, store, -⟩ := (pageLaw_iff s).1 law
    obtain ⟨-, room⟩ := reallocRefusal_none free
    exact ⟨fun c hc => reallocate_pages outputs store room hc, fun o ho => reallocate_get_other fun hm => by
      obtain ⟨c, hc, e⟩ := List.mem_map.1 hm
      exact ho c hc e, reallocate_freePages outputs store room⟩
  · rw [reallocate_get outputs e, takeUp_pages, giveUp_pages, shrinkAll_freePages outputs other own, ← hfree,
      own c (by simp [e])]
    have needs : c.needs - ((s.outputs.get c.output).pages.take c.needs).length =
        c.needs - (s.outputs.get c.output).pages.length := by
      rw [List.length_take]
      omega
    rw [needs]
    rfl

end Sys2Proof.Machine
end

section
/-! The law of calibration (10 R171, R172), move by move: most of the part leaves the CALIBRATING screens, sets no tone and
at most ends the measurement in flight (`CalibrationKept`). -/

namespace Sys2Proof.Machine

/-! ### What leaves calibrations -/

/-- A context as it was, reset, or in flight on the same screen and target. -/
def Context.Follows (c d : Context) : Prop :=
  d = Context.reset ∨ d = c ∨ c.inFlight = true ∧ d.inFlight = true ∧ d.screen = c.screen ∧ d.target = c.target

/-- Outputs stay on their screens, no tone flag is set, CALIBRATING screens stay so, and the measurement in flight goes on
or ends. -/
structure CalibrationKept (s t : State) : Prop where
  screen : ∀ o, (t.outputs.get o).screen = (s.outputs.get o).screen
  tone : ∀ o, (t.outputs.get o).toneFlag = true → (s.outputs.get o).toneFlag = true
  state : ∀ n, (s.screens.get n).state = .calibrating → (t.screens.get n).state = .calibrating
  context : s.context.Follows t.context

theorem Context.Follows.refl (c : Context) : c.Follows c := .inr (.inl rfl)

theorem reset_not_inFlight : Context.reset.inFlight = false := rfl

theorem Context.Follows.trans {c d e : Context} (h : c.Follows d) (h' : d.Follows e) : c.Follows e := by
  rcases h' with ended | same | ⟨before, after, screen, target⟩
  · exact .inl ended
  · exact same ▸ h
  · rcases h with ended | same | ⟨first, -, screen', target'⟩
    · rw [ended, reset_not_inFlight] at before
      cases before
    · subst same
      exact .inr (.inr ⟨before, after, screen, target⟩)
    · exact .inr (.inr ⟨first, after, screen.trans screen', target.trans target'⟩)

theorem CalibrationKept.refl (s : State) : CalibrationKept s s := ⟨fun _ => rfl, fun _ h => h, fun _ h => h, .refl _⟩

theorem CalibrationKept.trans {s t u : State} (h : CalibrationKept s t) (h' : CalibrationKept t u) : CalibrationKept s u :=
  ⟨fun o => (h'.screen o).trans (h.screen o), fun o ho => h.tone o (h'.tone o ho),
    fun n hn => h'.state n (h.state n hn), h.context.trans h'.context⟩

theorem CalibrationKept.overScreens {f : Fin 12 → State → State} (h : ∀ n t, CalibrationKept t (f n t)) (s : State) :
    CalibrationKept s (overScreens f s) :=
  overScreens_induct (P := CalibrationKept s) (.refl s) fun n t ht => ht.trans (h n t)

theorem CalibrationKept.overList {α : Type} {f : α → State → State} (h : ∀ x t, CalibrationKept t (f x t)) (l : List α)
    (s : State) : CalibrationKept s (overList f l s) :=
  overList_induct (P := CalibrationKept s) (.refl s) fun x _ t ht => ht.trans (h x t)

theorem CalibrationKept.of_fields {s t : State} (ho : t.outputs = s.outputs) (hs : t.screens = s.screens)
    (hc : t.context = s.context) : CalibrationKept s t :=
  ⟨fun o => by rw [ho], fun o => by rw [ho]; exact id, fun n => by rw [hs]; exact id, by rw [hc]; exact .refl _⟩

/-- Outputs may change in all but their screens, without tone flags set. -/
theorem CalibrationKept.of_outputs {s t : State}
    (ho : ∀ o, (t.outputs.get o).screen = (s.outputs.get o).screen ∧
      ((t.outputs.get o).toneFlag = true → (s.outputs.get o).toneFlag = true))
    (hs : t.screens = s.screens) (hc : s.context.Follows t.context) : CalibrationKept s t :=
  ⟨fun o => (ho o).1, fun o => (ho o).2, fun n => by rw [hs]; exact id, hc⟩

theorem modScreen_calibrationKept {n : Fin 12} {f : Screen → Screen} {s : State}
    (h : (s.screens.get n).state = .calibrating → (f (s.screens.get n)).state = .calibrating) :
    CalibrationKept s (s.modScreen n f) := by
  refine ⟨fun _ => rfl, fun _ => id, fun m hm => ?_, .refl _⟩
  rw [modScreen_screens, Tab.get_modify]
  split
  · next e => exact e ▸ h (e ▸ hm)
  · exact hm

theorem modOutput_calibrationKept (o : Fin 192) (f : Output → Output) (s : State)
    (h : ∀ x : Output, (f x).screen = x.screen ∧ ((f x).toneFlag = true → x.toneFlag = true) := by
      intro; exact ⟨rfl, id⟩) : CalibrationKept s (s.modOutput o f) := by
  refine .of_outputs (fun p => ?_) rfl (.refl _)
  rw [get_modOutput]
  split
  · exact h _
  · exact ⟨rfl, id⟩

theorem CueKept.calibrationKept {s t : State} (h : CueKept s t) : CalibrationKept s t := by
  have shows := h.showKept
  obtain ⟨b, c, e, q, p, eq⟩ := h.frame
  refine ⟨fun o => by rw [eq], fun o => by rw [eq]; exact id, fun n hn => (shows.state n).trans hn, ?_⟩
  rw [eq]
  exact .refl _

/-! ### Shared operations -/

theorem notify_calibrationKept (m : Notice) (s : State) : CalibrationKept s (s.notify m) := .of_fields rfl rfl rfl

theorem clearTones_output (n : Fin 12) (s : State) (o : Fin 192) :
    ((clearTones n s).outputs.get o).screen = (s.outputs.get o).screen ∧
      (((clearTones n s).outputs.get o).toneFlag = true →
        (s.outputs.get o).toneFlag = true ∧ (s.outputs.get o).screen ≠ some n) := by
  simp only [clearTones, Tab.get_map]
  split
  · exact ⟨rfl, fun h => Bool.noConfusion h⟩
  · next off => exact ⟨rfl, fun h => ⟨h, off⟩⟩

theorem clearTones_calibrationKept (n : Fin 12) (s : State) : CalibrationKept s (clearTones n s) :=
  .of_outputs (fun o => ⟨(clearTones_output n s o).1, fun h => ((clearTones_output n s o).2 h).1⟩) rfl (.refl _)

theorem abortMeasurement_calibrationKept (c : AbortCause) (s : State) : CalibrationKept s (abortMeasurement c s) := by
  unfold abortMeasurement
  dsimp only
  split
  · next n _ _ _ _ =>
    refine .trans ?_ (notify_calibrationKept _ _)
    exact .of_outputs (fun o => ⟨(clearTones_output n s o).1, fun h => ((clearTones_output n s o).2 h).1⟩) rfl (.inl rfl)
  · exact .refl s

theorem abortOn_calibrationKept (n : Fin 12) (c : AbortCause) (s : State) : CalibrationKept s (abortOn n c s) := by
  unfold abortOn
  split
  · exact abortMeasurement_calibrationKept c s
  · exact .refl s

theorem abortTarget_calibrationKept (o : Fin 192) (c : AbortCause) (s : State) : CalibrationKept s (abortTarget o c s) := by
  unfold abortTarget
  split
  · split
    · exact abortMeasurement_calibrationKept c s
    · exact .refl s
  · exact .refl s

theorem recompute_calibrationKept (c : PowerCause) (s : State) : CalibrationKept s (recompute c s) := by
  unfold recompute
  refine .trans ?_ (.overScreens (fun n t => ?_) _)
  · obtain ⟨g, p, h⟩ := applyAll_frame c s.allot s
    rw [h]
    exact .of_fields rfl rfl rfl
  · unfold handSuspension
    split
    · exact (abortOn_calibrationKept n _ t).trans (clearTones_calibrationKept n _)
    · exact .refl t

theorem withdrawAlarms_calibrationKept (n : Fin 12) (s : State) : CalibrationKept s (withdrawAlarms n s) := by
  obtain ⟨a, p, h⟩ := withdrawAlarms_frame n s
  rw [h]
  exact .of_fields rfl rfl rfl

theorem notifyChanges_calibrationKept (before : Tab Screen 12) (cause : ShowCause) (s : State) :
    CalibrationKept s (notifyChanges before cause s) := by
  rw [notifyChanges_eq]
  exact .of_fields rfl rfl rfl

/-! ### Shows -/

theorem entering_calibrationKept {n : Fin 12} {f : Screen → Screen} {s : State}
    (h : (s.screens.get n).state ≠ .calibrating) : CalibrationKept s (entering n f s) := by
  have frame : (entering n f s).outputs = s.outputs ∧ (entering n f s).context = s.context := by
    obtain ⟨c, k, e⟩ := takeStamp_frame n s
    rw [entering, e]
    exact ⟨rfl, rfl⟩
  refine ⟨fun o => by rw [frame.1], fun o => by rw [frame.1]; exact id, fun m hm => ?_, by rw [frame.2]; exact .refl _⟩
  rw [entering_screen]
  split
  · next e => exact absurd (e ▸ hm) h
  · exact (stampBase_show s m).1.trans hm

theorem judgeStart_calibrationKept {n : Fin 12} {s t : State} (armed : (s.screens.get n).state = .armed)
    (h : judgeStart n s = .inr t) : CalibrationKept s t := by
  obtain ⟨-, -, eq⟩ := judgeStart_inr h
  have entered : CalibrationKept s (candidate n .show (s.screens.get n).holder s) :=
    entering_calibrationKept (by rw [armed]; simp)
  have effects : ∀ u, CalibrationKept u (startEffects n u) := fun u => by
    refine .trans ?_ (startCues_cueKept n _).calibrationKept
    exact .of_fields rfl rfl rfl
  rw [eq]
  exact (entered.trans (recompute_calibrationKept _ _)).trans (effects _)

theorem screenTakesWord_calibrationKept (n : Fin 12) (w : SideWord) (s : State) :
    CalibrationKept s (screenTakesWord n w s) := by
  unfold screenTakesWord
  dsimp only
  refine .trans ?_ (modScreen_calibrationKept id)
  split
  · next attempt =>
    unfold autoStart
    split
    · exact notify_calibrationKept _ s
    · exact (judgeStart_calibrationKept (attemptsStart_armed attempt) ‹_›).trans (notify_calibrationKept _ _)
  · exact .refl s

theorem calibrationKept_laneSteps : LaneSteps CalibrationKept where
  refl := .refl
  trans := .trans
  lane _ _ _ := .of_fields rfl rfl rfl
  notify := notify_calibrationKept
  abort := abortMeasurement_calibrationKept _
  roll _ _ := modScreen_calibrationKept id
  route _ _ _ := .of_fields rfl rfl rfl
  cues n w s := (takeWord_cueKept n w s).calibrationKept

theorem completeFade_calibrationKept {n : Fin 12} {s : State} (h : (s.screens.get n).fadeDone = true) :
    CalibrationKept s (completeFade n s) := by
  have ending : (s.screens.get n).state = .ending := by
    simp only [Screen.fadeDone, Bool.and_eq_true, decide_eq_true_eq] at h
    exact h.1
  have cleared : ∀ u, CalibrationKept u (clearBase n u) := fun u => .of_fields rfl rfl rfl
  have trimmed : ∀ u, CalibrationKept u (clearLoudTrim n u) := fun u => .of_fields rfl rfl rfl
  have armed : CalibrationKept s (s.modScreen n fun c => { c.dropFade with state := .armed, stamp := 0 }) :=
    modScreen_calibrationKept fun h => by rw [ending] at h; cases h
  unfold completeFade
  dsimp only
  refine .trans ?_ (notify_calibrationKept _ _)
  refine .trans ?_ (fireState_cueKept n .endDone _).calibrationKept
  refine .trans ?_ (trimmed _)
  refine .trans ?_ (recompute_calibrationKept _ _)
  exact armed.trans (cleared _)

theorem finishFade_calibrationKept (n : Fin 12) (s : State) : CalibrationKept s (finishFade n s) := by
  unfold finishFade
  split
  · exact completeFade_calibrationKept ‹_›
  · exact .refl s

theorem readSupply_calibrationKept (a b : Bool) (s : State) : CalibrationKept s (readSupply a b s) := by
  have read : CalibrationKept s
      { s with budget := { s.budget with supply1 := a, supply2 := b, supply := supplyOf a b } } := .of_fields rfl rfl rfl
  unfold readSupply
  dsimp only
  split
  · exact read
  · exact (read.trans (recompute_calibrationKept _ _)).trans (notify_calibrationKept _ _)

theorem formLines_calibrationKept (s : State) : CalibrationKept s (formLines s) := .of_fields rfl rfl rfl

theorem assertEvac_calibrationKept (s : State) : CalibrationKept s (assertEvac s) := by
  have moved : CalibrationKept s { s with evac := true, screens := s.screens.map Screen.evacuate } := by
    refine ⟨fun _ => rfl, fun _ => id, fun n hn => ?_, .refl _⟩
    rw [Tab.get_map, Screen.evacuate, hn]
    exact hn
  have tones : ∀ u, CalibrationKept u (clearCalibrationTones u) := fun u => .overScreens (fun n t => by
    split
    · exact clearTones_calibrationKept n t
    · exact .refl t) u
  unfold assertEvac
  dsimp only
  refine .trans ?_ (recompute_calibrationKept _ _)
  refine .trans ?_ (tones _)
  refine .trans ?_ (abortMeasurement_calibrationKept _ _)
  refine .trans ?_ (notifyChanges_calibrationKept _ _ _)
  refine .trans ?_ (notify_calibrationKept _ _)
  exact moved.trans (formLines_calibrationKept _)

theorem returnScreen_calibrationKept (n : Fin 12) (s : State) : CalibrationKept s (returnScreen n s) := by
  unfold returnScreen
  split
  · next evacuated => exact entering_calibrationKept (by rw [evacuated]; simp)
  · exact .refl s

theorem releaseEvac_calibrationKept (s : State) : CalibrationKept s (releaseEvac s) := by
  have quiet : CalibrationKept s { s with evac := false } := .of_fields rfl rfl rfl
  unfold releaseEvac
  dsimp only
  refine .trans ?_ (recompute_calibrationKept _ _)
  refine .trans ?_ (notifyChanges_calibrationKept _ _ _)
  refine .trans ?_ (notify_calibrationKept _ _)
  refine .trans ?_ (formLines_calibrationKept _)
  exact quiet.trans (.overScreens returnScreen_calibrationKept _)

theorem disabled_calibrationKept {n : Fin 12} {s : State} (station : Fin 16) (dark : (s.screens.get n).state = .dark) :
    CalibrationKept s (disabled n station s) := by
  have paths : ∀ u, CalibrationKept u (clearPaths n u) := fun u => .of_outputs (fun o => by
    simp only [clearPaths, Tab.get_map]
    split <;> exact ⟨rfl, id⟩) rfl (.refl _)
  have base : ∀ u, CalibrationKept u (clearBase n u) := fun u => .of_fields rfl rfl rfl
  have off : ∀ u, CalibrationKept u (linesOff n u) := fun u => .of_fields rfl rfl rfl
  have before : CalibrationKept s (linesOff n (rearmAll n (clearPaths n (clearBase n (withdrawAlarms n s))))) := by
    refine .trans ?_ (off _)
    refine .trans ?_ (.overList (fun e t => (rearm_cueKept e t).calibrationKept) _ _)
    refine .trans ?_ (paths _)
    exact (withdrawAlarms_calibrationKept n s).trans (base _)
  have still : ((linesOff n (rearmAll n (clearPaths n (clearBase n (withdrawAlarms n s))))).screens.get n).state = .dark :=
    (((withdrawAlarms_grantsKept n s).trans (beforeClear_grantsKept n _)).state n).trans dark
  unfold disabled
  refine .trans ?_ (notify_calibrationKept _ _)
  unfold clearScreen
  dsimp only
  generalize linesOff n (rearmAll n (clearPaths n (clearBase n (withdrawAlarms n s)))) = v at before still
  have disabled : CalibrationKept v (v.modScreen n Screen.disable) :=
    modScreen_calibrationKept fun h => by rw [still] at h; cases h
  exact before.trans ⟨disabled.screen, disabled.tone, disabled.state, disabled.context⟩

theorem moveShow_calibrationKept {n : Fin 12} {f : Screen → Screen} {s : State} (ev : CueEvent) (station : Fin 16)
    (h : (s.screens.get n).state ≠ .calibrating) : CalibrationKept s (moveShow n ev station f s) := by
  unfold moveShow
  refine .trans ?_ (fireState_cueKept n ev _).calibrationKept
  exact .trans (modScreen_calibrationKept fun e => absurd e h) (notify_calibrationKept _ _)

theorem setBudget_calibrationKept (b : Budget) (s : State) : CalibrationKept s (setBudget b s) := by
  have stored : CalibrationKept s { s with budget := b } := .of_fields rfl rfl rfl
  unfold setBudget
  dsimp only
  split
  · exact stored
  · exact stored.trans (recompute_calibrationKept _ _)

theorem reallocate_calibrationKept (cs : List Change) (s : State) : CalibrationKept s (reallocate cs s) := by
  have same := reallocate_pagesOnly cs s
  obtain ⟨y, e⟩ := reallocate_frame cs s
  refine .of_outputs (fun o => by rw [same o]; exact ⟨rfl, id⟩) (by rw [e]) ?_
  rw [e]
  exact .refl _

theorem applyConfig_calibrationKept (n : Fin 12) (c : ScreenConfig) (s : State) : CalibrationKept s (applyConfig n c s) := by
  have moved : CalibrationKept s (if c.lipSync = (s.screens.get n).config.lipSync then s
      else reallocate (s.lipChanges n c.lipSync) s) := by
    split
    · exact .refl s
    · exact reallocate_calibrationKept _ s
  unfold applyConfig
  dsimp only
  have set := moved.trans (modScreen_calibrationKept (n := n) (f := fun x => { x with config := c }) id)
  split
  · exact set.trans (recompute_calibrationKept _ _)
  · exact set

/-! ### Health -/

theorem healthChanged_calibrationKept (o : Fin 192) (previous : Health) (cause : HealthCause) (z : Option Nat)
    (station : Option (Fin 16)) (s : State) : CalibrationKept s (healthChanged o previous cause z station s) := by
  unfold healthChanged
  dsimp only
  split
  · exact .refl s
  · split
    · exact .trans (notify_calibrationKept _ s) (abortTarget_calibrationKept _ _ _)
    · split
      · exact .trans (notify_calibrationKept _ s) (abortTarget_calibrationKept _ _ _)
      · exact notify_calibrationKept _ s

theorem returnBlock_calibrationKept (l : Fin 12) (r : Option Report) (s : State) : CalibrationKept s (returnBlock l r s) := by
  have locked : ∀ f, CalibrationKept s (s.modReturnLane l f) := fun f => .of_fields rfl rfl rfl
  have taken : ∀ o q u, CalibrationKept u (takeReport o q u) := fun o q u => by
    unfold takeReport
    split
    · exact .refl u
    · exact .trans (modOutput_calibrationKept o _ u) (healthChanged_calibrationKept ..)
  have found : ∀ o u, CalibrationKept u (findOutput o u) := fun o u => by
    unfold findOutput
    dsimp only
    split
    · exact .trans (modOutput_calibrationKept o _ u) (healthChanged_calibrationKept ..)
    · exact .refl u
  have lost : ∀ o u, CalibrationKept u (loseOutput o u) := fun o u => by
    unfold loseOutput
    dsimp only
    split
    · exact .refl u
    · exact .trans (modOutput_calibrationKept o _ u) (healthChanged_calibrationKept ..)
  unfold returnBlock
  dsimp only
  split
  · split
    · exact .trans (.trans (locked _) (.overList found _ _)) (taken _ _ _)
    · exact locked _
  · exact locked _
  · exact .trans (locked _) (taken _ _ _)
  · split
    · exact .trans (locked _) (.overList lost _ _)
    · exact locked _

/-! ### Blocks and intervals, apart from the step of a measurement -/

theorem addMeasured_follows (s : State) : s.context.Follows (addMeasured s).context := by
  unfold addMeasured
  dsimp only
  split
  · next phase =>
    have inFlight : s.context.inFlight = true := by simp [Context.inFlight, phase]
    exact .inr (.inr ⟨inFlight, by simpa [Context.inFlight] using inFlight, rfl, rfl⟩)
  · next phase _ _ =>
    have inFlight : s.context.inFlight = true := by simp [Context.inFlight, phase]
    exact .inr (.inr ⟨inFlight, by simpa [Context.inFlight] using inFlight, rfl, rfl⟩)
  · exact .refl _

theorem ensureClosed_calibrationKept (s : State) : CalibrationKept s (ensureClosed s) := by
  have outputs := (ensureClosed_keeps s).2
  have context : s.context.Follows (ensureClosed s).context := by
    unfold ensureClosed
    split
    · exact .refl _
    · exact addMeasured_follows _
  obtain ⟨o, e, r, m, x, b, h⟩ := ensureClosed_frame s
  refine .of_outputs (fun o => by rw [outputs o]; exact ⟨rfl, id⟩) (by rw [h]) context

theorem judgeScreen_calibrationKept (slips : Fin 14 → Nat) (n : Fin 12) (s : State) :
    CalibrationKept s (judgeScreen slips n s) :=
  .trans (t := s.modAlarms n (Alarms.judge (s.gather slips n))) (.of_fields rfl rfl rfl)
    (judgeScreen_cueKept slips n s).calibrationKept

/-- An interval event up to the step of the measurement. -/
theorem judgeInterval_calibrationKept (s : State) : CalibrationKept s (overScreens stepBase (judgeInterval s)) := by
  have closed : CalibrationKept s (closedInterval s) := by
    have block := ensureClosed_calibrationKept s
    unfold closedInterval
    generalize ensureClosed s = u at block
    exact block.trans (.of_fields rfl rfl rfl)
  have cleared : ∀ u, CalibrationKept u (clearSlips u) := fun u => .of_fields rfl rfl rfl
  have judged : CalibrationKept s (judgeInterval s) := by
    unfold judgeInterval
    refine .trans ?_ (.overScreens (judgeScreen_calibrationKept _) _)
    exact closed.trans (cleared _)
  refine judged.trans ?_
  obtain ⟨a, h⟩ := stepBases_frame (judgeInterval s)
  rw [h]
  generalize judgeInterval s = u
  exact .of_fields rfl rfl rfl

theorem storeSensitivity_calibrationKept (n : Fin 12) (g : Target) (x : Int) (s : State) :
    CalibrationKept s (storeSensitivity n g x s) := by
  cases g with
  | reference => exact .of_fields rfl rfl rfl
  | output o => exact modOutput_calibrationKept o _ s

theorem endMeasurement_calibrationKept (s : State) : CalibrationKept s (endMeasurement s) := by
  unfold endMeasurement
  dsimp only
  split
  · next n _ _ _ =>
    have idle : CalibrationKept s { clearTones n s with context := Context.reset } :=
      .of_outputs (fun o => ⟨(clearTones_output n s o).1, fun h => ((clearTones_output n s o).2 h).1⟩) rfl (.inl rfl)
    split
    · exact idle.trans (notify_calibrationKept _ _)
    · exact (idle.trans (storeSensitivity_calibrationKept _ _ _ _)).trans (notify_calibrationKept _ _)
  · exact .of_outputs (fun _ => ⟨rfl, id⟩) rfl (.inl rfl)

theorem beforeSelftest_calibrationKept (inp : BlockInputs) (s : State) : CalibrationKept s (beforeSelftest inp s) := by
  have passed : CalibrationKept s (passReset inp.sinceReset s) := by
    obtain ⟨z, h⟩ := passReset_frame inp.sinceReset s
    rw [h]
    exact .of_fields rfl rfl rfl
  have faded : ∀ u, CalibrationKept u (advanceFades u) := fun u => by
    refine ⟨fun _ => rfl, fun _ => id, fun n hn => ?_, .refl _⟩
    rw [advanceFades, Tab.get_map, (houseFade_coreAlike _).1]
    exact hn
  exact (passed.trans (faded _)).trans (.of_fields rfl rfl rfl)

theorem atHouseBlock_calibrationKept (inp : BlockInputs) (s : State) : CalibrationKept s (atHouseBlock inp s) := by
  rw [atHouseBlock_eq]
  refine .trans ?_ (ensureClosed_calibrationKept _)
  refine (beforeSelftest_calibrationKept inp s).trans ?_
  obtain ⟨t, g, p, h⟩ := tickSelftest_frame inp.fault0 inp.fault1 (beforeSelftest inp s)
  rw [h]
  exact .of_fields rfl rfl rfl

theorem runSound_calibrationKept (periods : Nat) (flags : Tab Bool 192) (old s : State) :
    CalibrationKept s (runSound periods flags old s) := by
  have outputs : ∀ o, ((runSound periods flags old s).outputs.get o).place = (s.outputs.get o).place ∧
      ((runSound periods flags old s).outputs.get o).toneFlag = (s.outputs.get o).toneFlag := fun o => by
    obtain ⟨same, -, -⟩ := (runSound_keeps periods flags old s).2 o _ _ rfl rfl
    exact ⟨(congrArg Output.place same :), (congrArg Output.toneFlag same :)⟩
  obtain ⟨a, l, z, o, k, m, r, w, h⟩ := runSound_frame periods flags old s
  refine .of_outputs (fun o => ⟨congrArg (Option.map Prod.fst) (outputs o).1, fun ho => (outputs o).2 ▸ ho⟩) (by rw [h]) ?_
  rw [h]
  exact .refl _

end Sys2Proof.Machine
end

section
/-! The law of calibration settled (10 R171, R172): the moves that set tone flags, begin or step a measurement, or end a
calibration. -/

namespace Sys2Proof.Machine

/-! ### The law -/

theorem calibrationLaw_of_kept {s t : State} (h : Holds CalibrationLaw s) (ht : CalibrationKept s t) :
    Holds CalibrationLaw t := by
  obtain ⟨⟨idle, flight, tones⟩⟩ := h
  have toned : ∀ o, (t.outputs.get o).toneFlag = true →
      ∃ n, (t.outputs.get o).screen = some n ∧ (t.screens.get n).state = .calibrating := fun o ho => by
    obtain ⟨n, on, calibrating⟩ := tones o (ht.tone o ho)
    exact ⟨n, (ht.screen o).trans on, ht.state n calibrating⟩
  have goes : t.context.inFlight = true → s.context.inFlight = true → t.context.screen = s.context.screen →
      t.context.target = s.context.target →
      ∃ n g, t.context.screen = some n ∧ t.context.target = some g ∧ (t.screens.get n).state = .calibrating ∧
        ∀ o, g = .output o → (t.outputs.get o).screen = some n := fun _ before screen target => by
    obtain ⟨n, g, hn, hg, calibrating, on⟩ := flight before
    exact ⟨n, g, screen.trans hn, target.trans hg, ht.state n calibrating, fun o ho => (ht.screen o).trans (on o ho)⟩
  rcases ht.context with ended | same | ⟨before, after, screen, target⟩
  · refine ⟨⟨fun _ => ended, fun running => ?_, toned⟩⟩
    rw [ended, reset_not_inFlight] at running
    cases running
  · refine ⟨⟨fun stopped => ?_, fun running => ?_, toned⟩⟩
    · rw [same] at stopped ⊢
      exact idle stopped
    · exact goes running (same ▸ running) (by rw [same]) (by rw [same])
  · refine ⟨⟨fun stopped => ?_, fun running => goes running before screen target, toned⟩⟩
    rw [after] at stopped
    cases stopped

/-- The tone flags of outputs of a CALIBRATING screen may be set. -/
theorem calibrationLaw_setTones {s : State} (h : Holds CalibrationLaw s) {n : Fin 12} {outs : List (Fin 192)} (b : Bool)
    (on : ∀ o ∈ outs, (s.outputs.get o).screen = some n) (calibrating : (s.screens.get n).state = .calibrating) :
    Holds CalibrationLaw (setTones outs b s) := by
  obtain ⟨⟨idle, flight, tones⟩⟩ := h
  have screen : ∀ o, ((setTones outs b s).outputs.get o).screen = (s.outputs.get o).screen := fun o => by
    simp only [setTones, Tab.get_update]
    split <;> rfl
  refine ⟨⟨idle, fun running => ?_, fun o ho => ?_⟩⟩
  · obtain ⟨m, g, hm, hg, still, at_⟩ := flight running
    exact ⟨m, g, hm, hg, still, fun o ho => (screen o).trans (at_ o ho)⟩
  · rw [screen]
    by_cases hm : o ∈ outs
    · exact ⟨n, on o hm, calibrating⟩
    · simp only [setTones, Tab.get_update] at ho
      rw [if_neg (by simpa using hm)] at ho
      exact tones o ho

theorem mem_targetOutputs {s : State} {n : Fin 12} {g : Target} (hg : ∀ o, g = .output o → (s.outputs.get o).screen = some n)
    {o : Fin 192} (ho : o ∈ s.targetOutputs n g) : (s.outputs.get o).screen = some n := by
  cases g with
  | output p =>
    obtain rfl := List.mem_singleton.1 ho
    exact hg _ rfl
  | reference =>
    have on : o ∈ s.outputsOf n := (List.mem_filter.1 ho).1
    exact of_decide_eq_true (List.mem_filter.1 on).2

theorem readTarget_screen {s : State} {n : Fin 12} {target : Option Nat} {g : Target} (h : s.readTarget n target = some g)
    (o : Fin 192) (ho : g = .output o) : (s.outputs.get o).screen = some n := by
  rcases readTarget_eq_some.1 h with ⟨-, reference⟩ | ⟨p, -, on, output⟩
  · rw [ho] at reference
    cases reference
  · rw [ho] at output
    cases output
    exact on

/-- The context may change while the measurement is in flight on its screen and target. -/
theorem calibrationLaw_context {s : State} (h : Holds CalibrationLaw s) {c : Context} (hc : s.context.Follows c) :
    Holds CalibrationLaw { s with context := c } :=
  calibrationLaw_of_kept h (.of_outputs (fun _ => ⟨rfl, id⟩) rfl hc)

theorem follows_of_phase {c d : Context} (before : c.phase ≠ .idle) (after : d.phase ≠ .idle) (screen : d.screen = c.screen)
    (target : d.target = c.target) : c.Follows d :=
  .inr (.inr ⟨decide_eq_true before, decide_eq_true after, screen, target⟩)

theorem endPhase_calibrationLaw {s : State} (h : Holds CalibrationLaw s) : Holds CalibrationLaw (endPhase s) := by
  unfold endPhase
  dsimp only
  split
  · next phase => exact calibrationLaw_context h (follows_of_phase (by rw [phase]; simp) (by simp) rfl rfl)
  · next phase =>
    have settles : s.context.Follows
        { s.context with
          phase := .settle, count := 0, micSum := 0, background := some (lvl s.context.micSum - 66) } :=
      follows_of_phase (by rw [phase]; simp) (by simp) rfl rfl
    have running : s.context.inFlight = true := decide_eq_true (by rw [phase]; simp)
    split
    · next n g hn hg =>
      obtain ⟨-, flight, -⟩ := h.holds
      obtain ⟨m, k, hm, hk, calibrating, on⟩ := flight running
      obtain rfl : n = m := Option.some.inj (hn.symm.trans hm)
      obtain rfl : g = k := Option.some.inj (hg.symm.trans hk)
      exact calibrationLaw_setTones (calibrationLaw_context h settles) true (fun o ho => mem_targetOutputs on ho) calibrating
    · exact calibrationLaw_context h settles
  · next phase => exact calibrationLaw_context h (follows_of_phase (by rw [phase]; simp) (by simp) rfl rfl)
  · exact h
  · exact h

theorem stepMeasurement_calibrationLaw {s : State} (h : Holds CalibrationLaw s) : Holds CalibrationLaw (stepMeasurement s) := by
  unfold stepMeasurement
  dsimp only
  split
  · exact h
  · next goes =>
    have running : s.context.inFlight = true := by simpa using goes
    split
    · exact calibrationLaw_context h (.inr (.inr ⟨running, running, rfl, rfl⟩))
    · split
      · exact calibrationLaw_of_kept h (endMeasurement_calibrationKept s)
      · exact endPhase_calibrationLaw h

/-! ### Intervals and house blocks -/

theorem takeInterval_calibrationLaw {s : State} (h : Holds CalibrationLaw s) : Holds CalibrationLaw (takeInterval s) := by
  have based := calibrationLaw_of_kept h (judgeInterval_calibrationKept s)
  rw [takeInterval_eq]
  split
  · exact based
  · exact stepMeasurement_calibrationLaw based

theorem countBlock_calibrationLaw {s : State} (h : Holds CalibrationLaw s) : Holds CalibrationLaw (countBlock s) := by
  unfold countBlock
  split
  · exact h
  · split
    · exact takeInterval_calibrationLaw h
    · exact calibrationLaw_of_kept h (.of_fields rfl rfl rfl)

theorem houseBlock_calibrationLaw {s : State} (h : Holds CalibrationLaw s) (inp : BlockInputs) :
    Holds CalibrationLaw (houseBlock inp s) := by
  have counted : Holds CalibrationLaw (beforeSound inp s) :=
    countBlock_calibrationLaw (calibrationLaw_of_kept h (atHouseBlock_calibrationKept inp s))
  have sounded : Holds CalibrationLaw (afterSound inp s) :=
    calibrationLaw_of_kept counted (runSound_calibrationKept _ _ _ _)
  have ended : Holds CalibrationLaw (overScreens finishFade (readSupply inp.supply1 inp.supply2 (afterSound inp s))) :=
    calibrationLaw_of_kept sounded
      ((readSupply_calibrationKept _ _ _).trans (.overScreens finishFade_calibrationKept _))
  unfold houseBlock
  generalize overScreens finishFade (readSupply inp.supply1 inp.supply2 (afterSound inp s)) = u at ended
  exact calibrationLaw_of_kept ended (.of_fields rfl rfl rfl)

/-! ### The end of a calibration -/

/-- No measurement is in flight on the screen, and no output of it has its tone flag set. -/
def State.uncalibrated (s : State) (n : Fin 12) : Prop :=
  (s.context.inFlight = true → s.context.screen ≠ some n) ∧
    ∀ o, (s.outputs.get o).toneFlag = true → (s.outputs.get o).screen ≠ some n

theorem uncalibrated_of_state {s : State} (h : Holds CalibrationLaw s) {n : Fin 12}
    (hn : (s.screens.get n).state ≠ .calibrating) : s.uncalibrated n := by
  obtain ⟨-, flight, tones⟩ := h.holds
  refine ⟨fun running e => ?_, fun o ho e => ?_⟩
  · obtain ⟨m, g, hm, -, calibrating, -⟩ := flight running
    obtain rfl : n = m := Option.some.inj (e.symm.trans hm)
    exact hn calibrating
  · obtain ⟨m, hm, calibrating⟩ := tones o ho
    obtain rfl : n = m := Option.some.inj (e.symm.trans hm)
    exact hn calibrating

/-- A screen without measurement and tone may leave CALIBRATING. -/
theorem calibrationLaw_modScreen {s : State} (h : Holds CalibrationLaw s) {n : Fin 12} {f : Screen → Screen}
    (hn : s.uncalibrated n) : Holds CalibrationLaw (s.modScreen n f) := by
  obtain ⟨⟨idle, flight, tones⟩⟩ := h
  have other : ∀ m, m ≠ n → ((s.modScreen n f).screens.get m).state = (s.screens.get m).state := fun m hm => by
    rw [modScreen_screens, Tab.get_modify, if_neg hm.symm]
  refine ⟨⟨idle, fun running => ?_, fun o ho => ?_⟩⟩
  · obtain ⟨m, g, hm, hg, calibrating, on⟩ := flight running
    have off : m ≠ n := fun e => hn.1 running (e ▸ hm)
    exact ⟨m, g, hm, hg, (other m off).trans calibrating, on⟩
  · obtain ⟨m, hm, calibrating⟩ := tones o ho
    have off : m ≠ n := fun e => hn.2 o ho (e ▸ hm)
    exact ⟨m, hm, (other m off).trans calibrating⟩

/-- A measurement on the screen aborted and its tones cleared, none is left. -/
theorem clearTones_uncalibrated {s : State} (h : Holds CalibrationLaw s) (n : Fin 12) (c : AbortCause) :
    (clearTones n (abortOn n c s)).uncalibrated n := by
  refine ⟨fun running e => ?_, fun o ho => ?_⟩
  · have context : (clearTones n (abortOn n c s)).context = (abortOn n c s).context := rfl
    rw [context] at running e
    unfold abortOn at running e
    split at running
    · next on =>
      rw [if_pos on] at e
      simp only [Context.onScreen, Bool.and_eq_true, decide_eq_true_eq] at on
      obtain ⟨-, flight, -⟩ := h.holds
      obtain ⟨m, g, hm, hg, -, -⟩ := flight on.1
      have reset : (abortMeasurement c s).context = Context.reset := by
        unfold abortMeasurement
        simp only [on.1, hm, hg]
        rfl
      rw [reset] at e
      cases e
    · next off =>
      rw [if_neg off] at e
      refine off ?_
      simp only [Context.onScreen, Bool.and_eq_true, decide_eq_true_eq]
      exact ⟨running, e⟩
  · rw [(clearTones_output n _ o).1]
    exact ((clearTones_output n _ o).2 ho).2

theorem release_calibrationLaw {s : State} (h : Holds CalibrationLaw s) (n : Fin 12) (station : Fin 16) :
    Holds CalibrationLaw (release n station s) := by
  have freed : Holds CalibrationLaw
        (if (s.screens.get n).state = .calibrating then clearTones n (abortOn n .freed s) else s) ∧
      (if (s.screens.get n).state = .calibrating then clearTones n (abortOn n .freed s) else s).uncalibrated n := by
    split
    · exact ⟨calibrationLaw_of_kept h ((abortOn_calibrationKept n _ s).trans (clearTones_calibrationKept n _)),
        clearTones_uncalibrated h n _⟩
    · next other => exact ⟨h, uncalibrated_of_state h other⟩
  have cleared : ∀ u, CalibrationKept u (clearBase n u) := fun u => .of_fields rfl rfl rfl
  have settled : ∀ u, CalibrationKept u (if (s.screens.get n).state = .calibrating then recompute .demand u else u) := by
    intro u
    split
    · exact recompute_calibrationKept _ u
    · exact .refl u
  unfold release
  dsimp only
  refine calibrationLaw_of_kept ?_ (notify_calibrationKept _ _)
  refine calibrationLaw_of_kept ?_ (settled _)
  refine calibrationLaw_of_kept ?_ (withdrawAlarms_calibrationKept n _)
  refine calibrationLaw_of_kept ?_ (cleared _)
  exact calibrationLaw_modScreen freed.1 freed.2

/-! ### The output map -/

/-- An output whose place is not busy is not calibrated, and may be moved. -/
theorem calibrationLaw_moved {s : State} (h : Holds CalibrationLaw s) {o : Fin 192} {place : Option (Fin 12 × Role)}
    (free : s.busyPlace (s.outputs.get o).place = false) :
    Holds CalibrationLaw (s.modOutput o fun x => { x with place }) := by
  obtain ⟨⟨idle, flight, tones⟩⟩ := h
  have calm : ∀ n, (s.outputs.get o).screen = some n → (s.screens.get n).state ≠ .calibrating := fun n hn e => by
    obtain ⟨p, hp, rfl⟩ := Option.map_eq_some_iff.1 hn
    simp [State.busyPlace, hp, e, ShowState.idle] at free
  have other : ∀ p, o ≠ p → (s.modOutput o fun x => { x with place }).outputs.get p = s.outputs.get p := fun p hp => by
    rw [get_modOutput, if_neg hp]
  refine ⟨⟨idle, fun running => ?_, fun p hp => ?_⟩⟩
  · obtain ⟨n, g, hn, hg, calibrating, on⟩ := flight running
    refine ⟨n, g, hn, hg, calibrating, fun p hp => ?_⟩
    have away : o ≠ p := fun e => calm n (e ▸ on p hp) calibrating
    rw [other p away]
    exact on p hp
  · by_cases e : o = p
    · subst e
      rw [get_modOutput, if_pos rfl] at hp
      obtain ⟨n, hn, calibrating⟩ := tones o hp
      exact absurd calibrating (calm n hn)
    · rw [other p e] at hp ⊢
      exact tones p hp

/-! ### Every move -/

theorem calibrationLaw_of_reset {s : State} (hc : s.context = Context.reset)
    (ho : ∀ o, s.outputs.get o = Output.reset) : Holds CalibrationLaw s := by
  refine ⟨⟨fun _ => hc, fun running => ?_, fun o h => ?_⟩⟩
  · rw [hc, reset_not_inFlight] at running
    cases running
  · rw [ho] at h
    cases h

theorem measure_calibrationLaw {s : State} (h : Holds CalibrationLaw s) {n : Fin 12} {g : Target} (station : Fin 16)
    (on : ∀ o, g = .output o → (s.outputs.get o).screen = some n) (calibrating : (s.screens.get n).state = .calibrating) :
    Holds CalibrationLaw { clearTones n s with context := Context.begin n g station, measureStepped := false } := by
  obtain ⟨⟨-, -, tones⟩⟩ := h
  refine ⟨⟨fun stopped => Bool.noConfusion stopped, fun _ => ⟨n, g, rfl, rfl, calibrating, fun o ho => ?_⟩, fun o ho => ?_⟩⟩
  · exact (clearTones_output n s o).1.trans (on o ho)
  · obtain ⟨m, hm, still⟩ := tones o ((clearTones_output n s o).2 ho).1
    exact ⟨m, (clearTones_output n s o).1.trans hm, still⟩

theorem Moves.calibrationLaw {i : Instr} {s t : State} (hm : Moves i s t) (h : Holds CalibrationLaw s) :
    Holds CalibrationLaw t := by
  have kept : ∀ {u}, CalibrationKept s u → Holds CalibrationLaw u := fun hu => calibrationLaw_of_kept h hu
  have cleared : ∀ n u, CalibrationKept u (clearBase n u) := fun _ _ => .of_fields rfl rfl rfl
  have clocked : ∀ u, CalibrationKept u (changeClock .free .locked u) := fun _ => .of_fields rfl rfl rfl
  have ended : ∀ u : State, CalibrationKept u { u with measureStepped := true } := fun _ => .of_fields rfl rfl rfl
  cases hm with
  | powerOn lines => exact calibrationLaw_of_reset rfl (powerOn_output lines)
  | restart port a b => exact calibrationLaw_of_reset rfl (powerOn_output ⟨s.evac, a, b⟩)
  | evacAsserted => exact kept (assertEvac_calibrationKept s)
  | evacReleased => exact kept (releaseEvac_calibrationKept s)
  | houseBlock inp => exact houseBlock_calibrationLaw h inp
  | referenceLost inp => exact calibrationLaw_of_kept (houseBlock_calibrationLaw h inp) (clocked _)
  | referenceRegained => exact kept (.of_fields rfl rfl rfl)
  | interval => exact takeInterval_calibrationLaw h
  | fadeStep => exact kept (modScreen_calibrationKept fun e => (fadeAdvance_coreAlike _).1.trans e)
  | fadeCompletion done => exact kept (completeFade_calibrationKept done)
  | pulseEnd => exact kept (.of_fields rfl rfl rfl)
  | selftest => exact kept (.of_fields rfl rfl rfl)
  | activityLost => exact kept (loseActivity_related calibrationKept_laneSteps ..)
  | activitySeen => exact kept (seeActivity_related calibrationKept_laneSteps ..)
  | blockFound => exact kept (findBlock_related calibrationKept_laneSteps ..)
  | laneBlock => exact kept (laneBlock_related calibrationKept_laneSteps screenTakesWord_calibrationKept ..)
  | automaticStart => exact kept (laneBlock_related calibrationKept_laneSteps screenTakesWord_calibrationKept ..)
  | phaseEnd =>
    have stepped := endPhase_calibrationLaw (kept (ensureClosed_calibrationKept s))
    generalize endPhase (ensureClosed s) = u at stepped
    exact calibrationLaw_of_kept stepped (ended u)
  | result =>
    have stepped := (ensureClosed_calibrationKept s).trans (endMeasurement_calibrationKept _)
    generalize endMeasurement (ensureClosed s) = u at stepped
    exact kept (stepped.trans (ended u))
  | returnBlock => exact kept (returnBlock_calibrationKept ..)
  | enable off => exact kept (.trans (modScreen_calibrationKept fun e => by rw [off] at e; cases e) (notify_calibrationKept _ _))
  | disable dark => exact kept (disabled_calibrationKept _ dark)
  | hold _ _ dark =>
    refine kept (.trans ?_ (notify_calibrationKept _ _))
    exact .trans (modScreen_calibrationKept fun e => by rw [dark] at e; cases e) (cleared _ _)
  | calibrate _ _ dark _ entered =>
    refine kept (.trans ?_ (notify_calibrationKept _ _))
    refine .trans (.trans ?_ (cleared _ _)) (withdrawAlarms_calibrationKept _ _)
    rw [(enterDemand_eq entered).2]
    exact .trans (entering_calibrationKept (by rw [dark]; simp)) (recompute_calibrationKept _ _)
  | release => exact release_calibrationLaw h _ _
  | takeOver => exact kept (.trans (modScreen_calibrationKept id) (notify_calibrationKept _ _))
  | start armed judged => exact kept (.trans (judgeStart_calibrationKept armed judged) (notify_calibrationKept _ _))
  | pause shows => exact kept (moveShow_calibrationKept _ _ (by rw [shows]; simp))
  | resume paused => exact kept (moveShow_calibrationKept _ _ (by rw [paused]; simp))
  | endShow r shows => exact kept (moveShow_calibrationKept _ _ (by rcases shows with e | e <;> rw [e] <;> simp))
  | level => exact kept (modScreen_calibrationKept id)
  | screenSet c => exact kept (applyConfig_calibrationKept _ c s)
  | laneSet => exact kept (.of_fields rfl rfl rfl)
  | outputMap new free => exact calibrationLaw_moved h free
  | @outputMoved _ _ _ o _ new free =>
    have same := reallocate_pagesOnly [s.placeChange o new] s o
    refine calibrationLaw_moved (kept (reallocate_calibrationKept _ s)) ?_
    obtain ⟨y, frame⟩ := reallocate_frame [s.placeChange o new] s
    rw [same, frame]
    exact free
  | layoutSet => exact kept (.of_fields rfl rfl rfl)
  | pagingSet => exact kept (.of_fields rfl rfl rfl)
  | tuneLoad => exact kept (modOutput_calibrationKept _ _ s)
  | tuneMoved => exact kept (.trans (reallocate_calibrationKept _ s) (modOutput_calibrationKept _ _ _))
  | trim => exact kept (modOutput_calibrationKept _ _ s)
  | offsetSet => exact kept (.of_fields rfl rfl rfl)
  | alarmSet => exact kept (.of_fields rfl rfl rfl)
  | senseSet => exact kept (modOutput_calibrationKept _ _ s)
  | exclude => exact kept (.trans (modOutput_calibrationKept _ _ s) (healthChanged_calibrationKept ..))
  | includeOutput => exact kept (.trans (modOutput_calibrationKept _ _ s) (healthChanged_calibrationKept ..))
  | budgetSet b => exact kept (setBudget_calibrationKept b s)
  | cueAdd => exact kept (.of_fields rfl rfl rfl)
  | cueRemove => exact kept (.of_fields rfl rfl rfl)
  | cueClear n =>
    refine kept ?_
    unfold clearCues
    exact .of_fields rfl rfl rfl
  | lineSet => exact kept (.of_fields rfl rfl rfl)
  | lineEvacSet => exact kept (.of_fields rfl rfl rfl)
  | @tone _ _ _ _ _ n g _ b gain target calibrating =>
    have toned := calibrationLaw_setTones h b (fun o ho => mem_targetOutputs (readTarget_screen target) ho) calibrating
    generalize setTones (s.targetOutputs n g) b s = u at toned
    exact calibrationLaw_of_kept toned (.of_fields rfl rfl rfl)
  | measure target calibrating => exact measure_calibrationLaw h _ (readTarget_screen target) calibrating
  | abort => exact kept (abortMeasurement_calibrationKept _ s)
  | micSet => exact kept (.of_fields rfl rfl rfl)
  | markSet => exact kept (.of_fields rfl rfl rfl)

/-- Settles O58, move by move: a measurement begins, and a tone is set, on a CALIBRATING screen alone, and both end before
the screen leaves that state. -/
theorem calibrationLawKept : Obligations.CalibrationLawKept := fun _ _ h ht =>
  (step_keeps (P := Holds CalibrationLaw) (fun _ _ h => ⟨h.holds⟩) (fun _ _ h => ⟨h.holds⟩)
    (fun _ _ _ h hm => hm.calibrationLaw h) ⟨h⟩ ht).holds

end Sys2Proof.Machine
end

section
/-! The laws of the booth lines, the queues and the meters (05 R98, 09 R166, 11 R182, R186): most of the part leaves the
waiting commands, the energies and the counts of blocks, and keeps the lines, the queues and each meter lawful
(`Unmetered`). -/

namespace Sys2Proof.Machine

/-! ### What leaves energies and meters -/

/-- The place and the energies of an output stand, the running energy cleared perhaps. -/
structure Output.SameEnergy (x y : Output) : Prop where
  place : y.place = x.place
  blockScreen : y.blockScreen = x.blockScreen
  energy : y.energy = x.energy
  running : y.running = x.running ∨ y.running = 0

/-- The waiting commands stand, and the booth lines and the queues stay lawful. -/
structure Orderly (s t : State) : Prop where
  pending : t.pending = s.pending
  booth : BoothLaw s → BoothLaw t
  queues : QueueLaw s → QueueLaw t

/-- With that, the energies and the counts of blocks stand, and every meter stays lawful. -/
structure Unmetered (s t : State) : Prop extends Orderly s t where
  outputs : ∀ o, (s.outputs.get o).SameEnergy (t.outputs.get o)
  count : t.blockCount = s.blockCount
  closed : t.blockClosed = s.blockClosed
  taken : t.intervalTaken = s.intervalTaken
  meters : ∀ n k, (s.meters.get n).lawful k → (t.meters.get n).lawful k

theorem Output.SameEnergy.refl (x : Output) : x.SameEnergy x := ⟨rfl, rfl, rfl, .inl rfl⟩

theorem Output.SameEnergy.trans {x y z : Output} (h : x.SameEnergy y) (h' : y.SameEnergy z) : x.SameEnergy z := by
  refine ⟨h'.place.trans h.place, h'.blockScreen.trans h.blockScreen, h'.energy.trans h.energy, ?_⟩
  rcases h'.running with same | zero
  · rw [same]
    exact h.running
  · exact .inr zero

theorem Orderly.refl (s : State) : Orderly s s := ⟨rfl, id, id⟩

theorem Orderly.trans {s t u : State} (h : Orderly s t) (h' : Orderly t u) : Orderly s u :=
  ⟨h'.pending.trans h.pending, h'.booth ∘ h.booth, h'.queues ∘ h.queues⟩

theorem Unmetered.refl (s : State) : Unmetered s s :=
  ⟨.refl s, fun _ => .refl _, rfl, rfl, rfl, fun _ _ => id⟩

theorem Unmetered.trans {s t u : State} (h : Unmetered s t) (h' : Unmetered t u) : Unmetered s u :=
  ⟨h.toOrderly.trans h'.toOrderly, fun o => (h.outputs o).trans (h'.outputs o), h'.count.trans h.count,
    h'.closed.trans h.closed, h'.taken.trans h.taken, fun n k => h'.meters n k ∘ h.meters n k⟩

theorem Unmetered.overScreens {f : Fin 12 → State → State} (h : ∀ n t, Unmetered t (f n t)) (s : State) :
    Unmetered s (overScreens f s) :=
  overScreens_induct (P := Unmetered s) (.refl s) fun n t ht => ht.trans (h n t)

theorem Unmetered.overList {α : Type} {f : α → State → State} (h : ∀ x t, Unmetered t (f x t)) (l : List α) (s : State) :
    Unmetered s (overList f l s) :=
  overList_induct (P := Unmetered s) (.refl s) fun x _ t ht => ht.trans (h x t)

/-- Fields that order does not read may change. -/
theorem Orderly.of_fields {s t : State} (hp : t.pending = s.pending) (hb : t.booth = s.booth) (he : t.evac = s.evac)
    (hq : t.ports = s.ports) : Orderly s t :=
  ⟨hp, fun h n l => by simpa only [State.line, hb, he] using h n l, fun h p => by simpa only [hq] using h p⟩

/-- Outputs may change in what they hold of no energy. -/
theorem Unmetered.of_outputs {s t : State} (h : Orderly s t)
    (ho : ∀ o, (s.outputs.get o).SameEnergy (t.outputs.get o)) (hc : t.blockCount = s.blockCount)
    (hk : t.blockClosed = s.blockClosed) (hi : t.intervalTaken = s.intervalTaken) (hm : t.meters = s.meters) :
    Unmetered s t :=
  ⟨h, ho, hc, hk, hi, fun n k => by rw [hm]; exact id⟩

theorem Unmetered.of_orderly {s t : State} (h : Orderly s t) (ho : t.outputs = s.outputs)
    (hc : t.blockCount = s.blockCount) (hk : t.blockClosed = s.blockClosed) (hi : t.intervalTaken = s.intervalTaken)
    (hm : t.meters = s.meters) : Unmetered s t :=
  .of_outputs h (fun o => by rw [ho]; exact .refl _) hc hk hi hm

/-- Queues change port by port. -/
theorem queueLaw_map {s : State} {f : Port → Port} (hf : ∀ p : Port, p.Bounded → (f p).Bounded) (h : QueueLaw s) :
    QueueLaw { s with ports := s.ports.map f } := fun p => by
  simp only [Tab.get_map]
  exact hf _ (h p)

theorem unmetered_ports {f : Port → Port} (hf : ∀ p : Port, p.Bounded → (f p).Bounded) (s : State) :
    Unmetered s { s with ports := s.ports.map f } :=
  .of_orderly ⟨rfl, id, queueLaw_map hf⟩ rfl rfl rfl rfl rfl

theorem notify_unmetered (m : Notice) (s : State) : Unmetered s (s.notify m) :=
  unmetered_ports (fun _ => Port.offer_bounded m) s

theorem modScreen_unmetered (n : Fin 12) (f : Screen → Screen) (s : State) : Unmetered s (s.modScreen n f) :=
  .of_orderly (.of_fields rfl rfl rfl rfl) rfl rfl rfl rfl rfl

theorem modOutput_unmetered (o : Fin 192) (f : Output → Output) (s : State)
    (h : ∀ x : Output, x.SameEnergy (f x) := by intro x; exact ⟨rfl, rfl, rfl, .inl rfl⟩) : Unmetered s (s.modOutput o f) := by
  refine .of_outputs (.of_fields rfl rfl rfl rfl) (fun p => ?_) rfl rfl rfl rfl
  rw [get_modOutput]
  split
  · exact h _
  · exact .refl _

theorem modMeter_unmetered (n : Fin 12) (f : Meter → Meter) (s : State)
    (h : ∀ m k, Meter.lawful k m → Meter.lawful k (f m)) : Unmetered s (s.modMeter n f) := by
  refine ⟨.of_fields rfl rfl rfl rfl, fun _ => .refl _, rfl, rfl, rfl, fun m k hm => ?_⟩
  rw [modMeter_meters, Tab.get_modify]
  split
  · next e => exact h _ k (e ▸ hm)
  · exact hm

theorem modLine_unmetered (n : Fin 12) (l : Fin 8) (f : BoothLine → BoothLine) (s : State) :
    Unmetered s (s.modLine n l f) :=
  .of_orderly ⟨rfl, modLine_keepsBooth n l f s, id⟩ rfl rfl rfl rfl rfl

/-! ### Cues -/

theorem perform_unmetered (n : Fin 12) (a : Action) (s : State) : Unmetered s (perform n a s) := by
  cases a with
  | lineOn l => exact modLine_unmetered ..
  | lineOff l => exact modLine_unmetered ..
  | linePulse l k => exact modLine_unmetered ..
  | houseLevel v => exact modScreen_unmetered ..
  | noticeOnly => exact .refl s

theorem setCue_unmetered (e : Fin 512) (c : Cue) (s : State) : Unmetered s (s.setCue e c) :=
  .of_orderly (.of_fields rfl rfl rfl rfl) rfl rfl rfl rfl rfl

theorem modCues_unmetered (n : Fin 12) (f : CueScreen → CueScreen) (s : State) : Unmetered s (s.modCues n f) :=
  .of_orderly (.of_fields rfl rfl rfl rfl) rfl rfl rfl rfl rfl

theorem fire_unmetered (e : Fin 512) (s : State) : Unmetered s (fire e s) := by
  unfold fire
  split
  · refine .trans ?_ (notify_unmetered _ _)
    refine .trans ?_ (modCues_unmetered _ _ _)
    exact (perform_unmetered _ _ s).trans (setCue_unmetered e _ _)
  · exact .refl s

theorem skip_unmetered (e : Fin 512) (s : State) : Unmetered s (skip e s) := by
  unfold skip
  split
  · exact (setCue_unmetered e _ s).trans (notify_unmetered _ _)
  · exact .refl s

theorem rearm_unmetered (e : Fin 512) (s : State) : Unmetered s (rearm e s) := by
  unfold rearm
  split
  · exact setCue_unmetered e _ s
  · exact .refl s

theorem advanceEntry_unmetered (jump : Bool) (low : Option Nat) (time : Nat) (e : Fin 512) (s : State) :
    Unmetered s (advanceEntry jump low time e s) := by
  unfold advanceEntry
  split
  · split
    · split
      · exact skip_unmetered e s
      · exact fire_unmetered e s
    · exact .refl s
  · exact .refl s

theorem chaseEntry_unmetered (time : Nat) (e : Fin 512) (s : State) : Unmetered s (chaseEntry time e s) := by
  unfold chaseEntry
  split
  · split
    · exact fire_unmetered e s
    · exact .refl s
  · exact .refl s

theorem processTime_unmetered (n : Fin 12) (time : Nat) (s : State) : Unmetered s (processTime n time s) := by
  have clocked : ∀ u, Unmetered u (setClock n time u) := fun u => modCues_unmetered n _ u
  unfold processTime
  dsimp only
  split
  · exact clocked s
  · split
    · refine .trans ?_ (.overList (chaseEntry_unmetered time) _ _)
      refine .trans ?_ (notify_unmetered _ _)
      exact (clocked s).trans (.overList rearm_unmetered _ _)
    · exact (clocked s).trans (.overList (advanceEntry_unmetered _ _ time) _ _)

theorem fireState_unmetered (n : Fin 12) (ev : CueEvent) (s : State) : Unmetered s (fireState n ev s) :=
  .overList fire_unmetered _ s

theorem fireAlarm_unmetered (n : Fin 12) (k : AlarmKind) (s : State) : Unmetered s (fireAlarm n k s) := by
  unfold fireAlarm
  split
  · exact .overList fire_unmetered _ s
  · exact .refl s

theorem takeWord_unmetered (n : Fin 12) (w : SideWord) (s : State) : Unmetered s (takeWord n w s) := by
  unfold takeWord
  dsimp only
  refine .trans ?_ (modCues_unmetered n _ _)
  split
  · split
    · exact (processTime_unmetered n _ s).trans (.overList fire_unmetered _ _)
    · exact processTime_unmetered n _ s
  · exact .refl s

theorem startCues_unmetered (n : Fin 12) (s : State) : Unmetered s (startCues n s) := by
  have armed : Unmetered s (overList rearm (s.cues.get n).timeList s) := .overList rearm_unmetered _ s
  unfold startCues
  dsimp only
  split
  · refine .trans ?_ (fireState_unmetered n .start _)
    refine .trans ?_ (.overList (advanceEntry_unmetered true none _) _ _)
    exact armed.trans (modCues_unmetered n _ _)
  · exact armed.trans (fireState_unmetered n .start _)

/-! ### Alarms, calibration and power -/

theorem withdrawAlarms_unmetered (n : Fin 12) (s : State) : Unmetered s (withdrawAlarms n s) := by
  have cleared : ∀ f, Unmetered s (s.modAlarms n f) := fun f => .of_orderly (.of_fields rfl rfl rfl rfl) rfl rfl rfl rfl rfl
  unfold withdrawAlarms
  refine (cleared _).trans (.overList (fun k t => ?_) _ _)
  unfold announceWithdrawal
  dsimp only
  split
  · exact notify_unmetered _ t
  · exact .refl t

theorem announce_unmetered (n : Fin 12) (before : Alarms) (g : Gathered) (k : AlarmKind) (s : State) :
    Unmetered s (announce n before g k s) := by
  unfold announce
  dsimp only
  split
  · exact .refl s
  · have indicated : Unmetered s (indicate n k s) := by
      refine unmetered_ports ?_ s
      exact fun _ h => h
    refine .trans ?_ (fireAlarm_unmetered n k _)
    exact indicated.trans (notify_unmetered _ _)
  · exact notify_unmetered _ s

theorem judgeScreen_unmetered (slips : Fin 14 → Nat) (n : Fin 12) (s : State) : Unmetered s (judgeScreen slips n s) := by
  have judged : Unmetered s (s.modAlarms n (Alarms.judge (s.gather slips n))) :=
    .of_orderly (.of_fields rfl rfl rfl rfl) rfl rfl rfl rfl rfl
  exact judged.trans (.overList (announce_unmetered n _ _) _ _)

theorem clearTones_sameEnergy (n : Fin 12) (s : State) (o : Fin 192) :
    (s.outputs.get o).SameEnergy ((clearTones n s).outputs.get o) := by
  simp only [clearTones, Tab.get_map]
  split
  · exact ⟨rfl, rfl, rfl, .inl rfl⟩
  · exact .refl _

theorem clearTones_unmetered (n : Fin 12) (s : State) : Unmetered s (clearTones n s) :=
  .of_outputs (.of_fields rfl rfl rfl rfl) (clearTones_sameEnergy n s) rfl rfl rfl rfl

theorem setTones_unmetered (l : List (Fin 192)) (on : Bool) (s : State) : Unmetered s (setTones l on s) := by
  refine .of_outputs (.of_fields rfl rfl rfl rfl) (fun o => ?_) rfl rfl rfl rfl
  simp only [setTones, Tab.get_update]
  split
  · exact ⟨rfl, rfl, rfl, .inl rfl⟩
  · exact .refl _

theorem abortMeasurement_unmetered (c : AbortCause) (s : State) : Unmetered s (abortMeasurement c s) := by
  unfold abortMeasurement
  dsimp only
  split
  · next n _ _ _ _ =>
    refine .trans ?_ (notify_unmetered _ _)
    exact .of_outputs (.of_fields rfl rfl rfl rfl) (clearTones_sameEnergy n s) rfl rfl rfl rfl
  · exact .refl s

theorem abortOn_unmetered (n : Fin 12) (c : AbortCause) (s : State) : Unmetered s (abortOn n c s) := by
  unfold abortOn
  split
  · exact abortMeasurement_unmetered c s
  · exact .refl s

theorem abortTarget_unmetered (o : Fin 192) (c : AbortCause) (s : State) : Unmetered s (abortTarget o c s) := by
  unfold abortTarget
  split
  · split
    · exact abortMeasurement_unmetered c s
    · exact .refl s
  · exact .refl s

theorem recompute_unmetered (c : PowerCause) (s : State) : Unmetered s (recompute c s) := by
  unfold recompute
  refine .trans (.overScreens (fun n t => ?_) _) (.overScreens (fun n t => ?_) _)
  · have granted : ∀ f, Unmetered t (t.modGrant n f) := fun f => .of_orderly (.of_fields rfl rfl rfl rfl) rfl rfl rfl rfl rfl
    unfold applyAllotment
    dsimp only
    split
    · exact granted _
    · exact (granted _).trans (notify_unmetered _ _)
  · unfold handSuspension
    split
    · exact (abortOn_unmetered n _ t).trans (clearTones_unmetered n _)
    · exact .refl t

theorem notifyChanges_unmetered (before : Tab Screen 12) (cause : ShowCause) (s : State) :
    Unmetered s (notifyChanges before cause s) :=
  .overScreens (fun n t => by
    split
    · exact .refl t
    · exact notify_unmetered _ t) s

/-! ### Shows -/

theorem takeStamp_unmetered (n : Fin 12) (s : State) : Unmetered s (takeStamp n s) := by
  obtain ⟨c, k, h⟩ := takeStamp_frame n s
  rw [h]
  exact .of_orderly (.of_fields rfl rfl rfl rfl) rfl rfl rfl rfl rfl

theorem entering_unmetered (n : Fin 12) (f : Screen → Screen) (s : State) : Unmetered s (entering n f s) :=
  (takeStamp_unmetered n s).trans (modScreen_unmetered n f _)

theorem Meter.clearForShow_lawful {k : Nat} {m : Meter} (h : m.lawful k) : m.clearForShow.lawful k := by
  obtain ⟨sums, -, -, ⟨block, interval, -⟩, ⟨blockSpl, intervalSpl, -, -⟩, offset⟩ := h
  exact ⟨sums, ⟨Nat.zero_le _, Nat.zero_le _⟩, ⟨Nat.zero_le _, fun _ h => absurd h List.not_mem_nil, Nat.zero_le _⟩,
    ⟨block, interval, Nat.zero_le _⟩, ⟨blockSpl, intervalSpl, Nat.zero_le _, Nat.zero_le _⟩, offset⟩

theorem startEffects_unmetered (n : Fin 12) (s : State) : Unmetered s (startEffects n s) := by
  have prepared : ∀ u, Unmetered u (prepareAlarms n u) := fun u => .of_orderly (.of_fields rfl rfl rfl rfl) rfl rfl rfl rfl rfl
  have routed : ∀ f (u : State), Unmetered u (u.modRoute n f) := fun f u =>
    .of_orderly (.of_fields rfl rfl rfl rfl) rfl rfl rfl rfl rfl
  unfold startEffects
  refine .trans ?_ (startCues_unmetered n _)
  refine .trans ?_ (routed _ _)
  refine .trans ?_ (prepared _)
  exact modMeter_unmetered n _ s fun _ _ => Meter.clearForShow_lawful

theorem judgeStart_unmetered {n : Fin 12} {s t : State} (h : judgeStart n s = .inr t) : Unmetered s t := by
  obtain ⟨-, -, eq⟩ := judgeStart_inr h
  rw [eq]
  refine .trans ?_ (startEffects_unmetered n _)
  exact .trans (entering_unmetered n _ s) (recompute_unmetered _ _)

theorem screenTakesWord_unmetered (n : Fin 12) (w : SideWord) (s : State) : Unmetered s (screenTakesWord n w s) := by
  unfold screenTakesWord
  dsimp only
  refine .trans ?_ (modScreen_unmetered n _ _)
  split
  · unfold autoStart
    split
    · exact notify_unmetered _ s
    · exact (judgeStart_unmetered ‹_›).trans (notify_unmetered _ _)
  · exact .refl s

theorem unmetered_laneSteps : LaneSteps Unmetered where
  refl := .refl
  trans := .trans
  lane _ _ _ := .of_orderly (.of_fields rfl rfl rfl rfl) rfl rfl rfl rfl rfl
  notify := notify_unmetered
  abort := abortMeasurement_unmetered _
  roll _ _ := modScreen_unmetered ..
  route _ _ _ := .of_orderly (.of_fields rfl rfl rfl rfl) rfl rfl rfl rfl rfl
  cues := takeWord_unmetered

theorem clearBase_unmetered (n : Fin 12) (s : State) : Unmetered s (clearBase n s) :=
  .of_orderly (.of_fields rfl rfl rfl rfl) rfl rfl rfl rfl rfl

theorem completeFade_unmetered (n : Fin 12) (s : State) : Unmetered s (completeFade n s) := by
  have trimmed : ∀ u, Unmetered u (clearLoudTrim n u) := fun u => .of_orderly (.of_fields rfl rfl rfl rfl) rfl rfl rfl rfl rfl
  unfold completeFade
  dsimp only
  refine .trans ?_ (notify_unmetered _ _)
  refine .trans ?_ (fireState_unmetered n .endDone _)
  refine .trans ?_ (trimmed _)
  refine .trans ?_ (recompute_unmetered _ _)
  exact .trans (modScreen_unmetered n _ s) (clearBase_unmetered n _)

theorem finishFade_unmetered (n : Fin 12) (s : State) : Unmetered s (finishFade n s) := by
  unfold finishFade
  split
  · exact completeFade_unmetered n s
  · exact .refl s

theorem readSupply_unmetered (a b : Bool) (s : State) : Unmetered s (readSupply a b s) := by
  have read : Unmetered s { s with budget := { s.budget with supply1 := a, supply2 := b, supply := supplyOf a b } } :=
    .of_orderly (.of_fields rfl rfl rfl rfl) rfl rfl rfl rfl rfl
  unfold readSupply
  dsimp only
  split
  · exact read
  · exact (read.trans (recompute_unmetered _ _)).trans (notify_unmetered _ _)

/-! ### EVAC and the booth lines -/

/-- Lines formed one by one are lawful. -/
theorem boothLaw_of_formed {s : State} (h : ∀ n l, ∃ x : BoothLine, s.line n l = x.form s.evac) : BoothLaw s := fun n l => by
  obtain ⟨x, e⟩ := h n l
  rw [e]
  exact form_shown s.evac x

/-- EVAC, the screens and the stamps may change before every line is formed again. -/
theorem formLines_unmetered {s u : State} (h : ∃ e c k, u = { s with evac := e, screens := c, stampCounter := k }) :
    Unmetered s (formLines u) := by
  have formed : BoothLaw (formLines u) := boothLaw_of_formed fun n l =>
    ⟨u.line n l, by simp only [State.line, formLines, Tab.get_map]⟩
  obtain ⟨e, c, k, rfl⟩ := h
  exact .of_orderly ⟨rfl, fun _ => formed, id⟩ rfl rfl rfl rfl rfl

theorem clearCalibrationTones_unmetered (s : State) : Unmetered s (clearCalibrationTones s) :=
  .overScreens (fun n t => by
    split
    · exact clearTones_unmetered n t
    · exact .refl t) s

theorem assertEvac_unmetered (s : State) : Unmetered s (assertEvac s) := by
  unfold assertEvac
  dsimp only
  refine .trans ?_ (recompute_unmetered _ _)
  refine .trans ?_ (clearCalibrationTones_unmetered _)
  refine .trans ?_ (abortMeasurement_unmetered _ _)
  refine .trans ?_ (notifyChanges_unmetered _ _ _)
  refine .trans ?_ (notify_unmetered _ _)
  exact formLines_unmetered ⟨_, _, _, rfl⟩

theorem returnScreens_frame (s : State) :
    ∃ c k, overScreens returnScreen s = { s with screens := c, stampCounter := k } := by
  refine overScreens_induct (P := fun t => ∃ c k, t = { s with screens := c, stampCounter := k }) ⟨_, _, rfl⟩ ?_
  rintro n t ⟨c, k, rfl⟩
  unfold returnScreen
  split
  · obtain ⟨c', k', e⟩ := takeStamp_frame n { s with screens := c, stampCounter := k }
    rw [e]
    exact ⟨_, _, rfl⟩
  · exact ⟨_, _, rfl⟩

theorem releaseEvac_unmetered (s : State) : Unmetered s (releaseEvac s) := by
  obtain ⟨c, k, returned⟩ := returnScreens_frame { s with evac := false }
  unfold releaseEvac
  dsimp only
  refine .trans ?_ (recompute_unmetered _ _)
  refine .trans ?_ (notifyChanges_unmetered _ _ _)
  refine .trans ?_ (notify_unmetered _ _)
  exact formLines_unmetered ⟨_, _, _, returned⟩

theorem linesOff_unmetered (n : Fin 12) (s : State) : Unmetered s (linesOff n s) := by
  refine .of_orderly ⟨rfl, fun h m l => ?_, id⟩ rfl rfl rfl rfl rfl
  simp only [State.line, linesOff, Tab.get_modify]
  split
  · rw [Tab.get_map]
    exact form_shown s.evac _
  · exact h m l

theorem tickLines_unmetered (s : State) : Unmetered s (tickLines s) := by
  refine .of_orderly ⟨rfl, fun _ => boothLaw_of_formed fun n l => ⟨(s.line n l).tick, ?_⟩, id⟩ rfl rfl rfl rfl rfl
  simp only [State.line, tickLines, Tab.get_map]

/-! ### Settings, the delay store and health -/

theorem Meter.disable_lawful {k : Nat} {m : Meter} (h : m.lawful k) : m.disable.lawful k := by
  obtain ⟨-, -, -, -, -, offset⟩ := h
  exact ⟨⟨Nat.zero_le _, Nat.zero_le _⟩, ⟨Nat.zero_le _, Nat.zero_le _⟩,
    ⟨Nat.zero_le _, fun _ h => absurd h List.not_mem_nil, Nat.zero_le _⟩, ⟨Nat.zero_le _, Nat.zero_le _, Nat.zero_le _⟩,
    ⟨Nat.zero_le _, Nat.zero_le _, Nat.zero_le _, Nat.zero_le _⟩, offset⟩

theorem clearPaths_unmetered (n : Fin 12) (s : State) : Unmetered s (clearPaths n s) := by
  refine .of_outputs (.of_fields rfl rfl rfl rfl) (fun o => ?_) rfl rfl rfl rfl
  simp only [clearPaths, Tab.get_map]
  split
  · exact ⟨rfl, rfl, rfl, .inr rfl⟩
  · exact .refl _

theorem disabled_unmetered (n : Fin 12) (station : Fin 16) (s : State) : Unmetered s (disabled n station s) := by
  have reset : ∀ u : State, Unmetered u
      { u with
        screens := u.screens.modify n Screen.disable
        meters := u.meters.modify n Meter.disable
        alarms := u.alarms.modify n Alarms.disable
        grants := u.grants.modify n Grant.disable
        cues := u.cues.modify n CueScreen.disable
        routes := u.routes.modify n Route.disable
        ports := u.ports.map (Port.emptyIndications n) } := fun u =>
    .trans (modMeter_unmetered n Meter.disable u fun _ _ => Meter.disable_lawful)
      (.of_orderly ⟨rfl, id, queueLaw_map fun _ h => h⟩ rfl rfl rfl rfl rfl)
  unfold disabled
  refine .trans ?_ (notify_unmetered _ _)
  unfold clearScreen
  dsimp only
  refine .trans ?_ (reset _)
  refine .trans ?_ (linesOff_unmetered n _)
  refine .trans ?_ (.overList rearm_unmetered _ _)
  refine .trans ?_ (clearPaths_unmetered n _)
  exact (withdrawAlarms_unmetered n s).trans (clearBase_unmetered n _)

theorem release_unmetered (n : Fin 12) (station : Fin 16) (s : State) : Unmetered s (release n station s) := by
  unfold release
  dsimp only
  refine .trans ?_ (notify_unmetered _ _)
  have freed : Unmetered s (if (s.screens.get n).state = .calibrating then clearTones n (abortOn n .freed s) else s) := by
    split
    · exact (abortOn_unmetered n _ s).trans (clearTones_unmetered n _)
    · exact .refl s
  have settled : ∀ u, Unmetered u (if (s.screens.get n).state = .calibrating then recompute .demand u else u) := fun u => by
    split
    · exact recompute_unmetered _ u
    · exact .refl u
  refine .trans ?_ (settled _)
  refine .trans ?_ (withdrawAlarms_unmetered n _)
  refine .trans ?_ (clearBase_unmetered n _)
  exact freed.trans (modScreen_unmetered n _ _)

theorem moveShow_unmetered (n : Fin 12) (ev : CueEvent) (station : Fin 16) (f : Screen → Screen) (s : State) :
    Unmetered s (moveShow n ev station f s) := by
  unfold moveShow
  refine .trans ?_ (fireState_unmetered n ev _)
  exact .trans (modScreen_unmetered n f s) (notify_unmetered _ _)

theorem setBudget_unmetered (b : Budget) (s : State) : Unmetered s (setBudget b s) := by
  have stored : Unmetered s { s with budget := b } := .of_orderly (.of_fields rfl rfl rfl rfl) rfl rfl rfl rfl rfl
  unfold setBudget
  dsimp only
  split
  · exact stored
  · exact stored.trans (recompute_unmetered _ _)

theorem reallocate_unmetered (cs : List Change) (s : State) : Unmetered s (reallocate cs s) := by
  have same := reallocate_pagesOnly cs s
  obtain ⟨y, e⟩ := reallocate_frame cs s
  rw [e] at same ⊢
  refine .of_outputs (.of_fields rfl rfl rfl rfl) (fun o => ?_) rfl rfl rfl rfl
  rw [same o]
  exact ⟨rfl, rfl, rfl, .inl rfl⟩

theorem applyConfig_unmetered (n : Fin 12) (c : ScreenConfig) (s : State) : Unmetered s (applyConfig n c s) := by
  have moved : Unmetered s (if c.lipSync = (s.screens.get n).config.lipSync then s
      else reallocate (s.lipChanges n c.lipSync) s) := by
    split
    · exact .refl s
    · exact reallocate_unmetered _ s
  unfold applyConfig
  dsimp only
  have set := moved.trans (modScreen_unmetered n (fun x => { x with config := c }) _)
  split
  · exact set.trans (recompute_unmetered _ _)
  · exact set

theorem healthChanged_unmetered (o : Fin 192) (previous : Health) (cause : HealthCause) (z : Option Nat)
    (station : Option (Fin 16)) (s : State) : Unmetered s (healthChanged o previous cause z station s) := by
  unfold healthChanged
  dsimp only
  split
  · exact .refl s
  · split
    · exact .trans (notify_unmetered _ s) (abortTarget_unmetered _ _ _)
    · split
      · exact .trans (notify_unmetered _ s) (abortTarget_unmetered _ _ _)
      · exact notify_unmetered _ s

theorem returnBlock_unmetered (l : Fin 12) (r : Option Report) (s : State) : Unmetered s (returnBlock l r s) := by
  have locked : ∀ f, Unmetered s (s.modReturnLane l f) := fun f =>
    .of_orderly (.of_fields rfl rfl rfl rfl) rfl rfl rfl rfl rfl
  have taken : ∀ o q u, Unmetered u (takeReport o q u) := fun o q u => by
    unfold takeReport
    split
    · exact .refl u
    · exact .trans (modOutput_unmetered o _ u) (healthChanged_unmetered ..)
  have found : ∀ o u, Unmetered u (findOutput o u) := fun o u => by
    unfold findOutput
    dsimp only
    split
    · exact .trans (modOutput_unmetered o _ u) (healthChanged_unmetered ..)
    · exact .refl u
  have lost : ∀ o u, Unmetered u (loseOutput o u) := fun o u => by
    unfold loseOutput
    dsimp only
    split
    · exact .refl u
    · exact .trans (modOutput_unmetered o _ u) (healthChanged_unmetered ..)
  unfold returnBlock
  dsimp only
  split
  · split
    · exact .trans (.trans (locked _) (.overList found _ _)) (taken _ _ _)
    · exact locked _
  · exact locked _
  · exact .trans (locked _) (taken _ _ _)
  · split
    · exact .trans (locked _) (.overList lost _ _)
    · exact locked _

theorem changeClock_unmetered (new old : Clock) (s : State) : Unmetered s (changeClock new old s) := by
  have clocked : Unmetered s { s with clock := new } := .of_orderly (.of_fields rfl rfl rfl rfl) rfl rfl rfl rfl rfl
  exact clocked.trans (notify_unmetered _ _)

theorem completeSelftest_unmetered (a b : Bool) (s : State) : Unmetered s (completeSelftest a b s) := by
  unfold completeSelftest
  dsimp only
  have tested : ∀ t p, Unmetered s { s with selftest := t, badPages := p } := fun t p =>
    .of_orderly (.of_fields rfl rfl rfl rfl) rfl rfl rfl rfl rfl
  exact (tested _ _).trans (notify_unmetered _ _)

theorem tickSelftest_unmetered (a b : Bool) (s : State) : Unmetered s (tickSelftest a b s) := by
  unfold tickSelftest
  split
  · exact completeSelftest_unmetered a b s
  · split
    · exact .of_orderly (.of_fields rfl rfl rfl rfl) rfl rfl rfl rfl rfl
    · exact .refl s

/-! ### The measurement -/

theorem clampInt_bounds {lo hi : Int} (h : lo ≤ hi) (v : Int) : lo ≤ clampInt lo hi v ∧ clampInt lo hi v ≤ hi := by
  rw [clampInt_eq_max_min h]
  exact ⟨le_max_left .., max_le h (min_le_right ..)⟩

/-- An offset is a setting of a byte. -/
theorem Meter.offset_lawful {k : Nat} {m : Meter} {x : Int} (h : m.lawful k) (lo : -128 ≤ x) (hi : x ≤ 127) :
    Meter.lawful k { m with offset := x } := by
  obtain ⟨sums, segment, ring, levels, spl, -⟩ := h
  exact ⟨sums, segment, ring, levels, spl, lo, hi⟩

theorem endPhase_unmetered (s : State) : Unmetered s (endPhase s) := by
  have moved : ∀ c, Unmetered s { s with context := c } := fun c =>
    .of_orderly (.of_fields rfl rfl rfl rfl) rfl rfl rfl rfl rfl
  unfold endPhase
  dsimp only
  split
  · exact moved _
  · split
    · exact (moved _).trans (setTones_unmetered _ _ _)
    · exact moved _
  · exact moved _
  · exact .refl s
  · exact .refl s

theorem storeSensitivity_unmetered {n : Fin 12} {g : Target} {x : Int} {s : State} (lo : -128 ≤ x) (hi : x ≤ 127) :
    Unmetered s (storeSensitivity n g x s) := by
  cases g with
  | reference => exact modMeter_unmetered n _ s fun _ _ h => Meter.offset_lawful h lo hi
  | output o => exact modOutput_unmetered o _ s

theorem endMeasurement_unmetered (s : State) : Unmetered s (endMeasurement s) := by
  unfold endMeasurement
  dsimp only
  split
  · next n _ _ _ =>
    have idle : Unmetered s { clearTones n s with context := Context.reset } :=
      .of_outputs (.of_fields rfl rfl rfl rfl) (clearTones_sameEnergy n s) rfl rfl rfl rfl
    split
    · exact idle.trans (notify_unmetered _ _)
    · refine (idle.trans (storeSensitivity_unmetered ?_ ?_)).trans (notify_unmetered _ _)
      · exact (clampInt_bounds (by decide) _).1
      · exact (clampInt_bounds (by decide) _).2
  · exact .of_orderly (.of_fields rfl rfl rfl rfl) rfl rfl rfl rfl rfl

theorem stepMeasurement_unmetered (s : State) : Unmetered s (stepMeasurement s) := by
  unfold stepMeasurement
  dsimp only
  split
  · exact .refl s
  · split
    · exact .of_orderly (.of_fields rfl rfl rfl rfl) rfl rfl rfl rfl rfl
    · split
      · exact endMeasurement_unmetered s
      · exact endPhase_unmetered s

end Sys2Proof.Machine
end

section
/-! The energies and the sums of the meters (05 R91 to R98): the samples of a block are at most 48, the running energies
become those of a closed block, and at most 32 of them are summed for a screen. -/

namespace Sys2Proof.Machine

/-! ### The samples of a block -/

theorem sourceFeed_length (src : Source) (a : Audio) : (sourceFeed src a).length ≤ a.length := by
  cases src with
  | none => exact (List.length_map _).le
  | one i g => exact le_of_eq ((List.length_map _).trans (List.length_map _))
  | two i gi j gj =>
    unfold sourceFeed
    dsimp only
    rw [List.length_zipWith]
    exact (min_le_left _ _).trans (List.length_map _).le

/-- A folded feed is no longer than the feed it is folded into. -/
theorem foldExact_length (unfolded : Tab (List Int) 12) (folds : List (Role × Int)) (target : Role) :
    (foldExact unfolded folds target).length ≤ (unfolded.get target.ix).length := by
  unfold foldExact
  dsimp only
  split
  · exact le_rfl
  · rw [List.length_zipWith]
    exact min_le_left _ _

theorem makeFeeds_length (layout : Layout) (roles : Tab RoleFigures 12) (a : Audio) (i : Fin 12) :
    ((makeFeeds layout roles a).feeds.get i).length ≤ a.length := by
  unfold makeFeeds
  dsimp only
  rw [Tab.get_map, Tab.get_ofFn, List.length_map]
  split
  · refine (foldExact_length _ _ _).trans ?_
    rw [Tab.get_map, Tab.get_ofFn, List.length_map]
    split
    · exact Nat.zero_le _
    · exact sourceFeed_length _ a
  · exact Nat.zero_le _

/-- Every block in every elastic store has 48 frames. -/
def StoresLaw (s : State) : Prop := ∀ l, ∀ b ∈ (s.lanes.get l).store, b.length = 48

theorem Lane.read_length {x : Lane} (h : ∀ b ∈ x.store, b.length = 48) : x.read.1.length = 48 := by
  unfold Lane.read
  split
  · split
    · next b rest e => exact h b (e ▸ List.mem_cons_self)
    · exact List.length_replicate
  · exact List.length_replicate

theorem Lane.handed_length {x : Lane} (h : ∀ b ∈ x.store, b.length = 48) : x.handed.length = 48 :=
  (List.length_map _).trans (Lane.read_length h)

/-- No source gives an output more than 48 samples for a block. -/
theorem select_length {s : State} {handed : Tab Audio 14} {tone : List Int} (flag : Bool) (x : Output)
    (hh : ∀ l, (handed.get l).length = 48) (ht : tone.length = 48) :
    (s.select (.ofFn fun n => s.plan handed n) tone flag x).samples.length ≤ 48 := by
  have silent : ∀ why, (Selected.silence why).samples.length ≤ 48 := fun why => List.length_replicate.le
  have paging : ∀ n, (s.plan handed n).paging.length ≤ 48 := fun n => by
    unfold State.plan
    dsimp only
    rw [List.length_map]
    split
    · exact le_of_eq ((List.length_map _).trans ((List.length_map _).trans (hh _)))
    · exact Nat.zero_le _
  have program : ∀ n i, ((s.plan handed n).program.feeds.get i).length ≤ 48 := fun n i => by
    unfold State.plan
    dsimp only
    split
    · exact (makeFeeds_length _ _ _ i).trans (hh _).le
    · rw [Feeds.none, Tab.get_fill]
      exact Nat.zero_le _
  unfold State.select
  simp only [Tab.get_ofFn]
  split
  · exact silent _
  · next n role _ =>
    have played : (if (decide ((s.grants.get n).status = .suspended)) = true then Selected.silence .suspended
        else if (!(s.lanes.get (programLane n)).delivering) = true then .silence .lane
        else { kind := .program, reason := none, samples := (s.plan handed n).program.feeds.get role.ix }).samples.length
          ≤ 48 := by
      split
      · exact silent _
      · split
        · exact silent _
        · exact program n role.ix
    split
    · exact silent _
    · split
      · split
        · exact paging n
        · exact silent _
      · split
        · exact played
        · exact played
        · exact silent _
        · split
          · exact silent _
          · split
            · exact ht.le
            · exact silent _
        · exact silent _
        · exact silent _
        · exact silent _
        · exact silent _

/-- The energy of a block of at most 48 samples joins the running energy. -/
theorem runOutput_running {sel : Selected} (hs : sel.samples.length ≤ 48) (late : List Int) (comp level applied : Nat)
    (pilot : Bool) {x : Output} (hx : x.running = 0) :
    (runOutput sel late comp level applied pilot x).output.running ≤ maxEnergy := by
  have energy : ∀ (y : Output) (step : Option Int),
      blockEnergy ((y.runPath step (sel.samples ++ late)).taps.take sel.samples.length) ≤ maxEnergy := fun y step => by
    refine (blockEnergy_le fun z hz => ?_).trans (Nat.mul_le_mul_right _ ?_)
    · exact (y.runPath_shape step (sel.samples ++ late)).2.1 z (List.mem_of_mem_take hz)
    · exact (List.length_take_le _ _).trans hs
  unfold runOutput
  dsimp only
  split
  · change x.running + _ ≤ _
    rw [hx, Nat.zero_add]
    exact energy _ _
  · rw [hx, Nat.zero_add]
    exact energy _ _

/-! ### The bounds of the energies -/

/-- The outputs whose block counts for a screen. -/
def State.blockOutputs (s : State) (n : Fin 12) : List (Fin 192) :=
  (List.finRange 192).filter fun o => decide ((s.outputs.get o).blockScreen = some n)

/-- A screen's block has at most 32 outputs, and no energy is above that of 48 samples. -/
structure EnergyBounds (s : State) : Prop where
  screens : ∀ n, (s.blockOutputs n).length ≤ 32
  energy : ∀ o, (s.outputs.get o).energy ≤ maxEnergy
  running : ∀ o, (s.outputs.get o).running ≤ maxEnergy

/-- Every meter is lawful for a number of blocks closed in its interval. -/
def State.meteredFor (s : State) (k : Nat) : Prop := ∀ n, (s.meters.get n).lawful k

/-- The blocks that the interval in progress has closed. -/
def State.closedBlocks (s : State) : Nat :=
  s.blockCount + if s.blockClosed = true ∧ s.intervalTaken = false then 1 else 0

theorem closedBlocks_of_taken {s : State} (h : s.intervalTaken = true) : s.closedBlocks = s.blockCount := by
  rw [State.closedBlocks, if_neg (by simp [h])]
  exact Nat.add_zero _

theorem closedBlocks_of_opened {s : State} (h : s.blockClosed = false) : s.closedBlocks = s.blockCount := by
  rw [State.closedBlocks, if_neg (by simp [h])]
  exact Nat.add_zero _

/-- The part of the law of the meters that is about energies, sums and counts of blocks. -/
structure EnergyLaw (s : State) : Prop where
  bounds : EnergyBounds s
  silent : s.blockClosed = true → ∀ o, (s.outputs.get o).running = 0
  closes : s.intervalTaken = true → s.blockClosed = true
  count : s.blockCount < 1024
  metered : s.meteredFor s.closedBlocks

/-- Fields that the energies do not read may change. -/
theorem EnergyLaw.of_fields {s t : State} (h : EnergyLaw s) (ho : t.outputs = s.outputs)
    (hc : t.blockCount = s.blockCount) (hk : t.blockClosed = s.blockClosed) (hi : t.intervalTaken = s.intervalTaken)
    (hm : t.meters = s.meters) : EnergyLaw t := by
  obtain ⟨⟨screens, energy, running⟩, silent, closes, count, metered⟩ := h
  refine ⟨⟨fun n => ?_, ?_, ?_⟩, ?_, ?_, ?_, fun n => ?_⟩
  · simpa only [State.blockOutputs, ho] using screens n
  · simpa only [ho] using energy
  · simpa only [ho] using running
  · simpa only [hk, ho] using silent
  · simpa only [hi, hk] using closes
  · simpa only [hc] using count
  · simpa only [State.closedBlocks, hc, hk, hi, hm] using metered n

theorem Meter.lawful_mono {j k : Nat} (hjk : j ≤ k) {m : Meter} (h : m.lawful j) : m.lawful k := by
  obtain ⟨⟨block, interval⟩, rest⟩ := h
  exact ⟨⟨block, interval.trans (Nat.mul_le_mul_right _ hjk)⟩, rest⟩

theorem Unmetered.blockOutputs {s t : State} (h : Unmetered s t) (n : Fin 12) : t.blockOutputs n = s.blockOutputs n := by
  unfold State.blockOutputs
  exact List.filter_congr fun o _ => by rw [(h.outputs o).blockScreen]

theorem Unmetered.bounds {s t : State} (h : Unmetered s t) (hs : EnergyBounds s) : EnergyBounds t := by
  refine ⟨fun n => h.blockOutputs n ▸ hs.screens n, fun o => (h.outputs o).energy ▸ hs.energy o, fun o => ?_⟩
  rcases (h.outputs o).running with same | zero
  · exact same ▸ hs.running o
  · exact zero ▸ Nat.zero_le _

theorem Unmetered.energyLaw {s t : State} (h : Unmetered s t) (hs : EnergyLaw s) : EnergyLaw t := by
  refine ⟨h.bounds hs.bounds, fun closed o => ?_, fun taken => ?_, h.count ▸ hs.count, fun n => ?_⟩
  · rcases (h.outputs o).running with same | zero
    · exact same.trans (hs.silent (h.closed ▸ closed) o)
    · exact zero
  · exact h.closed.trans (hs.closes (h.taken ▸ taken))
  · rw [State.closedBlocks, h.count, h.closed, h.taken]
    exact h.meters n _ (hs.metered n)

/-! ### The close of a block -/

/-- The energies of a screen's block add up to at most the largest block sum. -/
theorem blockSum_le {s : State} (h : EnergyBounds s) (n : Fin 12) : s.blockSum n ≤ maxBlockSum := by
  have bounded : ∀ x ∈ (s.outputs.items.filter fun o => decide (o.blockScreen = some n)).map Output.energy,
      x ≤ maxEnergy := by
    intro x hx
    obtain ⟨y, hy, rfl⟩ := List.mem_map.1 hx
    rw [Tab.items_eq] at hy
    obtain ⟨o, -, rfl⟩ := List.mem_map.1 (List.mem_filter.1 hy).1
    exact h.energy o
  have few : ((s.outputs.items.filter fun o => decide (o.blockScreen = some n)).map Output.energy).length ≤ 32 := by
    rw [List.length_map, Tab.items_eq, List.filter_map, List.length_map]
    exact h.screens n
  calc s.blockSum n ≤ _ • maxEnergy := List.sum_le_card_nsmul _ _ bounded
    _ ≤ maxBlockSum := Nat.mul_le_mul_right _ few

/-- The block closed: the energies are those that ran, and every meter takes its sum. -/
theorem ensureClosed_energyLaw {s : State} (h : EnergyLaw s) : EnergyLaw (ensureClosed s) ∧ (ensureClosed s).blockClosed = true := by
  unfold ensureClosed
  split
  · next closed => exact ⟨h, closed⟩
  · next opened =>
    have untaken : s.intervalTaken = false := by
      cases taken : s.intervalTaken with
      | false => rfl
      | true => exact absurd (h.closes taken) opened
    have before : s.meteredFor s.blockCount := closedBlocks_of_opened (Bool.eq_false_iff.2 opened) ▸ h.metered
    have moved : EnergyBounds { s with
        outputs := s.outputs.map Output.closeEnergy, micEnergy := s.micRunning, micRunning := 0 } := by
      refine ⟨fun n => ?_, fun o => ?_, fun o => ?_⟩
      · refine le_of_eq_of_le ?_ (h.bounds.screens n)
        simp only [State.blockOutputs, Tab.get_map]
        rfl
      · simp only [Tab.get_map]
        exact h.bounds.running o
      · simp only [Tab.get_map]
        exact Nat.zero_le _
    have sums := fun n => blockSum_le moved n
    obtain ⟨x, frame⟩ : ∃ x, closeBlock s = { s with
        outputs := s.outputs.map Output.closeEnergy, micEnergy := s.micRunning, micRunning := 0
        meters := s.meters.update fun n m => m.closeBlock (State.blockSum { s with
          outputs := s.outputs.map Output.closeEnergy, micEnergy := s.micRunning, micRunning := 0 } n)
        context := x } := by
      unfold closeBlock
      dsimp only
      obtain ⟨x, e⟩ := addMeasured_frame { s with
        outputs := s.outputs.map Output.closeEnergy, micEnergy := s.micRunning, micRunning := 0
        meters := s.meters.update fun n m => m.closeBlock (State.blockSum { s with
          outputs := s.outputs.map Output.closeEnergy, micEnergy := s.micRunning, micRunning := 0 } n) }
      exact ⟨x, e⟩
    rw [frame]
    refine ⟨⟨⟨moved.screens, moved.energy, moved.running⟩, fun _ o => ?_, fun _ => rfl, h.count, fun n => ?_⟩, rfl⟩
    · simp only [Tab.get_map]
      rfl
    · simp only [State.closedBlocks, untaken, Tab.get_update]
      exact Meter.closeBlock_lawful (before n) (sums n)

end Sys2Proof.Machine
end

section
/-! The laws of the booth lines, the queues and the meters settled: the interval, the sound of a house block, and every
move (02 R42, 05 R91 to R98). -/

namespace Sys2Proof.Machine

/-! ### The interval -/

theorem ensureClosed_orderly (s : State) : Orderly s (ensureClosed s) := by
  obtain ⟨o, e, r, m, x, b, h⟩ := ensureClosed_frame s
  rw [h]
  exact .of_fields rfl rfl rfl rfl

theorem ensureClosed_counts (s : State) :
    (ensureClosed s).blockCount = s.blockCount ∧ (ensureClosed s).intervalTaken = s.intervalTaken := by
  obtain ⟨o, e, r, m, x, b, h⟩ := ensureClosed_frame s
  rw [h]
  exact ⟨rfl, rfl⟩

theorem closedInterval_orderly (s : State) : Orderly s (closedInterval s) := by
  have closed := ensureClosed_orderly s
  unfold closedInterval
  generalize ensureClosed s = u at closed
  exact closed.trans (.of_fields rfl rfl rfl rfl)

/-- Past the close of the interval nothing of an interval event moves an energy. -/
theorem closedInterval_unmetered (s : State) : Unmetered (closedInterval s) (takeInterval s) := by
  have cleared : ∀ u, Unmetered u (clearSlips u) := fun u => .of_orderly (.of_fields rfl rfl rfl rfl) rfl rfl rfl rfl rfl
  have judged : Unmetered (closedInterval s) (overScreens stepBase (judgeInterval s)) := by
    obtain ⟨a, h⟩ := stepBases_frame (judgeInterval s)
    have screens : Unmetered (closedInterval s) (judgeInterval s) :=
      (cleared _).trans (.overScreens (judgeScreen_unmetered _) _)
    rw [h]
    generalize judgeInterval s = u at screens
    exact screens.trans (.of_orderly (.of_fields rfl rfl rfl rfl) rfl rfl rfl rfl rfl)
  rw [takeInterval_eq]
  split
  · exact judged
  · exact judged.trans (stepMeasurement_unmetered _)

theorem takeInterval_orderly (s : State) : Orderly s (takeInterval s) :=
  (closedInterval_orderly s).trans (closedInterval_unmetered s).toOrderly

theorem due_iff (s : State) : s.intervalDue = true ↔ s.blockCount + 1 = 1024 ∧ s.intervalTaken = false := by
  simp [State.intervalDue, Config.intervalBlocks]

/-- The interval closes on 1024 blocks, and the next begins with none. -/
theorem takeInterval_energyLaw {s : State} (h : EnergyLaw s) (due : s.intervalDue = true) :
    EnergyLaw (takeInterval s) ∧ (takeInterval s).blockClosed = true ∧ (takeInterval s).intervalTaken = true := by
  obtain ⟨last, untaken⟩ := (due_iff s).1 due
  obtain ⟨block, closed⟩ := ensureClosed_energyLaw h
  obtain ⟨count, taken⟩ := ensureClosed_counts s
  have full : (ensureClosed s).closedBlocks = Config.intervalBlocks := by
    rw [State.closedBlocks, count, taken, closed, untaken]
    exact last
  have began : EnergyLaw (closedInterval s) := by
    refine ⟨⟨block.bounds.screens, block.bounds.energy, block.bounds.running⟩, block.silent, fun _ => closed,
      Nat.zero_lt_succ _, fun n => ?_⟩
    have lawful : (ensureClosed s).meteredFor Config.intervalBlocks := full ▸ block.metered
    have meter : (closedInterval s).meters.get n =
        ((ensureClosed s).meters.get n).closeInterval ((ensureClosed s).screens.get n).state := Tab.get_update ..
    rw [meter]
    exact Meter.lawful_mono (Nat.zero_le _) (Meter.closeInterval_lawful _ (lawful n))
  have same := closedInterval_unmetered s
  exact ⟨same.energyLaw began, same.closed.trans closed, same.taken⟩

/-! ### The house block -/

/-- A house block before its sound: the block is closed and counted. -/
structure Counted (s : State) : Prop where
  bounds : EnergyBounds s
  silent : ∀ o, (s.outputs.get o).running = 0
  count : s.blockCount < 1024
  metered : s.meteredFor s.blockCount

theorem countBlock_counted {s : State} (h : EnergyLaw s) (closed : s.blockClosed = true) : Counted (countBlock s) := by
  unfold countBlock
  split
  · next taken =>
    exact ⟨h.bounds, h.silent closed, h.count, closedBlocks_of_taken taken ▸ h.metered⟩
  · next open_ =>
    have untaken : s.intervalTaken = false := Bool.eq_false_iff.2 open_
    split
    · next due =>
      obtain ⟨law, shut, taken⟩ := takeInterval_energyLaw h due
      exact ⟨law.bounds, law.silent shut, law.count, closedBlocks_of_taken taken ▸ law.metered⟩
    · next early =>
      have next : s.closedBlocks = s.blockCount + 1 := by
        rw [State.closedBlocks, closed, untaken]
        rfl
      refine ⟨⟨h.bounds.screens, h.bounds.energy, h.bounds.running⟩, h.silent closed, ?_, next ▸ h.metered⟩
      have more : s.blockCount + 1 ≠ 1024 := fun last => early ((due_iff s).2 ⟨last, untaken⟩)
      have below := h.count
      change s.blockCount + 1 < 1024
      omega

theorem countBlock_orderly (s : State) : Orderly s (countBlock s) := by
  unfold countBlock
  split
  · exact .refl s
  · split
    · exact takeInterval_orderly s
    · exact .of_fields rfl rfl rfl rfl

theorem beforeSelftest_unmetered (inp : BlockInputs) (s : State) : Unmetered s (beforeSelftest inp s) := by
  have passed : Unmetered s (passReset inp.sinceReset s) := by
    obtain ⟨z, h⟩ := passReset_frame inp.sinceReset s
    rw [h]
    exact .of_orderly (.of_fields rfl rfl rfl rfl) rfl rfl rfl rfl rfl
  have faded : ∀ u, Unmetered u (advanceFades u) := fun u => .of_orderly (.of_fields rfl rfl rfl rfl) rfl rfl rfl rfl rfl
  exact (passed.trans (faded _)).trans (tickLines_unmetered _)

theorem beforeClose_unmetered (inp : BlockInputs) (s : State) :
    Unmetered s (tickSelftest inp.fault0 inp.fault1 (beforeSelftest inp s)) :=
  (beforeSelftest_unmetered inp s).trans (tickSelftest_unmetered _ _ _)

theorem beforeSound_counted {s : State} (h : EnergyLaw s) (inp : BlockInputs) : Counted (beforeSound inp s) := by
  unfold beforeSound
  rw [atHouseBlock_eq]
  obtain ⟨law, closed⟩ := ensureClosed_energyLaw ((beforeClose_unmetered inp s).energyLaw h)
  exact countBlock_counted law closed

theorem beforeSound_orderly (inp : BlockInputs) (s : State) : Orderly s (beforeSound inp s) := by
  unfold beforeSound
  rw [atHouseBlock_eq]
  exact ((beforeClose_unmetered inp s).toOrderly.trans (ensureClosed_orderly _)).trans (countBlock_orderly _)

/-! ### The sound -/

/-- The sound runs one output on at most 48 samples. -/
theorem runSound_output {s : State} (stores : StoresLaw s) (periods : Nat) (flags : Tab Bool 192) (old : State) (o : Fin 192) :
    ∃ sel late comp level applied pilot, sel.samples.length ≤ 48 ∧
      (runSound periods flags old s).outputs.get o =
        (runOutput sel late comp level applied pilot (s.outputs.get o)).output := by
  have handed : ∀ l, ((s.lanes.map Lane.handed).get l).length = 48 := fun l => by
    rw [Tab.get_map]
    exact Lane.handed_length (stores l)
  have tone : ∀ g r, (toneOf g (noiseSamples Config.blockSamples r).1).length = 48 := fun g r =>
    (List.length_map _).trans (noiseSamples_length _ r)
  unfold runSound
  obtain ⟨a, h⟩ := raiseBases_frame s
  dsimp only
  rw [h]
  rw [Tab.get_map, Tab.get_ofFn]
  unfold State.runOne
  dsimp only
  split
  · exact ⟨_, _, _, _, _, _, select_length _ _ handed (tone _ _), rfl⟩
  · exact ⟨_, _, _, _, _, _, select_length _ _ handed (tone _ _), rfl⟩

theorem runSound_meter (periods : Nat) (flags : Tab Bool 192) (old s : State) (n : Fin 12) :
    ∃ k, (runSound periods flags old s).meters.get n = (s.meters.get n).addClips k := by
  unfold runSound
  obtain ⟨a, h⟩ := raiseBases_frame s
  dsimp only
  rw [h]
  exact ⟨_, Tab.get_update ..⟩

/-- No screen has more than 32 outputs (03 R48). -/
def PlacesLaw (s : State) : Prop := ∀ n, (s.outputsOf n).length ≤ 32

/-- The sound of a counted block runs the energies up within their bounds. -/
theorem runSound_counted {s : State} (h : Counted s) (places : PlacesLaw s) (stores : StoresLaw s) (periods : Nat)
    (flags : Tab Bool 192) (old : State) :
    EnergyBounds (runSound periods flags old s) ∧ (runSound periods flags old s).blockCount < 1024 ∧
      (runSound periods flags old s).meteredFor (runSound periods flags old s).blockCount := by
  have ran : ∀ o, ((runSound periods flags old s).outputs.get o).blockScreen = (s.outputs.get o).screen ∧
      ((runSound periods flags old s).outputs.get o).energy = (s.outputs.get o).energy ∧
      ((runSound periods flags old s).outputs.get o).running ≤ maxEnergy := fun o => by
    obtain ⟨sel, late, comp, level, applied, pilot, few, e⟩ := runSound_output stores periods flags old o
    obtain ⟨p, l, k, d, x, f, frame⟩ := runOutput_frame sel late comp level applied pilot (s.outputs.get o)
    have bound := runOutput_running few late comp level applied pilot (h.silent o)
    rw [e]
    exact ⟨by rw [frame], by rw [frame], bound⟩
  have count : (runSound periods flags old s).blockCount = s.blockCount := by
    obtain ⟨a, l, z, o, k, m, r, w, e⟩ := runSound_frame periods flags old s
    rw [e]
  have meters := runSound_meter periods flags old s
  generalize runSound periods flags old s = u at ran count meters
  refine ⟨⟨fun n => ?_, fun o => ?_, fun o => (ran o).2.2⟩, count ▸ h.count, fun n => ?_⟩
  · have mapped : u.blockOutputs n = s.outputsOf n := List.filter_congr fun o _ => by rw [(ran o).1]
    exact mapped ▸ places n
  · rw [(ran o).2.1]
    exact h.bounds.energy o
  · obtain ⟨k, e⟩ := meters n
    rw [e, count]
    exact h.metered n

theorem runSound_orderly (periods : Nat) (flags : Tab Bool 192) (old s : State) :
    Orderly s (runSound periods flags old s) := by
  obtain ⟨a, l, z, o, k, m, r, w, e⟩ := runSound_frame periods flags old s
  rw [e]
  exact .of_fields rfl rfl rfl rfl

theorem afterSound_unmetered (inp : BlockInputs) (s : State) :
    Unmetered (afterSound inp s) (overScreens finishFade (readSupply inp.supply1 inp.supply2 (afterSound inp s))) :=
  (readSupply_unmetered _ _ _).trans (.overScreens finishFade_unmetered _)

theorem houseBlock_orderly (inp : BlockInputs) (s : State) : Orderly s (houseBlock inp s) := by
  have sounded : Orderly s (overScreens finishFade (readSupply inp.supply1 inp.supply2 (afterSound inp s))) :=
    ((beforeSound_orderly inp s).trans (runSound_orderly ..)).trans (afterSound_unmetered inp s).toOrderly
  unfold houseBlock
  generalize overScreens finishFade (readSupply inp.supply1 inp.supply2 (afterSound inp s)) = u at sounded
  exact sounded.trans (.of_fields rfl rfl rfl rfl)

theorem placesLaw_of_places {s t : State} (h : ∀ o, (t.outputs.get o).place = (s.outputs.get o).place)
    (hs : PlacesLaw s) : PlacesLaw t := fun n => by
  have screen : ∀ o, (t.outputs.get o).screen = (s.outputs.get o).screen := fun o => congrArg (Option.map Prod.fst) (h o)
  have same : t.outputsOf n = s.outputsOf n := List.filter_congr fun o _ => by rw [screen o]
  exact same ▸ hs n

theorem PlantKept.placesLaw {s t : State} (h : PlantKept s t) : PlacesLaw s → PlacesLaw t :=
  placesLaw_of_places fun o => (h.outputs o).place

theorem Unmetered.placesLaw {s t : State} (h : Unmetered s t) : PlacesLaw s → PlacesLaw t :=
  placesLaw_of_places fun o => (h.outputs o).place

theorem beforeSound_stores {s : State} (h : StoresLaw s) (inp : BlockInputs) : StoresLaw (beforeSound inp s) := fun l => by
  rw [(beforeSound_keeps inp s).1 l]
  split
  · exact h l
  · exact h l

theorem houseBlock_energyLaw {s : State} (h : EnergyLaw s) (places : PlacesLaw s) (stores : StoresLaw s) (inp : BlockInputs) :
    EnergyLaw (houseBlock inp s) := by
  have placed : PlacesLaw (beforeSound inp s) :=
    ((atHouseBlock_plantKept inp s).trans (countBlock_storeKept _).toPlantKept).placesLaw places
  obtain ⟨bounds, count, metered⟩ := runSound_counted (beforeSound_counted h inp) placed (beforeSound_stores stores inp)
    inp.periods (flagsRead inp s) (atHouseBlock inp s)
  have same := afterSound_unmetered inp s
  have ended := same.bounds bounds
  have counted := same.count
  have meters := fun n => same.meters n _ (metered n)
  unfold houseBlock
  generalize overScreens finishFade (readSupply inp.supply1 inp.supply2 (afterSound inp s)) = u at ended counted meters
  refine ⟨⟨ended.screens, ended.energy, ended.running⟩, fun shut => Bool.noConfusion shut, fun shut => Bool.noConfusion shut,
    ?_, fun n => ?_⟩
  · change u.blockCount < 1024
    rw [counted]
    exact count
  · rw [closedBlocks_of_opened rfl]
    change (u.meters.get n).lawful u.blockCount
    rw [counted]
    exact meters n

end Sys2Proof.Machine
end

section
/-! The laws of the booth lines, the queues and the meters settled, move by move. -/

namespace Sys2Proof.Machine

/-! ### The stores of the lanes -/

theorem storesLaw_of_lanes {s t : State} (h : Holds StoresLaw s) (hl : t.lanes = s.lanes) : Holds StoresLaw t :=
  ⟨fun l => by rw [hl]; exact h.holds l⟩

/-- Every block of a store has 48 frames. -/
def Lane.Whole (x : Lane) : Prop := ∀ b ∈ x.store, b.length = 48

theorem storesLaw_modLane {s : State} {l : Fin 14} {f : Lane → Lane} (h : Holds StoresLaw s)
    (hf : ∀ x : Lane, x.Whole → (f x).Whole) : Holds StoresLaw (s.modLane l f) := ⟨fun k => by
  rw [modLane_lanes, Tab.get_modify]
  split
  · next e => exact hf _ (e ▸ h.holds l)
  · exact h.holds k⟩

theorem silentAudio_length : silentAudio.length = 48 := List.length_replicate

theorem Lane.write_whole {a : Audio} (ha : a.length = 48) {x : Lane} (h : x.Whole) : (x.write a).Whole := by
  intro b hb
  unfold Lane.write at hb
  split at hb
  · rcases List.mem_append.1 hb with old | new
    · exact h b (List.mem_of_mem_drop old)
    · exact List.mem_singleton.1 new ▸ ha
  · rcases List.mem_append.1 hb with old | new
    · exact h b old
    · exact List.mem_singleton.1 new ▸ ha

theorem Lane.prime_whole {a : Audio} (ha : a.length = 48) (x : Lane) : (x.prime a).Whole := by
  intro b hb
  rcases List.mem_cons.1 hb with rfl | hb
  · exact silentAudio_length
  · exact List.mem_singleton.1 hb ▸ ha

theorem Lane.unlock_whole (sync : Sync) (x : Lane) : (x.unlock sync).Whole := fun _ h => absurd h List.not_mem_nil

theorem Lane.take_whole (l : Fin 14) (side : List Byte) {x : Lane} (h : x.Whole) : (x.take l side).Whole := by
  unfold Lane.take
  split
  · exact h
  · exact h

theorem Lane.read_whole {x : Lane} (h : x.Whole) : x.read.2.Whole := by
  unfold Lane.read
  split
  · split
    · next b rest e => exact fun c hc => h c (e ▸ List.mem_cons_of_mem _ hc)
    · exact h
  · exact h

theorem unlockLane_stores {s : State} (h : Holds StoresLaw s) (l : Fin 14) (sync : Sync) (cause : LaneCause) :
    Holds StoresLaw (unlockLane l sync cause s) :=
  storesLaw_of_lanes (storesLaw_modLane h fun x _ => Lane.unlock_whole sync x) (unlockLane_showOnly ..).lanes

theorem loseActivity_stores {s : State} (h : Holds StoresLaw s) (l : Fin 14) : Holds StoresLaw (loseActivity l s) := by
  unfold loseActivity
  split
  · exact h
  · exact unlockLane_stores h l _ _

theorem seeActivity_stores {s : State} (h : Holds StoresLaw s) (l : Fin 14) : Holds StoresLaw (seeActivity l s) := by
  by_cases hs : (s.lanes.get l).sync = .nosignal
  · refine storesLaw_of_lanes (storesLaw_modLane h ?_) (seeActivity_showOnly hs).lanes
    exact fun _ => id
  · unfold seeActivity
    rwa [if_neg hs]

theorem findBlock_stores {s : State} (h : Holds StoresLaw s) (l : Fin 14) (b : LaneBlock) (p k : Nat) :
    Holds StoresLaw (findBlock l b p k s) := by
  unfold findBlock
  split
  · refine storesLaw_of_lanes (storesLaw_modLane h ?_) (notifyLane_showOnly ..).lanes
    exact fun _ => id
  · exact h

/-- The acceptance of a word leaves every store. -/
theorem acceptWord_stores {s : State} (h : Holds StoresLaw s) (l : Fin 14) (side : List Byte) (last : Bool) :
    Holds StoresLaw (acceptWord l side last s) :=
  storesLaw_of_lanes (storesLaw_modLane h fun _ => Lane.take_whole l side) (acceptWord_showOnly l side last s).lanes

theorem notifyLane_stores {s : State} (h : Holds StoresLaw s) (l : Fin 14) (previous : Sync) (cause : LaneCause) :
    Holds StoresLaw (s.notifyLane l previous cause) :=
  storesLaw_of_lanes h (notifyLane_showOnly ..).lanes

theorem probationBlock_stores {s : State} (h : Holds StoresLaw s) (l : Fin 14) {b : LaneBlock}
    (hb : b.frames.length = 48) (k : Nat) (last : Bool) : Holds StoresLaw (probationBlock l b k last s) := by
  unfold probationBlock
  split
  · split
    · refine acceptWord_stores (notifyLane_stores (storesLaw_modLane h ?_) ..) l _ _
      exact fun x _ => Lane.prime_whole hb x
    · refine storesLaw_modLane h ?_
      exact fun _ => id
  · exact unlockLane_stores h l _ _

theorem lockedBlock_stores {s : State} (h : Holds StoresLaw s) (l : Fin 14) {b : LaneBlock}
    (hb : b.frames.length = 48) (k : Nat) (last : Bool) : Holds StoresLaw (lockedBlock l b k last s) := by
  unfold lockedBlock
  split
  · refine acceptWord_stores (storesLaw_modLane h ?_) l _ _
    exact fun _ => Lane.write_whole hb
  · refine notifyLane_stores (storesLaw_modLane h ?_) ..
    exact fun _ => Lane.write_whole silentAudio_length

theorem flywheelBlock_stores {s : State} (h : Holds StoresLaw s) (l : Fin 14) {b : LaneBlock}
    (hb : b.frames.length = 48) (k : Nat) (last : Bool) : Holds StoresLaw (flywheelBlock l b k last s) := by
  unfold flywheelBlock
  dsimp only
  split
  · refine acceptWord_stores (notifyLane_stores (storesLaw_modLane h ?_) ..) l _ _
    exact fun _ => Lane.write_whole hb
  · split
    · refine storesLaw_modLane h ?_
      exact fun _ => Lane.write_whole silentAudio_length
    · refine unlockLane_stores (storesLaw_modLane h ?_) l _ _
      exact fun _ => id

theorem laneBlock_stores {s : State} (h : Holds StoresLaw s) (l : Fin 14) {b : LaneBlock} (hb : b.frames.length = 48)
    (k : Nat) (last : Bool) : Holds StoresLaw (laneBlock l b k last s) := by
  unfold laneBlock
  split
  · exact h
  · exact h
  · exact probationBlock_stores h l hb k last
  · exact lockedBlock_stores h l hb k last
  · exact flywheelBlock_stores h l hb k last

theorem houseBlock_stores {s : State} (h : Holds StoresLaw s) (inp : BlockInputs) : Holds StoresLaw (houseBlock inp s) :=
  ⟨fun l => by
    rw [(houseBlock_showOnly inp s).lanes, afterSound, (runSound_keeps _ _ _ _).1 l]
    exact Lane.read_whole (beforeSound_stores h.holds inp l)⟩

theorem clearSlips_stores {s : State} (h : Holds StoresLaw s) : Holds StoresLaw (clearSlips s) := ⟨fun l => by
  simp only [clearSlips, Tab.get_map]
  exact h.holds l⟩

theorem powerOn_stores (lines : SiteLines) : Holds StoresLaw (State.powerOn lines) := ⟨fun l => by
  simp only [State.powerOn, Tab.get_fill]
  exact fun _ h => absurd h List.not_mem_nil⟩

theorem LaneBlock.wellFormed_length {b : LaneBlock} (h : b.wellFormed = true) : b.frames.length = 48 := by
  simp only [LaneBlock.wellFormed, Bool.and_eq_true, beq_iff_eq] at h
  obtain ⟨⟨frames, -⟩, -⟩ := h
  exact frames

theorem Moves.stores {i : Instr} {s t : State} (hm : Moves i s t) (hi : i.wellFormed = true) (h : Holds StoresLaw s) :
    Holds StoresLaw t := by
  by_cases quiet : movesLanes i = false
  · exact storesLaw_of_lanes h (hm.lanes quiet)
  cases hm with
  | powerOn lines => exact storesLaw_of_lanes (powerOn_stores lines) rfl
  | houseBlock inp => exact houseBlock_stores h inp
  | referenceLost inp => exact storesLaw_of_lanes (houseBlock_stores h inp) (changeClock_showOnly ..).lanes
  | interval => exact storesLaw_of_lanes (clearSlips_stores h) (takeInterval_showOnly s).lanes
  | activityLost l => exact loseActivity_stores h l
  | activitySeen l => exact seeActivity_stores h l
  | blockFound l b p k => exact findBlock_stores h l b p k
  | laneBlock l b k x => exact laneBlock_stores h l (LaneBlock.wellFormed_length hi) k x
  | automaticStart e => exact laneBlock_stores h _ (LaneBlock.wellFormed_length hi) _ _
  | restart port a b => exact storesLaw_of_lanes (powerOn_stores ⟨s.evac, a, b⟩) rfl
  | laneSet l => exact storesLaw_modLane h fun _ => id
  | _ => exact absurd rfl quiet

/-! ### The places of the outputs -/

/-- An output that moves to a screen with room, or stays on its own, leaves each with at most 32. -/
theorem placesLaw_moved {s : State} (h : PlacesLaw s) {o : Fin 192} {place : Option (Fin 12 × Role)}
    (room : s.screenFull (s.outputs.get o).place place = false) :
    PlacesLaw (s.modOutput o fun x => { x with place }) := fun n => by
  have screens : ∀ p, ((s.modOutput o fun x => { x with place }).outputs.get p).screen =
      if o = p then place.map Prod.fst else (s.outputs.get p).screen := fun p => by
    rw [get_modOutput]
    split <;> rfl
  by_cases joins : place.map Prod.fst = some n ∧ (s.outputs.get o).screen ≠ some n
  · obtain ⟨goes, new⟩ := joins
    have few : (s.outputsOf n).length < 32 := by
      simp only [State.screenFull, goes, Bool.and_eq_false_iff, decide_eq_false_iff_not, not_not] at room
      rcases room with old | few
      · exact absurd old new
      · exact Nat.lt_of_not_le few
    have sub : ∀ p, p ∈ (s.modOutput o fun x => { x with place }).outputsOf n → p ∈ o :: s.outputsOf n := fun p hp => by
      have on := of_decide_eq_true (List.mem_filter.1 hp).2
      rw [screens] at on
      split at on
      · next e => exact e ▸ List.mem_cons_self
      · exact List.mem_cons_of_mem _ (List.mem_filter.2 ⟨List.mem_finRange p, decide_eq_true on⟩)
    have nodup : ((s.modOutput o fun x => { x with place }).outputsOf n).Nodup := (List.nodup_finRange 192).filter _
    have bound := (nodup.subperm sub).length_le
    rw [List.length_cons] at bound
    omega
  · have sub : ∀ p, p ∈ (s.modOutput o fun x => { x with place }).outputsOf n → p ∈ s.outputsOf n := fun p hp => by
      have on := of_decide_eq_true (List.mem_filter.1 hp).2
      refine List.mem_filter.2 ⟨List.mem_finRange p, decide_eq_true ?_⟩
      rw [screens] at on
      split at on
      · next e =>
        subst e
        by_contra off
        exact joins ⟨on, off⟩
      · exact on
    have nodup : ((s.modOutput o fun x => { x with place }).outputsOf n).Nodup := (List.nodup_finRange 192).filter _
    exact (nodup.subperm sub).length_le.trans (h n)

/-! ### Every move -/

theorem powerOn_booth (lines : SiteLines) : BoothLaw (State.powerOn lines) := fun n l => by
  simp only [State.line, State.powerOn, Tab.get_fill]
  cases lines.evac <;> rfl

theorem powerOn_queues (lines : SiteLines) : QueueLaw (State.powerOn lines) := fun p => by
  simp only [State.powerOn, Tab.get_fill]
  exact ⟨Nat.zero_le _, Nat.zero_le _⟩

theorem powerOn_orderly {s t : State} (lines : SiteLines) (hp : t.pending = s.pending)
    (hb : t.booth = (State.powerOn lines).booth) (he : t.evac = (State.powerOn lines).evac)
    (hq : t.ports = (State.powerOn lines).ports) : Orderly s t :=
  ⟨hp, fun _ n l => by simpa only [State.line, hb, he] using powerOn_booth lines n l,
    fun _ p => by simpa only [hq] using powerOn_queues lines p⟩

/-- The commands whose moves close a block, run the sound, move an output to a screen, or reset the part. -/
def movesMeters : Instr → Bool
  | .powerOnReset _ => true
  | .houseBlock _ => true
  | .referenceLost _ => true
  | .intervalEvent => true
  | .measurePhaseEnd => true
  | .measurementResult => true
  | .frameSent _ _ _ => true
  | .outputMap _ _ _ => true
  | _ => false

theorem settingInt_bounds {lo hi : Int} (h : lo ≤ hi) (v : Int) :
    lo ≤ (settingInt lo hi v).value ∧ (settingInt lo hi v).value ≤ hi := clampInt_bounds h v

/-- Every other move leaves the energies. -/
theorem Moves.unmetered {i : Instr} {s t : State} (hm : Moves i s t) (hi : movesMeters i = false) : Unmetered s t := by
  have fields : ∀ {u : State}, u.pending = s.pending → u.booth = s.booth → u.evac = s.evac → u.ports = s.ports →
      u.outputs = s.outputs → u.blockCount = s.blockCount → u.blockClosed = s.blockClosed →
      u.intervalTaken = s.intervalTaken → u.meters = s.meters → Unmetered s u :=
    fun hp hb he hq ho hc hk ht hm => .of_orderly (.of_fields hp hb he hq) ho hc hk ht hm
  cases hm with
  | evacAsserted => exact assertEvac_unmetered s
  | evacReleased => exact releaseEvac_unmetered s
  | referenceRegained => exact changeClock_unmetered ..
  | fadeStep => exact modScreen_unmetered ..
  | fadeCompletion => exact completeFade_unmetered ..
  | pulseEnd => exact modLine_unmetered ..
  | selftest => exact completeSelftest_unmetered ..
  | activityLost => exact loseActivity_related unmetered_laneSteps ..
  | activitySeen => exact seeActivity_related unmetered_laneSteps ..
  | blockFound => exact findBlock_related unmetered_laneSteps ..
  | laneBlock => exact laneBlock_related unmetered_laneSteps screenTakesWord_unmetered ..
  | automaticStart => exact laneBlock_related unmetered_laneSteps screenTakesWord_unmetered ..
  | returnBlock => exact returnBlock_unmetered ..
  | enable => exact .trans (modScreen_unmetered ..) (notify_unmetered ..)
  | disable => exact disabled_unmetered ..
  | hold => exact (.trans (.trans (modScreen_unmetered ..) (clearBase_unmetered ..)) (notify_unmetered ..))
  | calibrate _ _ _ _ entered =>
    refine .trans ?_ (notify_unmetered _ _)
    refine .trans (.trans ?_ (clearBase_unmetered _ _)) (withdrawAlarms_unmetered _ _)
    rw [(enterDemand_eq entered).2]
    exact .trans (entering_unmetered ..) (recompute_unmetered _ _)
  | release => exact release_unmetered ..
  | takeOver => exact .trans (modScreen_unmetered ..) (notify_unmetered ..)
  | start _ judged => exact (judgeStart_unmetered judged).trans (notify_unmetered ..)
  | pause => exact moveShow_unmetered ..
  | resume => exact moveShow_unmetered ..
  | endShow => exact moveShow_unmetered ..
  | level => exact modScreen_unmetered ..
  | screenSet => exact applyConfig_unmetered ..
  | laneSet => exact fields rfl rfl rfl rfl rfl rfl rfl rfl rfl
  | layoutSet => exact fields rfl rfl rfl rfl rfl rfl rfl rfl rfl
  | pagingSet => exact fields rfl rfl rfl rfl rfl rfl rfl rfl rfl
  | tuneLoad => exact modOutput_unmetered ..
  | tuneMoved => exact .trans (reallocate_unmetered _ s) (modOutput_unmetered ..)
  | trim => exact modOutput_unmetered ..
  | offsetSet n v =>
    obtain ⟨lo, hi⟩ := settingInt_bounds (by decide : (-128 : Int) ≤ 127) v
    exact modMeter_unmetered n _ s fun _ _ h => Meter.offset_lawful h lo hi
  | alarmSet => exact fields rfl rfl rfl rfl rfl rfl rfl rfl rfl
  | senseSet => exact modOutput_unmetered ..
  | exclude => exact .trans (modOutput_unmetered ..) (healthChanged_unmetered ..)
  | includeOutput => exact .trans (modOutput_unmetered ..) (healthChanged_unmetered ..)
  | budgetSet => exact setBudget_unmetered ..
  | cueAdd => exact fields rfl rfl rfl rfl rfl rfl rfl rfl rfl
  | cueRemove => exact fields rfl rfl rfl rfl rfl rfl rfl rfl rfl
  | cueClear n =>
    unfold clearCues
    exact fields rfl rfl rfl rfl rfl rfl rfl rfl rfl
  | lineSet => exact modLine_unmetered ..
  | lineEvacSet => exact modLine_unmetered ..
  | @tone _ _ _ _ _ n g _ b gain =>
    have toned := setTones_unmetered (s.targetOutputs n g) b s
    generalize setTones (s.targetOutputs n g) b s = u at toned
    exact toned.trans (.of_orderly (.of_fields rfl rfl rfl rfl) rfl rfl rfl rfl rfl)
  | @measure _ _ _ n _ _ =>
    exact .of_outputs (.of_fields rfl rfl rfl rfl) (clearTones_sameEnergy n s) rfl rfl rfl rfl
  | abort => exact abortMeasurement_unmetered ..
  | micSet => exact fields rfl rfl rfl rfl rfl rfl rfl rfl rfl
  | markSet => exact fields rfl rfl rfl rfl rfl rfl rfl rfl rfl
  | _ => cases hi

/-- Every move leaves the waiting commands, and keeps the booth lines and the queues lawful. -/
theorem Moves.orderly {i : Instr} {s t : State} (hm : Moves i s t) : Orderly s t := by
  have marked : ∀ u : State, Orderly u { u with measureStepped := true } := fun _ => .of_fields rfl rfl rfl rfl
  by_cases hi : movesMeters i = false
  · exact (hm.unmetered hi).toOrderly
  cases hm with
  | powerOn lines => exact powerOn_orderly lines rfl rfl rfl rfl
  | restart port a b => exact powerOn_orderly ⟨s.evac, a, b⟩ rfl rfl rfl rfl
  | houseBlock inp => exact houseBlock_orderly inp s
  | referenceLost inp => exact (houseBlock_orderly inp s).trans (changeClock_unmetered ..).toOrderly
  | interval => exact takeInterval_orderly s
  | phaseEnd =>
    have stepped := (ensureClosed_orderly s).trans (endPhase_unmetered _).toOrderly
    generalize endPhase (ensureClosed s) = u at stepped
    exact stepped.trans (marked u)
  | result =>
    have stepped := (ensureClosed_orderly s).trans (endMeasurement_unmetered _).toOrderly
    generalize endMeasurement (ensureClosed s) = u at stepped
    exact stepped.trans (marked u)
  | outputMap => exact .of_fields rfl rfl rfl rfl
  | outputMoved =>
    have moved : ∀ o f (u : State), Orderly u (u.modOutput o f) := fun _ _ _ => .of_fields rfl rfl rfl rfl
    exact (reallocate_unmetered _ s).toOrderly.trans (moved _ _ _)
  | _ => exact absurd rfl hi

/-! ### The law of the meters -/

/-- What a command must meet and keep of the law of the meters, apart from the waiting commands. -/
structure Metered (s : State) : Prop where
  stores : Holds StoresLaw s
  places : PlacesLaw s
  energies : EnergyLaw s

theorem meterLaw_iff (s : State) : MeterLaw s ↔ (∀ i ∈ s.pending, i.wellFormed = true) ∧ Metered s := by
  constructor
  · rintro ⟨pending, stores, places, blocks, energies, silent, closes, count, meters⟩
    exact ⟨pending, ⟨stores⟩, places, ⟨blocks, fun o => (energies o).1, fun o => (energies o).2⟩, silent, closes, count, meters⟩
  · rintro ⟨pending, ⟨stores⟩, places, ⟨⟨blocks, energy, running⟩, silent, closes, count, meters⟩⟩
    exact ⟨pending, stores, places, blocks, fun o => ⟨energy o, running o⟩, silent, closes, count, meters⟩

/-- An output may move between screens: the energies of the block in progress stay where it began. -/
theorem energyLaw_moved {s : State} (h : EnergyLaw s) (o : Fin 192) (place : Option (Fin 12 × Role)) :
    EnergyLaw (s.modOutput o fun x => { x with place }) := by
  have same : ∀ p, ((s.modOutput o fun x => { x with place }).outputs.get p).blockScreen = (s.outputs.get p).blockScreen ∧
      ((s.modOutput o fun x => { x with place }).outputs.get p).energy = (s.outputs.get p).energy ∧
      ((s.modOutput o fun x => { x with place }).outputs.get p).running = (s.outputs.get p).running := fun p => by
    rw [get_modOutput]
    split <;> exact ⟨rfl, rfl, rfl⟩
  obtain ⟨bounds, silent, closes, count, metered⟩ := h
  refine ⟨⟨fun n => ?_, fun p => (same p).2.1 ▸ bounds.energy p, fun p => (same p).2.2 ▸ bounds.running p⟩,
    fun closed p => (same p).2.2.trans (silent closed p), closes, count, metered⟩
  have blocks : (s.modOutput o fun x => { x with place }).blockOutputs n = s.blockOutputs n :=
    List.filter_congr fun p _ => by rw [(same p).1]
  exact blocks ▸ bounds.screens n

theorem Meter.reset_lawful : Meter.reset.lawful 0 := by
  refine ⟨⟨?_, ?_⟩, ⟨?_, ?_⟩, ⟨?_, fun _ h => absurd h List.not_mem_nil, ?_⟩, ⟨?_, ?_, ?_⟩, ⟨?_, ?_, ?_, ?_⟩, ?_, ?_⟩ <;>
    decide

theorem powerOn_energyLaw (lines : SiteLines) : EnergyLaw (State.powerOn lines) := by
  have output := powerOn_output lines
  refine ⟨⟨fun n => ?_, fun o => ?_, fun o => ?_⟩, fun _ o => ?_, fun taken => ?_, Nat.zero_lt_succ _, fun n => ?_⟩
  · refine le_of_eq_of_le (congrArg List.length (?_ : _ = ([] : List (Fin 192)))) (Nat.zero_le _)
    exact List.filter_eq_nil_iff.2 fun o _ => by rw [output o]; exact Bool.false_ne_true
  · rw [output o]
    exact Nat.zero_le _
  · rw [output o]
    exact Nat.zero_le _
  · rw [output o]
    rfl
  · exact Bool.noConfusion taken
  · have meter : (State.powerOn lines).meters.get n = Meter.reset := Tab.get_fill ..
    rw [meter]
    exact Meter.lawful_mono (Nat.zero_le _) Meter.reset_lawful

theorem powerOn_places (lines : SiteLines) : PlacesLaw (State.powerOn lines) := fun n => by
  have none : (State.powerOn lines).outputsOf n = [] :=
    List.filter_eq_nil_iff.2 fun o _ => by rw [powerOn_output lines o]; exact Bool.false_ne_true
  rw [none]
  exact Nat.zero_le _

theorem Unmetered.metered {s t : State} (h : Unmetered s t) (hs : Metered s) (stores : Holds StoresLaw t) : Metered t :=
  ⟨stores, h.placesLaw hs.places, h.energyLaw hs.energies⟩

theorem Moves.metered {i : Instr} {s t : State} (hm : Moves i s t) (hi : i.wellFormed = true) (h : Metered s) :
    Metered t := by
  have stores := hm.stores hi h.stores
  by_cases quiet : movesMeters i = false
  · exact (hm.unmetered quiet).metered h stores
  have marked : ∀ u : State, Unmetered u { u with measureStepped := true } := fun _ =>
    .of_orderly (.of_fields rfl rfl rfl rfl) rfl rfl rfl rfl rfl
  have closedPlaces : PlacesLaw (ensureClosed s) := (ensureClosed_showOnly s).toPlantKept.placesLaw h.places
  have closedLaw := (ensureClosed_energyLaw h.energies).1
  cases hm with
  | powerOn lines => exact ⟨stores, powerOn_places lines, (powerOn_energyLaw lines).of_fields rfl rfl rfl rfl rfl⟩
  | restart port a b =>
    exact ⟨stores, powerOn_places ⟨s.evac, a, b⟩, (powerOn_energyLaw ⟨s.evac, a, b⟩).of_fields rfl rfl rfl rfl rfl⟩
  | houseBlock inp =>
    exact ⟨stores, (houseBlock_plantKept inp s).placesLaw h.places,
      houseBlock_energyLaw h.energies h.places h.stores.holds inp⟩
  | referenceLost inp =>
    have clocked := changeClock_unmetered .free .locked (Machine.houseBlock inp s)
    exact ⟨stores, clocked.placesLaw ((houseBlock_plantKept inp s).placesLaw h.places),
      clocked.energyLaw (houseBlock_energyLaw h.energies h.places h.stores.holds inp)⟩
  | interval due =>
    exact ⟨stores, (takeInterval_storeKept s).toPlantKept.placesLaw h.places, (takeInterval_energyLaw h.energies due).1⟩
  | phaseEnd =>
    have stepped := endPhase_unmetered (ensureClosed s)
    generalize endPhase (ensureClosed s) = u at stepped stores
    have both := stepped.trans (marked u)
    exact ⟨stores, both.placesLaw closedPlaces, both.energyLaw closedLaw⟩
  | result =>
    have stepped := endMeasurement_unmetered (ensureClosed s)
    generalize endMeasurement (ensureClosed s) = u at stepped stores
    have both := stepped.trans (marked u)
    exact ⟨stores, both.placesLaw closedPlaces, both.energyLaw closedLaw⟩
  | outputMap new _ _ room => exact ⟨stores, placesLaw_moved h.places room, energyLaw_moved h.energies _ _⟩
  | @outputMoved _ _ _ o _ new _ _ room =>
    have moved := reallocate_unmetered [s.placeChange o new] s
    generalize reallocate [s.placeChange o new] s = u at moved stores
    have room' : u.screenFull (u.outputs.get o).place new = false := by
      have same : ∀ n, u.outputsOf n = s.outputsOf n := fun n =>
        List.filter_congr fun p _ => by
          have e : (u.outputs.get p).screen = (s.outputs.get p).screen := congrArg (Option.map Prod.fst) (moved.outputs p).place
          rw [e]
      unfold State.screenFull at room ⊢
      simpa only [same, (moved.outputs o).place] using room
    exact ⟨stores, placesLaw_moved (moved.placesLaw h.places) room', energyLaw_moved (moved.energyLaw h.energies) _ _⟩
  | _ => exact absurd rfl quiet

theorem PortsOnly.orderly {s t : State} (h : PortsOnly s t) : Orderly s t := by
  obtain ⟨⟨p, rfl⟩, queues⟩ := h
  exact ⟨rfl, id, queues⟩

/-- A command leaves the commands that wait, and keeps the booth lines and the queues lawful. -/
theorem exec_orderly {i : Instr} {s t : State} (ht : exec i s = .next t) : Orderly s t := by
  obtain ⟨u, v, before, moved, after⟩ := exec_stepped ht
  have moves : Orderly u v := by
    rcases moved with rfl | moved
    · exact .refl _
    · exact moved.orderly
  exact (before.orderly.trans moves).trans after.orderly

theorem exec_metered {i : Instr} {s t : State} (ht : exec i s = .next t) (hi : i.wellFormed = true) (h : Metered s) :
    Metered t := by
  have ports : ∀ u p, Metered u → Metered { u with ports := p } := fun u p hu =>
    ⟨⟨hu.stores.holds⟩, hu.places, hu.energies.of_fields rfl rfl rfl rfl rfl⟩
  exact exec_keeps ports (fun u v hu hm => hm.metered hi hu) h ht

end Sys2Proof.Machine

open Sys2Proof Sys2Proof.Machine

/-- Settles O55: what leaves the energies keeps the meters, and the close of a block and the sound stay in their bounds. -/
theorem boothAndQueueLawsKept : Obligations.BoothAndQueueLawsKept := by
  unfold Obligations.BoothAndQueueLawsKept
  intro s t ht
  unfold step at ht
  split at ht
  · injection ht with ht
    exact ht ▸ ⟨fun booth queues => ⟨booth, queues⟩, id⟩
  · next c rest e =>
    have orderly := exec_orderly ht
    refine ⟨fun booth queues => ⟨orderly.booth booth, orderly.queues queues⟩, fun h => ?_⟩
    obtain ⟨waiting, metered⟩ := (meterLaw_iff s).1 h
    have rested : Metered { s with pending := rest } :=
      ⟨⟨metered.stores.holds⟩, metered.places, metered.energies.of_fields rfl rfl rfl rfl rfl⟩
    refine (meterLaw_iff t).2 ⟨fun i hi => ?_, exec_metered ht (waiting c (e ▸ List.mem_cons_self)) rested⟩
    rw [orderly.pending] at hi
    exact waiting i (e ▸ List.mem_cons_of_mem c hi)

end

section
/-! PROOF. The requests as the Port Controller takes them: the front of the queue of commands, the waiting request, and the
checks before the owner's (11 R182, R183, R184). -/

namespace Sys2Proof.Machine

/-- Every request is taken by the Port Controller, which hands it to its owner's rule. -/
theorem exec_takes {i : Instr} {h : Header} {kind : Nat} (hi : requestOf i = some (h, kind)) :
    ∃ act, ∀ s, exec i s = takeRequest i h kind act s := by
  cases i <;> cases hi <;> exact ⟨_, fun _ => rfl⟩

/-- Every command ends in a next state. -/
theorem exec_next (i : Instr) (s : State) : ∃ t, exec i s = .next t := by
  cases request : requestOf i with
  | some x =>
    obtain ⟨act, taken⟩ := exec_takes request
    obtain ⟨t, ht⟩ := takeRequest_next (i := i) (h := x.1) (kind := x.2) (act := act) (s := s)
    exact ⟨t, (taken s).trans ht⟩
  | none =>
    cases i with
    | powerOnReset | evacAsserted | evacReleased | houseBlock | referenceLost | referenceRegained | intervalEvent | fadeStep
    | fadeCompletion | pulseEnd | selftestCompletion | activityLost | activitySeen | blockFound | laneBlockEvent
    | automaticStart | measurePhaseEnd | measurementResult | returnBlockEvent | frameReceived | frameSent =>
      exact ⟨_, rfl⟩
    | unknownRequest h k =>
      change ∃ t, execUnknownRequest h k s = .next t
      unfold execUnknownRequest
      split
      · exact ⟨_, rfl⟩
      · split
        · exact ⟨_, rfl⟩
        · exact ⟨_, rfl⟩
    | _ => cases request

/-- A kind outside 1 to 52 is refused with UNKNOWN as soon as its port takes it. -/
theorem exec_unknown {h : Header} {k : Nat} {s : State} (hk : k = 0 ∨ 52 < k)
    (ht : (s.ports.get h.port).canTake (.unknownRequest h k) = true) :
    exec (.unknownRequest h k) s = .next (s.refusing (.unknownRequest h k) h k .unknown) := by
  change execUnknownRequest h k s = _
  unfold execUnknownRequest
  rw [if_neg (by omega), if_pos ht]
  rfl

theorem exec_unknown_waits {h : Header} {k : Nat} {s : State} (hk : k = 0 ∨ 52 < k)
    (ht : (s.ports.get h.port).canTake (.unknownRequest h k) = false) :
    exec (.unknownRequest h k) s = .next (s.modPort h.port (Port.receive (.unknownRequest h k))) := by
  change execUnknownRequest h k s = _
  unfold execUnknownRequest
  rw [if_neg (by omega), if_neg (by simp [ht])]

/-- An empty receive queue takes any request. -/
theorem Port.canTake_of_empty {p : Port} (i : Instr) (h : p.queue = []) : p.canTake i = true := by
  unfold Port.canTake
  rw [h]

/-- A port takes the unanswered request at the head of its queue. -/
theorem Port.canTake_of_head {p : Port} {i : Instr} {rest : List Queued}
    (h : p.queue = { request := i, answered := false } :: rest) : p.canTake i = true := by
  unfold Port.canTake
  rw [h]
  exact decide_eq_true rfl

end Sys2Proof.Machine

open Sys2Proof Sys2Proof.Machine

/-- Settles O1: the definition of a step. -/
theorem stepRunsFrontCommand : Obligations.StepRunsFrontCommand := by
  unfold Obligations.StepRunsFrontCommand
  intros
  rfl

/-- Settles O2, since no move stops the part or changes the waiting commands. -/
theorem everyCommandGoesOn : Obligations.EveryCommandGoesOn := by
  unfold Obligations.EveryCommandGoesOn
  refine ⟨fun c s => ?_, fun s h => ?_⟩
  · obtain ⟨t, ht⟩ := exec_next c s
    exact ⟨t, ht, (exec_orderly ht).pending⟩
  · unfold step
    rw [h]

/-- Settles O3, since every request goes through `takeRequest`. -/
theorem requestsWaitTheirTurn : Obligations.RequestsWaitTheirTurn := by
  unfold Obligations.RequestsWaitTheirTurn
  intro i h kind s hi ht
  obtain ⟨act, hact⟩ := exec_takes hi
  exact (hact s).trans (takeRequest_waits ht)

/-- Settles O4: the rights table is read row by row, and the checks are those of `takeRequest`. -/
theorem refusedBeforeTheOwner : Obligations.RefusedBeforeTheOwner := by
  unfold Obligations.RefusedBeforeTheOwner
  refine ⟨fun _ => rfl, ?_, ?_, ?_, ?_, ?_, ?_, ?_⟩
  · decide
  · decide
  · decide
  · decide
  · decide
  · intro i h kind s hi ht
    obtain ⟨act, hact⟩ := exec_takes hi
    exact ⟨fun role => (hact s).trans (takeRequest_role ht role),
      fun role fits => (hact s).trans (takeRequest_range ht role fits)⟩
  · intro h k s hk
    exact ⟨exec_unknown hk, Port.canTake_of_empty _, fun rest e => exec_unknown hk (Port.canTake_of_head e),
      exec_unknown_waits hk⟩
end

section
/-! PROOF. The Port Controller's own requests and the fields of the notices (11 R180, R185, R187, R188), the completion of
the self-test (04 R88), and the laws right after reset. -/

namespace Sys2Proof.Machine

/-! ### Fields -/

theorem fieldOpt_map {α : Type} (k : Nat) (f : α → Nat) (x : Option α) :
    fieldOpt k (x.map f) = .opt k (x.map fun a => Int.ofNat (f a)) := by
  cases x <;> rfl

theorem fieldCond_map {α : Type} (k : Nat) (f : α → Nat) (x : Option α) :
    fieldCond k (x.map f) = .cond k (x.map fun a => Int.ofNat (f a)) := by
  cases x <;> rfl

theorem Notice.fields_showN (n : Fin 12) (st prev : ShowState) (holder : Option (Fin 16)) (cause : ShowCause)
    (station : Option (Fin 16)) (refusal : Option Reason) (mx : Option Nat) :
    (Notice.showN n st prev holder cause station refusal mx).fields =
      [.num 1 (n.val + 1 : Nat), .num 1 st.code, .num 1 prev.code, .opt 1 (holder.map fun h => Int.ofNat h.val),
        .num 1 cause.code, .cond 1 (station.map fun h => Int.ofNat h.val),
        .cond 1 (refusal.map fun x => Int.ofNat x.code), .cond 1 (mx.map Int.ofNat)] := by
  simp only [Notice.fields, stationField, fieldOpt_map, fieldCond_map]
  rfl

theorem AlarmDetail.fields_lane (x : Sync) (k : Nat) (slip : Option Slip) :
    (AlarmDetail.lane x k slip).fields =
      [.num 1 x.code, .num 2 k, .opt 1 (slip.map fun y => Int.ofNat y.code)] := by
  simp only [AlarmDetail.fields, fieldOpt_map]
  rfl

theorem labelFields_eq (label : List Byte) : labelFields label = .num 1 label.length :: label.map fun b => .num 1 b.toNat := by
  rw [labelFields, fieldList, List.length_map, ← List.flatMap_def]
  exact congrArg _ List.map_eq_flatMap.symm

theorem Notice.fields_health (o : Fin 192) (n : Option (Fin 12)) (st prev : Health) (cause : HealthCause) (z : Option Nat)
    (station : Option (Fin 16)) :
    (Notice.health o n st prev cause z station).fields =
      [.num 1 (o.val + 1 : Nat), .opt 1 (n.map fun x => Int.ofNat (x.val + 1)), .num 1 st.code, .num 1 prev.code,
        .num 1 cause.code, .cond 2 (z.map Int.ofNat), .cond 1 (station.map fun h => Int.ofNat h.val)] := by
  simp only [Notice.fields, stationField, fieldOpt_map, fieldCond_map]
  rfl

/-- A fired or skipped entry is told with its trigger, its action and its label. -/
theorem Notice.fields_cue (n : Fin 12) (e : Fin 512) (c : Cue) (time : Option Nat) (change : CueChange) (code : Int)
    (h : change = .fired e c ∧ code = 0 ∨ change = .skipped e c ∧ code = 1) :
    (Notice.cue n change time).fields =
      ([.num 1 (n.val + 1 : Nat), .num 1 code, .cond 2 (some (e.val + 1 : Nat))] : List Field) ++
      (Field.num 1 1 :: c.trigger.fields) ++ (Field.num 1 1 :: c.action.fields) ++ (Field.num 1 1 :: labelFields c.label) ++
      ([.num 3 (time.getD 0 : Nat), .cond 3 none, .cond 3 none, .cond 2 none] : List Field) := by
  rcases h with ⟨rfl, rfl⟩ | ⟨rfl, rfl⟩
  · simp only [Notice.fields, CueChange.fields, condFields, List.cons_append, List.append_assoc, List.nil_append]
    rfl
  · simp only [Notice.fields, CueChange.fields, condFields, List.cons_append, List.append_assoc, List.nil_append]
    rfl

theorem Notice.fields_measure (n : Fin 12) (g : Target) (e : MeasureEnd) (rest : List Field)
    (h : (∃ (b m o spl : Nat) (x : Int), e = .ok b m o spl x ∧ rest =
        [.num 1 0, .cond 1 none, .cond 1 none, .cond 1 (some b), .cond 1 (some m), .cond 1 (some o), .cond 1 (some spl),
          .cond 1 (some x)]) ∨
      (∃ b m o : Nat, e = .noisy b m o ∧ rest =
        [.num 1 1, .cond 1 none, .cond 1 none, .cond 1 (some b), .cond 1 (some m), .cond 1 (some o), .cond 1 none,
          .cond 1 none]) ∨
      ∃ cause phase b, e = .aborted cause phase b ∧ rest =
        [.num 1 2, .cond 1 (some cause.code), .cond 1 (some phase.code), .cond 1 (b.map Int.ofNat), .cond 1 none,
          .cond 1 none, .cond 1 none, .cond 1 none]) :
    (Notice.measure n g e).fields = .num 1 (n.val + 1 : Nat) :: g.field :: rest := by
  rcases h with ⟨b, m, o, spl, x, rfl, rfl⟩ | ⟨b, m, o, rfl, rfl⟩ | ⟨cause, phase, b, rfl, rfl⟩
  · rfl
  · rfl
  · rfl

/-! ### Requests that change the ports' masks and the mark -/

/-- A value in its range is stored as it is carried. -/
theorem settingNat_of_range {lo hi v : Nat} (hl : lo ≤ v) (hh : v ≤ hi) : settingNat lo hi v = { value := v, clamped := false } := by
  have same : clampNat lo hi v = v := by
    unfold clampNat
    rw [if_neg (by omega), if_neg (by omega)]
  rw [settingNat, same]
  simp

theorem taking_port (s : State) (i : Instr) (h : Header) :
    (s.taking i h).ports.get h.port = (s.ports.get h.port).hold i := by
  rw [State.taking, modPort_ports, Tab.get_modify, if_pos rfl]

theorem exec_subscribe {h : Header} {kinds screens : BitVec 16} {s : State} (hr : s.ready (.subscribe h kinds screens) h 48) :
    exec (.subscribe h kinds screens) s =
      .next (((s.taking (.subscribe h kinds screens) h).modPort h.port fun p =>
          { p with kinds := kinds &&& 0x01FF#16, screens := screens &&& 0x0FFF#16 }).answering h
        (doneAnswer h 48 false [.flags (s.ports.get h.port).kinds, .flags (s.ports.get h.port).screens])) := by
  obtain ⟨q, held⟩ := Port.hold_frame (.subscribe h kinds screens) (s.ports.get h.port)
  refine takeRequest_accept hr ?_
  simp only [actSubscribe, taking_port, held]
  rfl

theorem exec_markSet {h : Header} {v : Nat} {s : State} (hv : v ≤ 255) (hr : s.ready (.markSet h v) h 50) :
    exec (.markSet h v) s =
      .next (({ s.taking (.markSet h v) h with mark := v } : State).answering h (doneAnswer h 50 false [])) := by
  refine takeRequest_accept hr ?_
  simp only [actMarkSet, settingNat_of_range (Nat.zero_le v) hv]

end Sys2Proof.Machine

open Sys2Proof Sys2Proof.Machine

/-- Settles O5: the requests are accepted as they stand, and the fields are those of the tables. -/
theorem portRequestsAnswered : Obligations.PortRequestsAnswered := by
  unfold Obligations.PortRequestsAnswered
  refine ⟨fun _ => rfl, rfl, rfl, rfl, rfl, rfl, rfl, rfl, rfl, rfl, rfl, rfl, rfl, rfl, rfl, rfl, rfl, rfl, rfl, rfl, rfl,
    rfl, rfl, rfl, rfl, rfl, rfl, rfl, Notice.fields_showN, fun _ _ _ _ _ _ _ _ _ => rfl, fun _ => rfl, fun _ => rfl,
    AlarmDetail.fields_lane, fun _ _ => rfl, fun _ => rfl, fun _ => rfl, fun _ => rfl, fun _ => rfl, fun _ => rfl,
    fun _ => ⟨rfl, rfl, fun _ => rfl⟩, fun _ => rfl, rfl, labelFields_eq, Notice.fields_cue, fun _ _ _ _ _ => rfl,
    Notice.fields_health, fun _ _ _ _ _ _ _ => rfl, fun _ _ _ _ _ => rfl, fun _ _ => rfl, fun _ _ _ => rfl, fun _ _ => rfl,
    Notice.fields_measure, fun _ => rfl, rfl, fun _ _ => rfl, fun h s => ⟨fun kinds screens => exec_subscribe, ?_,
      fun v => exec_markSet, ?_, ?_⟩⟩
  · exact fun hr => takeRequest_accept hr rfl
  · exact fun hr => takeRequest_accept hr rfl
  · exact fun hr => takeRequest_accept hr rfl

/-- Settles O40: the completion is due at the 2048th house block alone. -/
theorem selftestCompletes : Obligations.SelftestCompletes := by
  unfold Obligations.SelftestCompletes
  intro fault0 fault1 s
  have due : s.selftest.ends = true ↔ s.selftest.running = true ∧ 2048 ≤ s.selftest.blocks + 1 := by
    simp [SelfTest.ends, Config.selftestBlocks]
  have executed : exec (.selftestCompletion fault0 fault1) s =
      .next (if s.selftest.ends then completeSelftest fault0 fault1 s else s) := rfl
  refine ⟨fun early => ?_, fun running last bad u hb hu => ?_⟩
  · rw [executed, if_neg (mt due.1 early)]
  · rw [executed, if_pos (due.2 ⟨running, last⟩), hu, hb]
    rfl

/-- Settles O51: at reset every screen is OFFLINE, and every table and store is empty. -/
theorem lawsAtReset : Obligations.LawsAtReset := by
  unfold Obligations.LawsAtReset State.reset
  generalize ({ evac := false, supply1 := false, supply2 := false } : SiteLines) = lines
  obtain ⟨holding, evac⟩ := holdingAndEvac_of_offline (powerOn_screen lines)
  have pages : Holds PageLaw (State.powerOn lines) :=
    pageLaw_of_reset (powerOn_output lines) (testSound_of_reset (powerOn_output lines) rfl rfl) .nil fun p hp => by cases hp
  have waiting : ∀ i ∈ (State.powerOn lines).pending, i.wellFormed = true := fun i hi => by cases hi
  have metered : Metered (State.powerOn lines) :=
    ⟨powerOn_stores lines, powerOn_places lines, powerOn_energyLaw lines⟩
  exact ⟨holding, evac, stampLaw_of_offline (powerOn_screen lines) rfl, powerLaw_of_reset (powerOn_grant lines),
    powerOn_booth lines, powerOn_queues lines, (powerOn_cueLaw lines).holds, pages.holds,
    (calibrationLaw_of_reset rfl (powerOn_output lines)).holds, (powerOn_senseLaw lines).holds,
    (powerOn_laneLaw lines).holds, (meterLaw_iff _).2 ⟨waiting, metered⟩⟩
end

section
/-! PROOF. The queries of the site and of the sound (01 R25, 02 R46, 03 R51, R55, R67, 04 R72, R84, R90, 05 R104). -/

namespace Sys2Proof.Machine

/-- A list of single fields: their count and the fields. -/
theorem fieldList_map {α : Type} (k : Nat) (f : α → Field) (l : List α) :
    fieldList k (l.map fun a => [f a]) = .num k l.length :: l.map f := by
  rw [fieldList, List.length_map, ← List.flatMap_def, List.map_eq_flatMap]
  rfl

theorem ident0_eq_some {count k : Nat} {i : Fin count} : ident0 count k = some i ↔ k = i.val := by
  unfold ident0
  split
  · next h =>
    rw [Option.some.injEq, Fin.ext_iff]
  · next h =>
    exact ⟨fun e => (by cases e), fun e => absurd (e ▸ i.isLt) h⟩

theorem ident0_eq_none {count k : Nat} (h : count ≤ k) : ident0 count k = none := by
  unfold ident0
  rw [dif_neg (Nat.not_lt.2 h)]

theorem onLayout_valid {code : Nat} {c : Fin 16} (hc : ident0 16 code = some c) (f : Fin 16 → State → Result) (s : State) :
    onLayout code f s = f c s := by
  unfold onLayout
  rw [hc]

theorem onLayout_invalid {code : Nat} (hc : 15 < code) (f : Fin 16 → State → Result) (s : State) :
    onLayout code f s = .refuse .range := by
  unfold onLayout
  rw [ident0_eq_none hc]

theorem onLane_invalid {lane : Nat} (hl : lane = 0 ∨ 14 < lane) (f : Fin 14 → State → Result) (s : State) :
    onLane lane f s = .refuse .range := by
  unfold onLane
  rw [ident_eq_none.2 hl]

/-! ### The fields of the site's queries -/

theorem Screen.queryFields_eq (c : Screen) : c.queryFields =
    [.num 1 c.config.priority, .num 2 c.config.fullDraw, .num 2 c.config.reducedDraw, .num 1 c.config.shedAtt,
      .num 1 c.config.fadeRate, .num 2 c.config.lipSync, .num 1 c.config.permit.toNat, .num 1 c.config.laneLevel.toNat,
      .num 1 c.config.defaultLayout, .num 1 c.state.code, .opt 1 (c.holder.map fun h => Int.ofNat h.val), .num 4 c.stamp,
      .num 1 c.level, .num 1 c.fadeAtt, .opt 1 (c.rateInEffect.map Int.ofNat), .num 1 c.lastLevel,
      .opt 1 (c.lastRolling.map fun b => Int.ofNat b.toNat)] := by
  simp only [Screen.queryFields, stationField, fieldOpt_map]
  rfl

/-- The good count in PROBATION, the bad count in FLYWHEEL, and no count elsewhere. -/
theorem Lane.count_eq (x : Lane) :
    x.count = if x.sync = .probation then x.good else if x.sync = .flywheel then x.bad else none := by
  unfold Lane.count
  cases x.sync <;> rfl

theorem wordFields_none : wordFields none =
    [.num 1 0, .num 1 0, .num 1 0, .num 1 0, .num 1 0, .num 3 0, .num 1 0, .num 1 0, .num 1 0, .num 2 0] := rfl

theorem wordFields_some (w : SideWord) : wordFields (some w) =
    [.num 1 1, .num 1 w.mark, .num 1 w.layout, .num 1 w.flags, .num 1 w.reel, .num 3 w.time, .num 1 w.level,
      .num 1 w.server, .num 1 w.cueCall, .num 2 w.check] := rfl

theorem State.laneFields_eq (s : State) (l : Fin 14) (x : Lane) (count : Option Nat) (word : List Field)
    (hx : x = s.lanes.get l)
    (hc : count = (if x.sync = .probation then x.good else if x.sync = .flywheel then x.bad else none))
    (program : l.val < 12 → (x.accepted = none → word = wordFields none) ∧
      ∀ w, x.accepted = some w → word = wordFields (some w))
    (other : 12 ≤ l.val → word = []) :
    s.laneFields l =
      ([.num 1 x.sync.code, .opt 1 (count.map Int.ofNat), .num 1 x.store.length, .num 1 x.slips.toNat,
        .num 2 x.intervalSlips, .opt 1 (x.lastSlip.map fun y => Int.ofNat y.code), .num 1 x.badBlocks.toNat,
        .opt 1 (x.skew.map Int.ofNat), .flags x.mask] : List Field) ++ word ++ ([.num 1 s.clock.code] : List Field) := by
  have spelled : (if l.val < 12 then wordFields x.accepted else []) = word := by
    split
    · next below =>
      obtain ⟨absent, present⟩ := program below
      cases accepted : x.accepted with
      | none => exact (absent accepted).symm
      | some w => exact (present w accepted).symm
    · next above => exact (other (Nat.le_of_not_lt above)).symm
  rw [hc, ← Lane.count_eq, ← spelled, hx]
  simp only [State.laneFields, fieldOpt_map]
  rfl

theorem State.outputFields_eq (s : State) (o : Fin 192) (x : Output) (place : List Field) (f : RoleFigures)
    (hx : x = s.outputs.get o)
    (unmapped : x.place = none → place = [.num 1 0, .num 1 0, .num 1 0] ∧ f.mapped = 0 ∧ f.inService = 0)
    (mapped : ∀ n r, x.place = some (n, r) →
      place = [.num 1 1, .num 1 (n.val + 1 : Nat), .num 1 r.code] ∧ f = (s.routes.get n).figures.roles.get r.ix) :
    s.outputFields o = place ++
      ([.num 2 (s.effectiveDelay o), .num 1 x.figures.kind.code,
        .cond 1 (x.figures.reason.map fun y => Int.ofNat y.code), .num 1 x.figures.comp, .num 1 f.mapped,
        .num 1 f.inService] : List Field) := by
  subst hx
  unfold State.outputFields
  dsimp only
  rw [fieldCond_map]
  cases at_ : (s.outputs.get o).place with
  | none =>
    obtain ⟨rfl, none_, out⟩ := unmapped at_
    rw [none_, out]
    rfl
  | some p =>
    obtain ⟨n, r⟩ := p
    obtain ⟨rfl, rfl⟩ := mapped n r at_
    rfl

theorem layoutFields_some (t : Tab Source 12) :
    layoutFields (some t) = .num 1 1 :: (Role.all.map fun r => sourceFields (t.get r.ix)).flatten := by
  rw [layoutFields, Tab.items_eq, List.map_map]
  rfl

theorem RoleFigures.fields_eq (f : RoleFigures) : f.fields =
    ([.num 1 f.mapped, .num 1 f.inService, .num 1 f.service.code, .num 1 f.comp, .num 1 f.outputs.length] : List Field) ++
    f.outputs.map fun o => .num 1 (o.val + 1 : Nat) := by
  rw [RoleFigures.fields, fieldList_map]
  rfl

theorem RouteFigures.fields_eq (f : RouteFigures) : f.fields =
    ([.num 1 f.layout, .num 1 f.source.code, .opt 1 (f.held.map Int.ofNat), .num 1 f.noLayout.toNat] : List Field) ++
    (Role.all.map fun r => (f.roles.get r.ix).fields).flatten ++
    ([.num 1 f.onRoute.toNat, .num 1 f.pagingRoles.length] : List Field) ++ f.pagingRoles.map fun r => .num 1 r.code := by
  rw [RouteFigures.fields, fieldList_map, Tab.items_eq, List.map_map]
  simp only [List.append_assoc]
  rfl

/-! ### The fields of the sound's queries -/

theorem State.tuneFields_eq (s : State) (start : Nat) (o : Fin 192) (x : Output) (hx : x = s.outputs.get o) :
    s.tuneFields start o =
      ([.num 1 x.trim, .num 1 x.inverted.toNat, .num 1 x.path.length] : List Field) ++
      (x.path.map fun p =>
        [Field.num 3 p.coef.b0, .num 3 p.coef.b1, .num 3 p.coef.b2, .num 3 p.coef.a1, .num 3 p.coef.a2]).flatten ++
      ([.num 2 x.delay, .num 2 (s.effectiveDelay o), .num 1 x.pages.length,
        .num 1 (min 32 (x.pages.length - (start - 1)) : Nat)] : List Field) ++
      (((x.pages.drop (start - 1)).take 32).map fun p : Nat => Field.num 2 p) ++ ([.opt 2 x.figures.step] : List Field) := by
  subst hx
  have pages := fieldList_map 1 (fun p : Nat => fieldNat 2 p) (((s.outputs.get o).pages.drop (start - 1)).take 32)
  unfold State.tuneFields
  dsimp only
  rw [pages, List.length_take, List.length_drop, fieldList, List.length_map]
  simp only [List.append_assoc, List.cons_append, List.nil_append]
  rfl

/-- LEVEL QUERY with an output names one of the screen. -/
theorem actLevelQuery_output {output : Nat} {o : Fin 192} (ho : ident 192 output = some o) (n : Fin 12) (s : State) :
    actLevelQuery (some output) n s =
      if (s.outputs.get o).screen = some n then
        .accept s false ((s.meters.get n).fields ++ energyFields (some (s.outputs.get o).energy))
      else .refuse .range := by
  simp only [actLevelQuery, ho]

theorem GainFigures.fields_eq (g : GainFigures) : g.fields =
    [.num 1 g.target, .opt 1 (g.part.code?.map Int.ofNat), .num 1 g.current, .num 1 g.fade, .num 1 g.applied,
      .num 1 g.level, .num 1 g.muted] := rfl

theorem pagesIn_eq (s : State) (st : PageState) :
    s.pagesIn st = (List.range 4096).filter fun p => decide (s.pageState p = st) :=
  List.filter_congr fun _ _ => beq_eq_decide ..

theorem pageState_bad_iff (s : State) (p : Nat) : s.pageState p = .bad ↔ p ∈ s.badPages := by
  rw [← List.contains_iff_mem, State.pageState]
  split
  · next bad => exact ⟨fun _ => bad, fun _ => rfl⟩
  · next good =>
    refine ⟨fun e => ?_, fun bad => absurd bad good⟩
    split at e <;> cases e

theorem pageState_inUse_iff (s : State) (p : Nat) :
    s.pageState p = .inUse ↔ p ∉ s.badPages ∧ ∃ o, p ∈ (s.outputs.get o).pages := by
  rw [← mem_usedPages, ← List.contains_iff_mem, ← List.contains_iff_mem, State.pageState]
  split
  · next bad => exact ⟨fun e => (by cases e), fun e => absurd bad e.1⟩
  · next good =>
    split
    · next used => exact ⟨fun _ => ⟨good, used⟩, fun _ => rfl⟩
    · next free => exact ⟨fun e => (by cases e), fun e => absurd e.2 free⟩

theorem State.storeFields_eq (s : State) (start : Nat) (bad : List Nat)
    (hb : bad = (List.range 4096).filter (fun p => decide (s.pageState p = .bad))) :
    s.storeFields start =
      ([.num 2 s.freePages.length,
        .num 2 ((List.range 4096).filter fun p => decide (s.pageState p = .inUse)).length, .num 2 bad.length,
        .num 1 (!s.selftest.running).toNat,
        .cond 2 (if s.selftest.running = true then some (min 4096 (2 * s.selftest.blocks) : Nat) else none),
        .num 1 (min 100 (bad.length - (start - 1)) : Nat)] : List Field) ++
      ((bad.drop (start - 1)).take 100).map fun p : Nat => Field.num 2 p := by
  have ascending : s.badAscending = bad := (pagesIn_eq s .bad).trans hb.symm
  have pages := fieldList_map 1 (fun p : Nat => fieldNat 2 p) ((bad.drop (start - 1)).take 100)
  unfold State.storeFields
  rw [ascending, pages, List.length_take, List.length_drop, pagesIn_eq]
  simp only [List.cons_append, List.nil_append]
  cases s.selftest.running <;> rfl

end Sys2Proof.Machine

open Sys2Proof Sys2Proof.Machine

/-- Settles O8: each query is accepted on an identifier in range, with the fields of its rule. -/
theorem siteQueriesAnswered : Obligations.SiteQueriesAnswered := by
  unfold Obligations.SiteQueriesAnswered
  refine ⟨?_, ?_, ?_, ?_, ?_, ?_, ?_, ?_, ?_, ?_, fun _ _ _ => ident_eq_some, fun _ _ _ => ident0_eq_some,
    Screen.queryFields_eq, State.laneFields_eq, State.outputFields_eq, rfl, layoutFields_some, rfl, fun _ _ => rfl,
    fun _ _ _ _ => rfl, RouteFigures.fields_eq, RoleFigures.fields_eq⟩
  · exact fun h screen n s hn hr => takeRequest_accept hr ((onScreen_valid hn _ _).trans rfl)
  · exact fun h lane l s hl hr => takeRequest_accept hr ((onLane_valid hl _ _).trans rfl)
  · exact fun h output o s ho hr => takeRequest_accept hr ((onOutput_valid ho _ _).trans rfl)
  · exact fun h code c s hc hr => takeRequest_accept hr ((onLayout_valid hc _ _).trans rfl)
  · exact fun h screen n s hn hr => takeRequest_accept hr ((onScreen_valid hn _ _).trans rfl)
  · exact fun h screen s out hr => takeRequest_refuse hr (onScreen_invalid (ident_eq_none.2 out) _ _)
  · exact fun h lane s out hr => takeRequest_refuse hr (onLane_invalid out _ _)
  · exact fun h output s out hr => takeRequest_refuse hr (onOutput_invalid (ident_eq_none.2 out) _ _)
  · exact fun h code s out hr => takeRequest_refuse hr (onLayout_invalid out _ _)
  · exact fun h screen s out hr => takeRequest_refuse hr (onScreen_invalid (ident_eq_none.2 out) _ _)

/-- Settles O9: each query is accepted on identifiers in range, with the fields of its rule. -/
theorem soundQueriesAnswered : Obligations.SoundQueriesAnswered := by
  unfold Obligations.SoundQueriesAnswered
  refine ⟨?_, ?_, ?_, ?_, ?_, ?_, ?_, ?_, ?_, ?_, State.tuneFields_eq, GainFigures.fields_eq, State.storeFields_eq,
    fun s p => ⟨pageState_bad_iff s p, pageState_inUse_iff s p⟩, fun s => pagesIn_eq s .free, fun _ => rfl, rfl, fun _ => rfl⟩
  · exact fun h output start o s ho hs hr => takeRequest_accept hr ((onOutput_valid ho _ _).trans (if_neg hs))
  · exact fun h output o s ho hr => takeRequest_refuse hr ((onOutput_valid ho _ _).trans (if_pos rfl))
  · exact fun h screen n s hn hr => takeRequest_accept hr ((onScreen_valid hn _ _).trans rfl)
  · exact fun h start s hs hr => takeRequest_accept hr (if_neg hs)
  · exact fun h s hr => takeRequest_refuse hr (if_pos rfl)
  · exact fun h screen n s hn hr => takeRequest_accept hr ((onScreen_valid hn _ _).trans rfl)
  · intro h screen n output o s hn ho hr
    have asked := fun u => (onScreen_valid hn (actLevelQuery (some output)) u).trans (actLevelQuery_output ho n u)
    split
    · next on => exact takeRequest_accept hr ((asked _).trans (if_pos on))
    · next off => exact takeRequest_refuse hr ((asked _).trans (if_neg off))
  · exact fun h output start s out hr => takeRequest_refuse hr (onOutput_invalid (ident_eq_none.2 out) _ _)
  · exact fun h screen s out hr => takeRequest_refuse hr (onScreen_invalid (ident_eq_none.2 out) _ _)
  · rintro h screen output s out hr
    refine takeRequest_refuse hr ?_
    cases hn : ident 12 screen with
    | none => exact onScreen_invalid hn _ _
    | some n =>
      rw [onScreen_valid hn]
      have inside : ¬(screen = 0 ∨ 12 < screen) := fun e => by rw [ident_eq_none.2 e] at hn; cases hn
      obtain ⟨k, rfl, far⟩ := (or_assoc.2 out).resolve_left inside
      simp only [actLevelQuery, ident_eq_none.2 far]
end

section
/-! PROOF. The queries of the units (06 R121, 07 R138, 08 R149, 09 R157, R167, 10 R177). -/

namespace Sys2Proof.Machine

/-! ### The fields of health, power and cues -/

theorem lastFaultFields_some (f : LastFault) : lastFaultFields (some f) =
    [.num 1 1, .num 1 f.cls.faultCode, .num 2 f.z16, .opt 1 (f.state.map fun y => Int.ofNat y.code),
      .opt 3 (f.time.map Int.ofNat)] := by
  simp only [lastFaultFields, fieldOpt_map]
  rfl

theorem State.healthFields_eq (s : State) (o : Fin 192) (x : Output) (r : HealthRecord) (fault : List Field) (lane : ReturnLane)
    (hx : x = s.outputs.get o) (hr : r = x.sense) (hl : lane = s.returnLanes.get ⟨o.val / 16, by omega⟩)
    (sound : r.lastFault = none → fault = lastFaultFields none)
    (faulty : ∀ f, r.lastFault = some f → fault = [.num 1 1, .num 1 f.cls.faultCode, .num 2 f.z16,
      .opt 1 (f.state.map fun y => Int.ofNat y.code), .opt 3 (f.time.map Int.ofNat)]) :
    s.healthFields o =
      ([.num 1 r.health.code, .opt 1 (r.settled.map fun y => Int.ofNat y.code),
        .opt 1 (r.candidate.map fun y => Int.ofNat y.code), .num 1 r.count, .opt 2 (r.lastZ.map Int.ofNat),
        .num 1 r.openFaults.toNat, .num 1 r.shortFaults.toNat, .num 1 r.lowFaults.toNat,
        .num 1 r.highFaults.toNat] : List Field) ++ fault ++
      ([.num 1 x.driveOn.toNat, .num 1 x.figures.pilot.toNat, .num 2 x.thresholds.shortMax, .num 2 x.thresholds.lowDrift,
        .num 2 x.thresholds.highDrift, .num 2 x.thresholds.openMin, .num 1 (if lane.locked = true then 0 else 1),
        .num 1 lane.run, .num 1 lane.malformed.toNat] : List Field) := by
  have told : fault = lastFaultFields r.lastFault := by
    cases last : r.lastFault with
    | none => exact sound last
    | some f => exact (faulty f last).trans (lastFaultFields_some f).symm
  have locked : ∀ b : Bool, ((if b = true then 0 else 1 : Nat) : Int) = if b = true then 0 else 1 := by decide
  subst hx hr hl told
  simp only [State.healthFields, fieldOpt_map, ReturnLane.fields, Thresholds.fields, List.append_assoc, List.cons_append,
    List.nil_append, fieldNat, locked]
  rfl

theorem State.powerFields_eq (s : State) (b : Budget) (granted : Nat) (hb : b = s.budget)
    (hg : granted = ((List.finRange 12).map fun n => (s.grants.get n).draw).sum) :
    s.powerFields =
      ([.num 1 b.supply1.toNat, .num 1 b.supply2.toNat, .num 1 b.supply.code, .num 2 b.mains, .num 2 b.generator,
        .num 2 b.battery, .num 2 b.batteryLow, .num 2 b.reserve, .num 2 b.available, .num 2 granted,
        .num 2 (b.available - granted : Nat)] : List Field) ++ ((List.finRange 12).map s.grantFields).flatten := by
  have sum : s.grantSum = granted := by
    rw [hg, State.grantSum, Tab.items_eq, List.map_map]
    rfl
  rw [State.powerFields, sum, hb]
  rfl

theorem State.grantFields_eq (s : State) (n : Fin 12) (g : Grant) (c : Screen) (change : List Field) (hg : g = s.grants.get n)
    (hc : c = s.screens.get n)
    (still : g.lastChange = none → change = [.num 1 0, .num 1 0, .num 1 0, .num 2 0])
    (moved : ∀ x, g.lastChange = some x →
      change = [.num 1 1, .num 1 x.status.code, .num 1 x.supply.code, .num 2 x.available]) :
    s.grantFields n =
      ([.num 1 g.status.code, .num 2 g.draw, .num 1 c.config.priority, .num 2 c.config.fullDraw,
        .num 2 c.config.reducedDraw, .num 4 c.stamp, .opt 1 ((s.place n).map Int.ofNat), .num 1 g.sheds.toNat,
        .num 1 g.suspends.toNat] : List Field) ++ change := by
  have told : lastChangeFields g.lastChange = change := by
    cases last : g.lastChange with
    | none => exact (still last).symm
    | some x => exact (moved x last).symm
  rw [← told, hg, hc]
  rfl

/-- A screen has a place in the rank exactly when it demands. -/
theorem State.place_eq_none (s : State) (n : Fin 12) : s.place n = none ↔ (s.screens.get n).demand n = none := by
  have ranked : n ∈ s.ranked.map Demand.screen ↔ (s.screens.get n).state.demands = true := by
    rw [(ranked_screens s).mem_iff, List.mem_filter]
    exact ⟨fun h => h.2, fun h => ⟨List.mem_finRange n, h⟩⟩
  have demand : (s.screens.get n).demand n = none ↔ ¬(s.screens.get n).state.demands = true := by
    unfold Screen.demand
    split
    · next h => exact ⟨fun e => (by cases e), fun e => absurd h e⟩
    · next h => exact ⟨fun _ => h, fun _ => rfl⟩
  rw [demand, ← ranked, State.place, Option.map_eq_none_iff, List.findIdx?_eq_none_iff, List.mem_map]
  constructor
  · rintro absent ⟨d, hd, rfl⟩
    exact of_decide_eq_false (absent d hd) rfl
  · exact fun absent d hd => decide_eq_false fun e => absent ⟨d, hd, e⟩

theorem State.place_eq_some {s : State} {n : Fin 12} {k : Nat} (h : s.place n = some (k + 1)) :
    ∃ d, s.ranked[k]? = some d ∧ d.screen = n := by
  obtain ⟨i, hi, e⟩ := Option.map_eq_some_iff.1 h
  obtain rfl : i = k := Nat.succ.inj e
  obtain ⟨below, found, -⟩ := List.findIdx?_eq_some_iff_getElem.1 hi
  exact ⟨s.ranked[i], List.getElem?_eq_getElem below, of_decide_eq_true found⟩

theorem State.place_ne_zero (s : State) (n : Fin 12) : s.place n ≠ some 0 := fun h => by
  obtain ⟨i, -, e⟩ := Option.map_eq_some_iff.1 h
  cases e

theorem fieldOpt_ite (k : Nat) (p : Prop) [Decidable p] (v : Nat) :
    fieldOpt k (if p then some v else none) = .opt k (if p then some (v : Int) else none) := by
  split <;> rfl

theorem State.cueQueryFields_eq (s : State) (start : Nat) (n : Fin 12) (c : CueScreen) (all page : List (Fin 512))
    (hc : c = s.cues.get n) (ha : all = c.timeList ++ c.eventList) (hp : page = (all.drop (start - 1)).take 6) :
    s.cueQueryFields start n =
      (Field.num 1 page.length :: (page.map s.cueFields).flatten) ++
      ([.opt 2 (if max start 1 + 6 ≤ all.length then some (max start 1 + 6 : Nat) else none), .num 2 c.timeList.length,
        .num 2 c.eventList.length, .num 2 ((List.finRange 512).filter fun e => (s.pool.get e).isNone).length,
        .opt 3 (c.clock.map Int.ofNat), .num 1 c.lastCall, .num 2 c.lastFired] : List Field) := by
  subst hc ha hp
  unfold State.cueQueryFields fieldList
  dsimp only
  rw [List.length_map, CueScreen.nextPosition, CueScreen.page, CueScreen.entries]
  rw [fieldOpt_ite]
  rfl

theorem State.cueFields_eq (s : State) (e : Fin 512) (c : Cue) (h : s.pool.get e = some c) :
    s.cueFields e = (Field.num 2 (e.val + 1 : Nat) :: c.trigger.fields) ++ c.action.fields ++
      (Field.num 1 c.chase.toNat :: .num 1 c.label.length :: c.label.map fun b => .num 1 b.toNat) ++
      ([.cond 1 (c.state.map fun y => Int.ofNat y.code)] : List Field) := by
  unfold State.cueFields
  rw [h]
  dsimp only
  rw [fieldCond_map, labelFields_eq]
  rfl

/-! ### The fields of calibration and alarms -/

theorem targetFields_none : targetFields none = [.num 1 0, .opt 1 none] := rfl

theorem targetFields_some (g : Target) : targetFields (some g) = [.num 1 1, g.field] := rfl

theorem State.calibrationFields_eq (s : State) (c : Context) (n : Option (Fin 12)) (target screen : List Field)
    (hc : c = s.context) (away : c.target = none → target = [.num 1 0, .opt 1 none])
    (aimed : ∀ g, c.target = some g → target = [.num 1 1, g.field]) (whole : n = none → screen = [.num 1 0])
    (one : ∀ k, n = some k → screen = .num 1 1 :: .num 1 (s.outputsOf k).length ::
      ((s.outputsOf k).map fun o =>
        [Field.num 1 (s.outputs.get o).toneFlag.toNat, .opt 1 (s.outputs.get o).sensitivity]).flatten) :
    s.calibrationFields n =
      ([.num 1 c.phase.code, .opt 1 (c.screen.map fun x => Int.ofNat (x.val + 1))] : List Field) ++ target ++
      ([.opt 1 (c.station.map fun h => Int.ofNat h.val), .num 1 c.count, .num 6 c.micSum, .num 7 c.targetSum,
        .opt 1 (c.background.map Int.ofNat), .num 1 s.toneGain, .num 1 s.micOffset,
        .num 1 (s.lanes.get 13).sync.code] : List Field) ++ screen := by
  have aim : target = targetFields c.target := by
    cases g : c.target with
    | none => exact away g
    | some t => exact aimed t g
  have carried : screen = condFields (n.map s.sensitivityFields) := by
    cases n with
    | none => exact whole rfl
    | some k =>
      refine (one k rfl).trans ?_
      rw [Option.map_some, condFields, State.sensitivityFields, fieldList, List.length_map]
      rfl
  subst hc aim carried
  simp only [State.calibrationFields, Context.fields, stationField, fieldOpt_map, List.append_assoc, List.cons_append,
    List.nil_append]
  rfl

/-- A flag of the indication set stands at the position of its kind. -/
theorem getLsbD_indications (p : AlarmKind → Bool) (l : List AlarmKind) (b : BitVec 16) {i : Nat} (hi : i < 16) :
    (l.foldl (fun b k => if p k then b ||| (1#16 <<< k.ix.val) else b) b).getLsbD i =
      (b.getLsbD i || l.any fun k => p k && decide (k.ix.val = i)) := by
  induction l generalizing b with
  | nil => rw [List.foldl_nil, List.any_nil, Bool.or_false]
  | cons k rest ih =>
    rw [List.foldl_cons, ih, List.any_cons, ← Bool.or_assoc]
    congr 1
    cases p k with
    | false => rw [if_neg Bool.false_ne_true, Bool.false_and, Bool.or_false]
    | true =>
      rw [if_pos rfl, BitVec.getLsbD_or, Bool.true_and]
      congr 1
      rw [BitVec.getLsbD_shiftLeft, BitVec.getLsbD_one]
      have below := k.ix.isLt
      rw [Bool.eq_iff_iff]
      simp only [Bool.and_eq_true, Bool.not_eq_true', decide_eq_true_eq, decide_eq_false_iff_not]
      omega

/-- The flags of an indication set are those of its kinds. -/
theorem indicationFlags_eq (t : Tab Bool 7) (flags : BitVec 16)
    (h : ∀ i : Fin 16, flags.getLsbD i.val = if h : i.val < 7 then t.get ⟨i.val, h⟩ else false) :
    indicationFlags t = flags := by
  have kinds : ∀ j : Fin 7, ∃ k ∈ AlarmKind.all, k.ix = j := by decide
  refine BitVec.eq_of_getLsbD_eq fun i hi => ?_
  rw [indicationFlags, getLsbD_indications (fun k => t.get k.ix) _ _ hi, h ⟨i, hi⟩, BitVec.getLsbD_zero, Bool.false_or,
    Bool.eq_iff_iff, List.any_eq_true]
  simp only [Bool.and_eq_true, decide_eq_true_eq]
  constructor
  · rintro ⟨k, -, set, rfl⟩
    rw [dif_pos k.ix.isLt]
    exact set
  · intro set
    split at set
    · next below =>
      obtain ⟨k, hk, e⟩ := kinds ⟨i, below⟩
      exact ⟨k, hk, e ▸ set, congrArg Fin.val e⟩
    · cases set

theorem State.alarmFields_eq (s : State) (port : Fin 4) (n : Fin 12) (a : Alarms) (c : AlarmSettings) (flags : BitVec 16)
    (ha : a = s.alarms.get n) (hc : c = a.settings)
    (hf : ∀ i : Fin 16, flags.getLsbD i.val =
      if h : i.val < 7 then ((s.ports.get port).indications.get n).get ⟨i.val, h⟩ else false) :
    s.alarmFields port n =
      (AlarmKind.all.map fun k => (a.records.get k.ix).fields k).flatten ++
      ([.num 1 a.silenceRun, .num 1 a.loudTrim, .num 1 a.attention.toNat, .num 1 c.peakLimit, .num 1 c.loudLimit,
        .num 1 c.silenceFloor, .num 1 c.silenceRun, .num 2 c.clipLimit, .num 1 c.raiseHold, .num 1 c.clearHold,
        .num 1 c.autoTrim.toNat, .num 1 c.trimMax, .flags flags] : List Field) := by
  rw [State.alarmFields, indicationFlags_eq _ flags hf, hc, ha]
  simp only [AlarmSettings.fields, List.append_assoc, List.cons_append, List.nil_append]
  rfl

theorem AlarmRecord.fields_eq (k : AlarmKind) (r : AlarmRecord) : r.fields k =
    ([.num 1 r.state.code, .num 1 r.phase, .num 1 r.raises.toNat, .opt 3 (r.lastShow.map Int.ofNat),
      .num 1 r.detail.isSome.toNat] : List Field) ++
    (match r.detail, k with
      | some d, _ => d.fields
      | none, .clip => [.num 2 0]
      | none, .lane => [.num 1 0, .num 2 0, .opt 1 none]
      | none, .speaker => [.num 1 0, .num 1 0]
      | none, _ => [.num 1 0]) := by
  unfold AlarmRecord.fields
  cases r.detail with
  | some d => rfl
  | none => cases k <;> rfl

/-- ALARM QUERY empties the indication set that it answers. -/
theorem exec_alarmQuery {h : Header} {screen : Nat} {n : Fin 12} {s : State} (hn : ident 12 screen = some n)
    (hr : s.ready (.alarmQuery h screen) h 29) :
    exec (.alarmQuery h screen) s =
      .next (((s.taking (.alarmQuery h screen) h).modPort h.port fun p =>
          { p with indications := p.indications.set n (.fill 7 false) }).answering h
        (doneAnswer h 29 false (s.alarmFields h.port n))) := by
  have same : (s.taking (.alarmQuery h screen) h).alarmFields h.port n = s.alarmFields h.port n := by
    obtain ⟨q, held⟩ := Port.hold_frame (.alarmQuery h screen) (s.ports.get h.port)
    simp only [State.alarmFields, taking_port, held]
    rfl
  refine takeRequest_accept hr ((onScreen_valid hn _ _).trans ?_)
  rw [actAlarmQuery, same]
  rfl

theorem actCalibrationQuery_screen {screen : Nat} (s : State) :
    actCalibrationQuery (some screen) s =
      onScreen screen (fun n s => .accept s false (s.calibrationFields (some n))) s := by
  unfold onScreen actCalibrationQuery
  rfl

end Sys2Proof.Machine

open Sys2Proof Sys2Proof.Machine

/-- Settles O10: each query is accepted on an identifier in range, with the fields of its rule. -/
theorem unitQueriesAnswered : Obligations.UnitQueriesAnswered := by
  unfold Obligations.UnitQueriesAnswered
  refine ⟨?_, ?_, ?_, ?_, ?_, ?_, fun h screen n s => exec_alarmQuery, ?_, ?_, State.healthFields_eq, State.powerFields_eq,
    State.grantFields_eq, fun s n => ⟨State.place_eq_none s n, fun k => State.place_eq_some⟩, State.place_ne_zero,
    State.cueQueryFields_eq, State.cueFields_eq, fun _ => rfl, State.calibrationFields_eq, fun _ _ => rfl,
    State.alarmFields_eq, AlarmRecord.fields_eq⟩
  · exact fun h output o s ho hr => takeRequest_accept hr ((onOutput_valid ho _ _).trans rfl)
  · exact fun h s hr => takeRequest_accept hr rfl
  · exact fun h screen start n s hn hr => takeRequest_accept hr ((onScreen_valid hn _ _).trans rfl)
  · exact fun h screen n s hn hr => takeRequest_accept hr ((onScreen_valid hn _ _).trans rfl)
  · exact fun h s hr => takeRequest_accept hr rfl
  · exact fun h screen n s hn hr =>
      takeRequest_accept hr ((actCalibrationQuery_screen _).trans ((onScreen_valid hn _ _).trans rfl))
  · exact fun h output s out hr => takeRequest_refuse hr (onOutput_invalid (ident_eq_none.2 out) _ _)
  · intro h screen s out
    have none_ := ident_eq_none.2 out
    exact ⟨fun start hr => takeRequest_refuse hr (onScreen_invalid none_ _ _),
      fun hr => takeRequest_refuse hr (onScreen_invalid none_ _ _),
      fun hr => takeRequest_refuse hr ((actCalibrationQuery_screen _).trans (onScreen_invalid none_ _ _)),
      fun hr => takeRequest_refuse hr (onScreen_invalid none_ _ _)⟩
end

section
/-! PROOF. The elastic store, the lane and layout settings, the house clock, and the close of a block (02 R36, R38, R41,
R45, 03 R54, 05 R91). -/

namespace Sys2Proof.Machine

/-! ### The elastic store -/

theorem Lane.write_room {x : Lane} (h : x.store.length < 4) (a : Audio) :
    x.write a = { x with store := x.store ++ [a] } := if_neg (Nat.not_le.2 h)

theorem Lane.write_full {x : Lane} (h : 4 ≤ x.store.length) (a : Audio) :
    x.write a = { x with
      store := x.store.drop 1 ++ [a], slips := x.slips + 1, intervalSlips := min 4095 (x.intervalSlips + 1),
      lastSlip := some .overrun } := if_pos h

theorem Lane.read_cons {x : Lane} {b : Audio} {rest : List Audio} (h : x.delivering = true) (hs : x.store = b :: rest) :
    x.read = (b, { x with store := rest }) := by
  simp only [Lane.read, h, hs, if_true]

theorem Lane.read_nil {x : Lane} (h : x.delivering = true) (hs : x.store = []) :
    x.read = (silentAudio, x.slip .underrun) := by
  simp only [Lane.read, h, hs, if_true]

theorem Lane.read_idle {x : Lane} (h : x.delivering = false) : x.read = (silentAudio, x) :=
  if_neg (Bool.eq_false_iff.1 h)

/-! ### The layouts -/

theorem Role.ofCode_eq_some {k : Nat} {r : Role} : Role.ofCode k = some r ↔ k = r.ix.val + 1 := by
  constructor
  · intro h
    unfold Role.ofCode at h
    split at h
    · cases h
    · next positive =>
      obtain ⟨below, found⟩ := List.getElem?_eq_some_iff.1 h
      have place : ∀ i (hi : i < 12), (Role.all[i]'hi).ix.val = i := by decide
      have := found ▸ place (k - 1) below
      omega
  · rintro rfl
    cases r <;> rfl

theorem Role.ofCode_isSome {k : Nat} : (Role.ofCode k).isSome = true ↔ 1 ≤ k ∧ k ≤ 12 := by
  unfold Role.ofCode
  split
  · next h => exact ⟨fun e => (by cases e), fun e => absurd h (Nat.ne_of_gt e.1)⟩
  · next h =>
    rw [isSome_getElem?]
    exact ⟨fun below => ⟨Nat.pos_of_ne_zero h, by have : k - 1 < 12 := below; omega⟩,
      fun e => show k - 1 < 12 by omega⟩

/-- A layout takes for each role the last source that carries it, clamped, and NONE for a role not carried. -/
theorem buildLayout_get (sources : List RoleSource) (carried : ∀ r ∈ sources, (Role.ofCode r.role).isSome = true)
    (i : Fin 12) :
    (buildLayout sources).get i =
      (((sources.filter fun r => decide (r.role = i.val + 1)).getLast?.map fun r =>
        (clampSource r.source).value).getD .none) := by
  induction sources using List.reverseRecOn with
  | nil => exact Tab.get_fill _ i
  | append_singleton front r ih =>
    have before := ih fun x hx => carried x (List.mem_append_left _ hx)
    obtain ⟨role, named⟩ := Option.isSome_iff_exists.1 (carried r (List.mem_append_right _ (List.mem_singleton_self r)))
    have code := Role.ofCode_eq_some.1 named
    have placed : buildLayout (front ++ [r]) = (buildLayout front).set role.ix (clampSource r.source).value := by
      unfold buildLayout
      rw [List.foldl_append, List.foldl_cons, List.foldl_nil, placeSource, named]
    rw [placed, Tab.get_set, List.filter_append]
    by_cases same : role.ix = i
    · have here : r.role = i.val + 1 := same ▸ code
      rw [if_pos same, List.filter_cons_of_pos (by exact decide_eq_true here), List.filter_nil, List.getLast?_concat]
      rfl
    · have away : ¬r.role = i.val + 1 := fun e => same (Fin.ext (by omega))
      rw [if_neg same, List.filter_cons_of_neg (by exact fun e => away (of_decide_eq_true e)), List.filter_nil, List.append_nil]
      exact before

theorem actLayoutSet_valid {sources : List RoleSource}
    (h : ∀ r ∈ sources, 1 ≤ r.role ∧ r.role ≤ 12 ∧ sourceValid r.source = true) (c : Fin 16) (s : State) :
    actLayoutSet sources c s =
      .accept { s with layouts := s.layouts.set c (some (buildLayout sources)) }
        (sources.any fun r => (clampSource r.source).clamped) [] := by
  refine if_pos (List.all_eq_true.2 fun r hr => ?_)
  obtain ⟨lo, hi, valid⟩ := h r hr
  rw [Role.ofCode_isSome.2 ⟨lo, hi⟩, valid]
  rfl

theorem actLayoutSet_invalid {sources : List RoleSource}
    (h : ∃ r ∈ sources, r.role = 0 ∨ 12 < r.role ∨ sourceValid r.source = false) (c : Fin 16) (s : State) :
    actLayoutSet sources c s = .refuse .range := by
  obtain ⟨r, hr, bad⟩ := h
  refine if_neg fun all => ?_
  obtain ⟨role, valid⟩ := Bool.and_eq_true_iff.1 (List.all_eq_true.1 all r hr)
  obtain ⟨lo, hi⟩ := Role.ofCode_isSome.1 role
  rcases bad with bad | bad | bad
  · omega
  · omega
  · cases valid.symm.trans bad

theorem clampSource_one (slot : Nat) (step : Int) : clampSource (.one slot step) =
    { value := .one slot (max (-24) (min step 0)), clamped := decide (step < -24 ∨ 0 < step) } := by
  simp only [clampSource, settingInt_value (show (-24 : Int) ≤ 0 by decide), settingInt_clamped (show (-24 : Int) ≤ 0 by decide)]

theorem clampSource_two (i : Nat) (gi : Int) (j : Nat) (gj : Int) : clampSource (.two i gi j gj) =
    { value := .two i (max (-24) (min gi 0)) j (max (-24) (min gj 0))
      clamped := decide (gi < -24 ∨ 0 < gi ∨ gj < -24 ∨ 0 < gj) } := by
  simp only [clampSource, settingInt_value (show (-24 : Int) ≤ 0 by decide), settingInt_clamped (show (-24 : Int) ≤ 0 by decide),
    ← Bool.decide_or, or_assoc]

theorem slotValid_eq (i : Nat) : slotValid i = decide (1 ≤ i ∧ i ≤ 16) := (Bool.decide_and _ _).symm

theorem sourceValid_two (i : Nat) (gi : Int) (j : Nat) (gj : Int) :
    sourceValid (.two i gi j gj) = decide ((1 ≤ i ∧ i ≤ 16) ∧ 1 ≤ j ∧ j ≤ 16) := by
  rw [sourceValid, slotValid_eq, slotValid_eq, ← Bool.decide_and]

/-! ### After the sound of a house block -/

/-- What the supply lines and the completed fades of a house block may change (08 R140, 01 R19). -/
def AfterSoundFrame (s t : State) : Prop :=
  ∃ b c m o a l g p q w x r, t = { s with
    budget := b, screens := c, meters := m, outputs := o, attenuations := a, alarms := l, grants := g, pool := p, cues := q,
    booth := w, context := x, ports := r }

theorem AfterSoundFrame.refl (s : State) : AfterSoundFrame s s :=
  ⟨s.budget, s.screens, s.meters, s.outputs, s.attenuations, s.alarms, s.grants, s.pool, s.cues, s.booth, s.context, s.ports, rfl⟩

theorem AfterSoundFrame.trans {s t u : State} (h : AfterSoundFrame s t) (h' : AfterSoundFrame t u) :
    AfterSoundFrame s u := by
  obtain ⟨_, _, _, _, _, _, _, _, _, _, _, _, rfl⟩ := h
  obtain ⟨_, _, _, _, _, _, _, _, _, _, _, _, rfl⟩ := h'
  exact ⟨_, _, _, _, _, _, _, _, _, _, _, _, rfl⟩

theorem recompute_afterSoundFrame (c : PowerCause) (s : State) : AfterSoundFrame s (recompute c s) := by
  obtain ⟨g, o, x, p, h⟩ := recompute_frame c s
  exact ⟨s.budget, s.screens, s.meters, o, s.attenuations, s.alarms, g, s.pool, s.cues, s.booth, x, p, h⟩

theorem fireState_afterSoundFrame (n : Fin 12) (e : CueEvent) (s : State) : AfterSoundFrame s (fireState n e s) := by
  obtain ⟨b, c, p, q, r, h⟩ := fireState_frame n e s
  exact ⟨s.budget, c, s.meters, s.outputs, s.attenuations, s.alarms, s.grants, p, q, b, s.context, r, h⟩

theorem finishFade_afterSoundFrame (n : Fin 12) (s : State) : AfterSoundFrame s (finishFade n s) := by
  unfold finishFade
  split
  · refine .trans ?_ ⟨_, _, _, _, _, _, _, _, _, _, _, _, rfl⟩
    refine .trans ?_ (fireState_afterSoundFrame n .endDone _)
    refine .trans ?_ ⟨_, _, _, _, _, _, _, _, _, _, _, _, rfl⟩
    refine .trans ?_ (recompute_afterSoundFrame .demand _)
    exact ⟨_, _, _, _, _, _, _, _, _, _, _, _, rfl⟩
  · exact .refl s

theorem readSupply_afterSoundFrame (a b : Bool) (s : State) : AfterSoundFrame s (readSupply a b s) := by
  unfold readSupply
  dsimp only
  split
  · exact ⟨_, _, _, _, _, _, _, _, _, _, _, _, rfl⟩
  · refine .trans ?_ ⟨_, _, _, _, _, _, _, _, _, _, _, _, rfl⟩
    refine .trans ?_ (recompute_afterSoundFrame .supply _)
    exact ⟨_, _, _, _, _, _, _, _, _, _, _, _, rfl⟩

theorem fadesAndSupply_afterSoundFrame (inp : BlockInputs) (s : State) :
    AfterSoundFrame s (overScreens finishFade (readSupply inp.supply1 inp.supply2 s)) :=
  overScreens_induct (P := AfterSoundFrame s) (readSupply_afterSoundFrame inp.supply1 inp.supply2 s)
    fun n t h => h.trans (finishFade_afterSoundFrame n t)

/-- A house block knows the length of the block that it begins. -/
theorem houseBlock_blockPeriods (inp : BlockInputs) (s : State) : (houseBlock inp s).blockPeriods = max 48 inp.periods := by
  obtain ⟨_, _, _, _, _, _, _, _, _, _, _, _, after⟩ := fadesAndSupply_afterSoundFrame inp (afterSound inp s)
  obtain ⟨_, _, _, _, _, _, _, _, sound⟩ :=
    runSound_frame inp.periods (flagsRead inp s) (atHouseBlock inp s) (beforeSound inp s)
  unfold houseBlock
  rw [after]
  exact congrArg State.blockPeriods sound

/-! ### The house clock -/

theorem State.referenceDue_iff (s : State) : s.referenceDue = true ↔ s.clock = .locked ∧ s.blockPeriods = 56 := by
  unfold State.referenceDue lostPeriods
  rw [Bool.and_eq_true_iff, decide_eq_true_iff, decide_eq_true_iff]

theorem exec_referenceLost_due {s : State} (h : s.clock = .locked ∧ s.blockPeriods = 56) (inp : BlockInputs) :
    exec (.referenceLost inp) s = .next (changeClock .free .locked (houseBlock inp s)) :=
  congrArg Host.Outcome.next (if_pos (s.referenceDue_iff.2 h))

theorem exec_referenceLost_idle {s : State} (h : ¬(s.clock = .locked ∧ s.blockPeriods = 56)) (inp : BlockInputs) :
    exec (.referenceLost inp) s = .next s :=
  congrArg Host.Outcome.next (if_neg fun due => h (s.referenceDue_iff.1 due))

theorem exec_referenceRegained_free {s : State} (h : s.clock = .free) :
    exec .referenceRegained s = .next (changeClock .locked .free s) := by
  refine congrArg Host.Outcome.next ?_
  rw [h]

theorem exec_referenceRegained_locked {s : State} (h : s.clock = .locked) : exec .referenceRegained s = .next s := by
  refine congrArg Host.Outcome.next ?_
  rw [h]

/-! ### The close of a block -/

/-- The energies of a block that closes, before they are added to the sums. -/
def State.energiesClosed (s : State) : State :=
  { s with outputs := s.outputs.map Output.closeEnergy, micEnergy := s.micRunning, micRunning := 0 }

def State.metersClosed (s : State) : State :=
  { s.energiesClosed with meters := s.meters.update fun n m => m.closeBlock (s.energiesClosed.blockSum n) }

theorem closeBlock_eq (s : State) : closeBlock s = addMeasured s.metersClosed := rfl

theorem State.blockSum_eq (s : State) (n : Fin 12) :
    s.blockSum n = (((List.finRange 192).filter fun o => decide ((s.outputs.get o).blockScreen = some n)).map fun o =>
      (s.outputs.get o).energy).sum := by
  rw [State.blockSum, Tab.items_eq, List.filter_map, List.map_map]
  rfl

theorem State.energiesClosed_blockSum (s : State) (n : Fin 12) : s.energiesClosed.blockSum n =
    (((List.finRange 192).filter fun o => decide ((s.outputs.get o).blockScreen = some n)).map fun o =>
      (s.outputs.get o).running).sum := by
  rw [State.blockSum_eq]
  simp only [State.energiesClosed, Tab.get_map]
  rfl

/-- Which outputs a target names is read of their places alone. -/
theorem State.targetOutputs_of_place {s t : State} (h : ∀ o, (t.outputs.get o).place = (s.outputs.get o).place)
    (n : Fin 12) (g : Target) : t.targetOutputs n g = s.targetOutputs n g := by
  cases g with
  | output o => rfl
  | reference =>
    simp only [State.targetOutputs, State.referenceGroup, State.outputsOf, Output.screen, Output.role, h]
    rfl

theorem addMeasured_quiet {s : State} (h : s.context.phase = .quiet) :
    addMeasured s = { s with context := { s.context with micSum := s.context.micSum + s.micEnergy } } := by
  simp only [addMeasured, h]

theorem addMeasured_measure {s : State} {n : Fin 12} {g : Target} (h : s.context.phase = .measure)
    (hn : s.context.screen = some n) (hg : s.context.target = some g) :
    addMeasured s = { s with context := { s.context with
      micSum := s.context.micSum + s.micEnergy
      targetSum := s.context.targetSum + ((s.targetOutputs n g).map fun o => (s.outputs.get o).energy).sum } } := by
  simp only [addMeasured, h, hn, hg]

theorem addMeasured_idle {s : State} (h : s.context.phase ≠ .quiet) (h' : s.context.phase ≠ .measure) :
    addMeasured s = s := by
  unfold addMeasured
  dsimp only
  split
  · next q => exact absurd q h
  · next q _ _ => exact absurd q h'
  · rfl

end Sys2Proof.Machine

open Sys2Proof Sys2Proof.Machine

/-- Settles O24: the store's writes and reads, by its room and by the lane's delivery. -/
theorem elasticStore : Obligations.ElasticStore := by
  unfold Obligations.ElasticStore
  exact fun x a => ⟨fun h => x.write_room h a, fun h => x.write_full h a, fun b rest => x.read_cons, x.read_nil, x.read_idle,
    rfl⟩

/-- Settles O25: LANE SET, and LAYOUT SET with its sources from the last back. -/
theorem laneSetAndLayoutSet : Obligations.LaneSetAndLayoutSet := by
  unfold Obligations.LaneSetAndLayoutSet
  refine ⟨fun h lane mask s hr => ⟨fun l hl => ?_, fun out => ?_⟩, fun h code sources s hr => ⟨fun out => ?_, ?_, ?_⟩,
    ⟨rfl, rfl⟩, fun i g => ⟨slotValid_eq i, clampSource_one i g⟩,
    fun i gi j gj => ⟨sourceValid_two i gi j gj, clampSource_two i gi j gj⟩⟩
  · exact takeRequest_accept hr ((onLane_valid hl _ _).trans rfl)
  · exact takeRequest_refuse hr (onLane_invalid out _ _)
  · exact takeRequest_refuse hr (onLayout_invalid out _ _)
  · intro bad
    refine takeRequest_refuse hr ?_
    cases known : ident0 16 code with
    | none => simp only [onLayout, known]
    | some c => exact (onLayout_valid known _ _).trans (actLayoutSet_invalid bad c _)
  · intro c known valid
    refine ⟨buildLayout sources, takeRequest_accept hr ((onLayout_valid known _ _).trans (actLayoutSet_valid valid c _)),
      buildLayout_get sources fun r hr => ?_⟩
    obtain ⟨lo, hi, -⟩ := valid r hr
    exact Role.ofCode_isSome.2 ⟨lo, hi⟩

/-- Settles O27: each change of the house clock, and the states in which there is none. -/
theorem houseClockChanges : Obligations.HouseClockChanges := by
  unfold Obligations.HouseClockChanges
  refine fun inp s => ⟨fun locked length => ⟨_, rfl, exec_referenceLost_due ⟨locked, length⟩ inp⟩,
    fun other => exec_referenceLost_idle (fun h => other h.2) inp,
    fun enough => ⟨_, rfl, (houseBlock_blockPeriods inp s).trans (max_eq_right enough)⟩,
    fun free => exec_referenceLost_idle (fun h => ?_) inp, exec_referenceRegained_free, exec_referenceRegained_locked⟩
  cases free.symm.trans h.1

/-- Settles O30: the energies, the sums of the screens, and the sums of a measurement. -/
theorem blockCloses : Obligations.BlockCloses := by
  unfold Obligations.BlockCloses
  intro s
  obtain ⟨x, frame⟩ := addMeasured_frame s.metersClosed
  have closed : closeBlock s = { s.metersClosed with context := x } := (closeBlock_eq s).trans frame
  have places : ∀ o, (s.metersClosed.outputs.get o).place = (s.outputs.get o).place := fun o => by
    simp only [State.metersClosed, State.energiesClosed, Tab.get_map]
    rfl
  refine ⟨_, rfl, ?_, fun o => ?_, fun n => ?_, fun quiet => ?_, fun n g measure hn hg => ?_, fun h h' => ?_⟩
  · rw [closed]
    rfl
  · rw [closed]
    exact Tab.get_map _ _ o
  · rw [closed]
    have meter : (s.metersClosed.meters.get n) = (s.meters.get n).closeBlock (s.energiesClosed.blockSum n) :=
      Tab.get_update _ _ n
    have sum : (s.metersClosed.meters.get n).blockSum = s.energiesClosed.blockSum n := congrArg Meter.blockSum meter
    exact ⟨sum.trans (s.energiesClosed_blockSum n), by rw [sum, meter, Meter.closeBlock]⟩
  · exact congrArg State.context (addMeasured_quiet (s := s.metersClosed) quiet)
  · refine (congrArg State.context (addMeasured_measure (s := s.metersClosed) measure hn hg)).trans ?_
    rw [State.targetOutputs_of_place places]
    simp only [State.metersClosed, State.energiesClosed, Tab.get_map]
    rfl
  · have idle : closeBlock s = s.metersClosed := addMeasured_idle h h'
    rw [idle]
    rfl
end

section
/-! PROOF. The power-on values, ENABLE and DISABLE, HOLD and CALIBRATE (11 R189, 01 R5 to R8). -/

namespace Sys2Proof.Machine

/-! ### The power-on values -/

theorem powerOn_layout_zero : layoutsReset.get 0 = some layoutZero := (Tab.get_set _ _ _ _).trans (if_pos rfl)

theorem powerOn_layout_other {c : Fin 16} (h : c ≠ 0) : layoutsReset.get c = none :=
  (Tab.get_set _ _ _ _).trans ((if_neg h.symm).trans (Tab.get_fill _ c))

/-! ### DISABLE -/

/-- The mark of a line whose pulse has been counted goes with the command OFF (log 2). -/
theorem disabled_counted (n : Fin 12) (l : Fin 8) (station : Fin 16) (s : State) :
    ((disabled n station s).line n l).counted = false := by
  simp only [disabled, clearScreen, linesOff, State.line, State.notifyShow, notify_booth, Tab.get_modify, if_true,
    Tab.get_map]
  rfl

/-! ### HOLD -/

theorem State.otherServer_eq_true {s : State} {n : Fin 12} {station : Fin 16} : s.otherServer n station = true ↔
    (s.lanes.get (programLane n)).delivering = true ∧
      ∃ w, (s.lanes.get (programLane n)).accepted = some w ∧ w.server ≠ station.val := by
  unfold State.otherServer State.word
  rw [Bool.and_eq_true_iff]
  cases (s.lanes.get (programLane n)).accepted with
  | none => exact ⟨fun h => (by cases h.2), fun ⟨_, w, e, _⟩ => (by cases e)⟩
  | some w =>
    exact ⟨fun ⟨d, h⟩ => ⟨d, w, rfl, of_decide_eq_true h⟩, fun ⟨d, _, e, h⟩ => ⟨d, Option.some.inj e ▸ decide_eq_true h⟩⟩

section
variable {h : Header} {n : Fin 12} {s : State}

theorem actHold_held (held : (s.screens.get n).holder ≠ none) : actHold h n s = .refuse .held :=
  if_pos (Option.isSome_iff_ne_none.2 held)

theorem actHold_free (free : (s.screens.get n).holder = none) : actHold h n s =
    if (s.screens.get n).state ≠ .dark then .refuse .state
    else if roleOf h.station = .booth ∧ s.otherServer n h.station = true then .refuse .lane
    else .ok (heldBy n h.station s) := by
  refine if_neg ?_
  rw [free]
  exact Bool.false_ne_true

/-! ### CALIBRATE -/

theorem actCalibrate_held (held : (s.screens.get n).holder ≠ none) : actCalibrate h n s = .refuse .held :=
  if_pos (Option.isSome_iff_ne_none.2 held)

theorem actCalibrate_free (free : (s.screens.get n).holder = none) : actCalibrate h n s =
    if (s.screens.get n).state ≠ .dark then .refuse .state
    else if s.evac then .refuse .evac
    else
      match enterDemand n .calibrating (some h.station) s with
      | none => .refuse .nopower
      | some t => .ok ((withdrawAlarms n (clearBase n t)).notifyShow n .dark .request (some h.station)) := by
  refine (if_neg ?_).trans rfl
  rw [free]
  exact Bool.false_ne_true

theorem actCalibrate_dark (free : (s.screens.get n).holder = none) (dark : (s.screens.get n).state = .dark)
    (calm : s.evac = false) : actCalibrate h n s =
      match enterDemand n .calibrating (some h.station) s with
      | none => .refuse .nopower
      | some t => .ok ((withdrawAlarms n (clearBase n t)).notifyShow n .dark .request (some h.station)) := by
  rw [actCalibrate_free free, if_neg (not_not_intro dark), if_neg (Bool.eq_false_iff.1 calm)]

end

end Sys2Proof.Machine

open Sys2Proof Sys2Proof.Machine

/-- Settles O7: every field of the state after the power-on reset. -/
theorem powerOnResetValues : Obligations.PowerOnResetValues := by
  unfold Obligations.PowerOnResetValues
  refine fun lines s => ⟨_, rfl, fun n => Tab.get_fill _ n, rfl, rfl, rfl, rfl, rfl, rfl, fun l => ?_, fun o => ?_,
    powerOn_layout_zero, fun c => powerOn_layout_other, fun n => ?_, fun n => ?_, rfl, rfl, fun n => Tab.get_fill _ n, rfl,
    rfl, fun n => ?_, fun p n k => ?_, fun l => Tab.get_fill _ l, rfl, fun n => Tab.get_fill _ n, fun e => Tab.get_fill _ e,
    fun n => Tab.get_fill _ n, fun n l => ?_, rfl, rfl, rfl, rfl, rfl, fun p => ?_⟩
  · have lane : (State.powerOn lines).lanes.get l = Lane.reset := Tab.get_fill _ l
    simp only [lane]
    exact ⟨rfl, rfl, rfl, rfl, rfl, rfl, rfl, rfl, rfl, rfl, rfl, rfl⟩
  · simp only [powerOn_output]
    exact ⟨rfl, rfl, rfl, rfl, rfl, rfl, rfl, rfl, rfl, rfl, rfl, rfl, rfl, rfl, rfl, rfl⟩
  · have route : (State.powerOn lines).routes.get n = Route.reset := Tab.get_fill _ n
    simp only [route]
    exact ⟨rfl, rfl⟩
  · exact congrArg Attenuation.current (Tab.get_fill _ n)
  · have alarms : (State.powerOn lines).alarms.get n = Alarms.reset := Tab.get_fill _ n
    simp only [alarms]
    exact ⟨rfl, fun k => Tab.get_fill _ k, rfl, rfl, rfl⟩
  · have port : (State.powerOn lines).ports.get p = Port.reset := Tab.get_fill _ p
    simp only [port, Port.reset, Tab.get_fill]
  · have line : (State.powerOn lines).line n l = BoothLine.reset := by
      simp only [State.line, State.powerOn, Tab.get_fill]
    simp only [State.line] at line ⊢
    simp only [line]
    exact ⟨rfl, rfl, rfl, rfl⟩
  · have port : (State.powerOn lines).ports.get p = Port.reset := Tab.get_fill _ p
    simp only [port]
    exact ⟨rfl, rfl, rfl, rfl, rfl, rfl, rfl, rfl, rfl, rfl, rfl⟩

/-- Refutes O11: DISABLE clears the mark that the coming house block's pulse count of a line has been taken, which the
statement keeps. The mark stands where PULSE_END has just ended a pulse on the screen. -/
theorem not_enableAndDisable : ¬ Obligations.EnableAndDisable := by
  unfold Obligations.EnableAndDisable
  intro claim
  let h : Header := { port := 0, station := 0, tag := 0, fits := true }
  let s : State := (State.reset.modScreen 0 fun c => { c with state := .dark }).modLine 0 0 BoothLine.takePulseEnd
  obtain ⟨-, disabling⟩ := claim.2 h 1 0 s rfl
  have ready : s.ready (.disable h 1) h 2 := ⟨rfl, rfl, rfl⟩
  obtain ⟨-, accepted⟩ := disabling ready
  obtain ⟨t, ran, -, -, -, -, -, -, -, -, -, -, lines, -⟩ := accepted rfl
  have known : exec (.disable h 1) s =
      .next ((disabled 0 h.station (s.taking (.disable h 1) h)).answering h (doneAnswer h 2 false [])) :=
    takeRequest_accept ready ((onScreen_valid (n := 0) rfl _ _).trans (if_pos rfl))
  obtain rfl := Host.Outcome.next.inj (known.symm.trans ran)
  have cleared := disabled_counted 0 0 h.station (s.taking (.disable h 1) h)
  have kept := congrArg BoothLine.counted ((lines 0 0).trans (if_pos rfl))
  have marked : (s.line 0 0).counted = true := rfl
  exact Bool.false_ne_true (cleared.symm.trans (kept.trans marked))

/-- Settles O12: HOLD by the order of its checks. -/
theorem holdClaims : Obligations.HoldClaims := by
  unfold Obligations.HoldClaims
  refine ⟨fun h screen s out hr => takeRequest_refuse hr (onScreen_invalid (ident_eq_none.2 out) _ _),
    fun h screen n s hn hr => ⟨fun held => ?_, fun free state => ?_, fun w free dark booth delivers word other => ?_,
      fun free dark own => ?_⟩⟩
  · exact takeRequest_refuse hr ((onScreen_valid hn _ _).trans (actHold_held held))
  · exact takeRequest_refuse hr ((onScreen_valid hn _ _).trans ((actHold_free (s := s.taking _ h) free).trans (if_pos state)))
  · refine takeRequest_refuse hr ((onScreen_valid hn _ _).trans ((actHold_free (s := s.taking _ h) free).trans ?_))
    exact (if_neg (not_not_intro dark)).trans (if_pos ⟨booth, State.otherServer_eq_true.2 ⟨delivers, w, word, other⟩⟩)
  · refine takeRequest_accept hr ((onScreen_valid hn _ _).trans ((actHold_free (s := s.taking _ h) free).trans ?_))
    refine (if_neg (not_not_intro dark)).trans ((if_neg ?_).trans ?_)
    · rintro ⟨booth, other⟩
      obtain ⟨delivers, w, word, differs⟩ := State.otherServer_eq_true.1 other
      exact differs (own booth delivers w word)
    · unfold heldBy State.notifyShow clearBase requestNotice
      simp only [State.modAttenuation, State.modScreen, Tab.get_modify, if_true]
      rfl
end

section
/-! PROOF. CALIBRATE and FREE (01 R8 to R10). -/

namespace Sys2Proof.Machine

theorem answering_hasAnswer (s : State) (h : Header) (a : Answer) : ((s.answering h a).ports.get h.port).hasAnswer a := by
  rw [answering_eq]
  dsimp only
  rw [Tab.get_modify, if_pos rfl]
  exact Port.answerWith_hasAnswer a _

/-! ### The admission of a request's screen -/

/-- The candidate of a request does not depend on the request's place in its port. -/
theorem candidate_taking (n : Fin 12) (st : ShowState) (hd : Option (Fin 16)) (i : Instr) (h : Header) (s : State) :
    candidate n st hd (s.taking i h) = { candidate n st hd s with ports := (s.taking i h).ports } := by
  have base : stampBase (s.taking i h) = { stampBase s with ports := (s.taking i h).ports } :=
    (apply_ite (fun z : State => ({ z with ports := (s.taking i h).ports } : State)) (s.stampCounter = Config.maxStamp)
      (renumber s) s).symm
  unfold candidate
  rw [takeStamp_eq, takeStamp_eq, base]
  rfl

theorem candidate_allot_taking (n : Fin 12) (st : ShowState) (hd : Option (Fin 16)) (i : Instr) (h : Header) (s : State) :
    (candidate n st hd (s.taking i h)).allot = (candidate n st hd s).allot := by
  rw [candidate_taking]
  exact allot_of rfl rfl

theorem candidate_frame (n : Fin 12) (st : ShowState) (hd : Option (Fin 16)) (s : State) :
    ∃ c k, candidate n st hd s = { s with screens := c, stampCounter := k } := by
  unfold candidate
  obtain ⟨c, k, e⟩ := takeStamp_frame n s
  rw [e]
  exact ⟨_, _, rfl⟩

theorem candidate_of_room {s : State} (room : s.stampCounter < 4294967295) (n : Fin 12) (st : ShowState)
    (hd : Option (Fin 16)) : candidate n st hd s =
      { s with
        screens := s.screens.modify n fun c => { c with state := st, holder := hd, stamp := s.stampCounter + 1 }
        stampCounter := s.stampCounter + 1 } := by
  have below : s.stampCounter ≠ Config.maxStamp := ne_of_lt room
  unfold candidate
  rw [takeStamp_eq, stampBase, if_neg below, nextStamp]
  unfold State.modScreen
  rw [Tab.modify_modify]

/-! ### CALIBRATE -/

section
variable {h : Header} {n : Fin 12} {s : State}

theorem actCalibrate_suspended (free : (s.screens.get n).holder = none) (dark : (s.screens.get n).state = .dark)
    (calm : s.evac = false) (full : ((candidate n .calibrating (some h.station) s).allot.get n).status = .suspended) :
    actCalibrate h n s = .refuse .nopower := by
  rw [actCalibrate_dark free dark calm, enterDemand_suspended full]

theorem actCalibrate_fits (free : (s.screens.get n).holder = none) (dark : (s.screens.get n).state = .dark)
    (calm : s.evac = false) (fits : ((candidate n .calibrating (some h.station) s).allot.get n).status ≠ .suspended) :
    actCalibrate h n s =
      .ok ((withdrawAlarms n (clearBase n (recompute .demand (candidate n .calibrating (some h.station) s)))).notifyShow n
        .dark .request (some h.station)) := by
  rw [actCalibrate_dark free dark calm, enterDemand_fits fits]

end

/-- The alarms withdrawn and the base cleared, and what is told of it. -/
theorem withdrawAlarms_clearBase (n : Fin 12) (s : State) : withdrawAlarms n (clearBase n s) =
    { s with
      attenuations := s.attenuations.modify n fun a => { a with current := 0 }
      alarms := s.alarms.modify n fun a =>
        { a with
          records := a.records.map fun r => { r with state := .clear, phase := 0 }, silenceRun := 0, loudTrim := 0,
          attention := false }
      ports := tell (withdrawals n (s.alarms.get n)) s.ports } := withdrawAlarms_eq n (clearBase n s)

theorem recompute_candidate_frame (c : PowerCause) (n : Fin 12) (st : ShowState) (hd : Option (Fin 16)) (s : State) :
    ∃ g o x p, recompute c (candidate n st hd s) =
      { s with
        screens := (candidate n st hd s).screens, stampCounter := (candidate n st hd s).stampCounter, grants := g, outputs := o,
        context := x, ports := p } := by
  obtain ⟨cs, k, e⟩ := candidate_frame n st hd s
  obtain ⟨g, o, x, p, r⟩ := recompute_frame c (candidate n st hd s)
  refine ⟨g, o, x, p, r.trans ?_⟩
  rw [e]

/-- What an admitted CALIBRATE leaves of a state, before the answer. -/
theorem calibrate_leaves (n : Fin 12) (station : Fin 16) (z : State) : ∃ t,
    (withdrawAlarms n (clearBase n (recompute .demand (candidate n .calibrating (some station) z)))).notifyShow n .dark .request
      (some station) = t ∧
    t = { z with
      ports := t.ports, screens := (candidate n .calibrating (some station) z).screens,
      stampCounter := (candidate n .calibrating (some station) z).stampCounter, outputs := t.outputs,
      attenuations := z.attenuations.modify n fun a => { a with current := 0 },
      alarms := z.alarms.modify n fun a =>
        { a with
          records := a.records.map fun r => { r with state := .clear, phase := 0 }, silenceRun := 0, loudTrim := 0,
          attention := false },
      grants := t.grants, context := t.context } ∧
    t.granted ∧ ToneOnly z t ∧
    ∀ r, r = recompute .demand (candidate n .calibrating (some station) z) →
      t = ({ r with
        attenuations := t.attenuations, alarms := t.alarms,
        ports := tell (withdrawals n (z.alarms.get n)) r.ports } : State).notify
          (requestNotice n .calibrating .dark (some station) .request station) := by
  refine ⟨_, rfl, ?_⟩
  have granted := recompute_granted .demand (candidate n .calibrating (some station) z)
  have tones := recompute_toneOnly .demand (candidate n .calibrating (some station) z)
  obtain ⟨c, k, entered⟩ := candidate_frame n .calibrating (some station) z
  have shown : (c.get n).state = .calibrating ∧ (c.get n).holder = some station := by
    have screens : c = (candidate n .calibrating (some station) z).screens := by rw [entered]
    rw [screens, candidate, modScreen_screens, Tab.get_modify, if_pos rfl]
    exact ⟨rfl, rfl⟩
  rw [entered] at granted tones ⊢
  obtain ⟨g, o, x, p, frame⟩ := recompute_frame .demand { z with screens := c, stampCounter := k }
  rw [frame] at granted tones ⊢
  rw [withdrawAlarms_clearBase]
  unfold State.notifyShow
  dsimp only
  rw [shown.1, shown.2]
  exact ⟨rfl, granted_of rfl rfl rfl granted, fun y => tones y, fun r hr => hr ▸ rfl⟩

/-! ### FREE -/

theorem Context.onScreen_iff {c : Context} {n : Fin 12} : c.onScreen n = true ↔ c.inFlight = true ∧ c.screen = some n := by
  rw [Context.onScreen, Bool.and_eq_true_iff, decide_eq_true_iff]

theorem abortMeasurement_idle {s : State} (h : s.context.inFlight = false) (c : AbortCause) : abortMeasurement c s = s := by
  simp only [abortMeasurement, h]

/-- Only a measurement in flight is aborted, so that the screen of the context decides. -/
theorem abortOn_eq (n : Fin 12) (c : AbortCause) (s : State) :
    abortOn n c s = if s.context.screen = some n then abortMeasurement c s else s := by
  unfold abortOn
  by_cases here : s.context.screen = some n
  · rw [if_pos here]
    split
    · rfl
    · next h =>
      refine (abortMeasurement_idle (Bool.eq_false_iff.2 fun flies => h ?_) c).symm
      exact Context.onScreen_iff.2 ⟨flies, here⟩
  · rw [if_neg here, if_neg fun h => here (Context.onScreen_iff.1 h).2]

/-- The law of a state speaks of the context of any other that holds the same. -/
theorem abortMeasurement_context {s u : State} (law : CalibrationLaw u) (same : s.context = u.context) (c : AbortCause) :
    (abortMeasurement c s).context = Context.reset := by
  obtain ⟨idle, flying, -⟩ := law
  rw [← same] at idle flying
  cases flies : s.context.inFlight with
  | false => rw [abortMeasurement_idle flies, idle flies]
  | true =>
    obtain ⟨n, g, screen, target, -⟩ := flying flies
    simp only [abortMeasurement, flies, screen, target]
    rfl

theorem Context.Follows.of_reset {c : Context} (h : Context.reset.Follows c) : c = Context.reset := by
  rcases h with ended | same | ⟨flies, -⟩
  · exact ended
  · exact same
  · cases flies

/-- A held screen becomes DARK, before the power is computed again. -/
def darkened (n : Fin 12) (z : State) : State :=
  { z with
    screens := z.screens.modify n fun c => { c with state := .dark, holder := none, stamp := 0 }
    attenuations := z.attenuations.modify n fun a => { a with current := 0 }
    alarms := z.alarms.modify n fun a =>
      { a with
        records := a.records.map fun r => { r with state := .clear, phase := 0 }, silenceRun := 0, loudTrim := 0,
        attention := false }
    ports := tell (withdrawals n (z.alarms.get n)) z.ports }

theorem State.notify_after_darkened {n : Fin 12} {z t : State} (h : t.screens = (darkened n z).screens) (previous : ShowState)
    (station : Fin 16) : t.notifyShow n previous .request (some station) =
      t.notify (requestNotice n .dark previous none .request station) := by
  unfold State.notifyShow
  rw [h, darkened, Tab.get_modify, if_pos rfl]
  rfl

theorem release_armed {n : Fin 12} {s : State} (armed : (s.screens.get n).state = .armed) (station : Fin 16) :
    release n station s = (darkened n s).notify (requestNotice n .dark .armed none .request station) := by
  have other : ¬(ShowState.armed = ShowState.calibrating) := by decide
  unfold release
  dsimp only
  rw [armed, if_neg other, if_neg other, withdrawAlarms_clearBase]
  exact State.notify_after_darkened (z := s) rfl _ _

theorem release_calibrating {n : Fin 12} {s : State} (calibrating : (s.screens.get n).state = .calibrating)
    (station : Fin 16) :
    release n station s = (recompute .demand (darkened n (clearTones n (abortOn n .freed s)))).notify
      (requestNotice n .dark .calibrating none .request station) := by
  unfold release
  dsimp only
  rw [if_pos calibrating, if_pos calibrating, withdrawAlarms_clearBase, calibrating]
  exact State.notify_after_darkened (z := clearTones n (abortOn n .freed s)) (recompute_screens _ _) _ _

section
variable {h : Header} {n : Fin 12} {s : State}

theorem State.holds_iff {station : Fin 16} : s.holds n station = true ↔ (s.screens.get n).holder = some station :=
  decide_eq_true_iff

theorem isManagement_iff {station : Fin 16} : isManagement station = true ↔ roleOf station = .management :=
  decide_eq_true_iff

theorem actFree_holder (holder : (s.screens.get n).holder = some h.station) :
    actFree h n s = freeByHolder h.station n s := if_pos (State.holds_iff.2 holder)

theorem actFree_management (other : (s.screens.get n).holder ≠ some h.station) (management : roleOf h.station = .management) :
    actFree h n s = freeByManagement h.station n s :=
  (if_neg fun e => other (State.holds_iff.1 e)).trans (if_pos (isManagement_iff.2 management))

theorem actFree_stranger (other : (s.screens.get n).holder ≠ some h.station) (role : roleOf h.station ≠ .management) :
    actFree h n s = .refuse .held :=
  (if_neg fun e => other (State.holds_iff.1 e)).trans (if_neg fun e => role (isManagement_iff.1 e))

theorem freeByHolder_busy {station : Fin 16} (h : (s.screens.get n).state ≠ .armed) (h' : (s.screens.get n).state ≠ .calibrating) :
    freeByHolder station n s = .refuse .state := by
  unfold freeByHolder
  split
  · next e => exact absurd e h
  · next e => exact absurd e h'
  · rfl

theorem freeByManagement_idle {station : Fin 16} (h : (s.screens.get n).state = .offline ∨ (s.screens.get n).state = .dark) :
    freeByManagement station n s = .refuse .state := by
  unfold freeByManagement
  rcases h with e | e <;> rw [e]

theorem freeByManagement_show {station : Fin 16}
    (h : (s.screens.get n).state.playing = true ∨ (s.screens.get n).state = .evacuated) :
    freeByManagement station n s = .ok (takeOver n station s) := by
  unfold freeByManagement
  cases e : (s.screens.get n).state with
  | offline | dark | armed | calibrating =>
    rw [e] at h
    exact absurd h (by decide)
  | _ => rfl

theorem actFree_release (may : (s.screens.get n).holder = some h.station ∨ roleOf h.station = .management)
    (held : (s.screens.get n).state = .armed ∨ (s.screens.get n).state = .calibrating) :
    actFree h n s = .ok (release n h.station s) := by
  by_cases holder : (s.screens.get n).holder = some h.station
  · rw [actFree_holder holder, freeByHolder]
    rcases held with e | e <;> rw [e]
  · rw [actFree_management holder (may.resolve_left holder), freeByManagement]
    rcases held with e | e <;> rw [e]

theorem takeOver_eq (station : Fin 16) : takeOver n station s =
    (s.modScreen n fun c => { c with holder := some station }).notify
      (requestNotice n (s.screens.get n).state (s.screens.get n).state (some station) .takeover station) := by
  unfold takeOver State.notifyShow
  simp only [State.modScreen, Tab.get_modify, if_true]
  rfl

theorem actFree_takeOver (other : (s.screens.get n).holder ≠ some h.station) (management : roleOf h.station = .management)
    (playing : (s.screens.get n).state.playing = true ∨ (s.screens.get n).state = .evacuated) :
    actFree h n s = .accept ((s.modScreen n fun c => { c with holder := some h.station }).notify
      (requestNotice n (s.screens.get n).state (s.screens.get n).state (some h.station) .takeover h.station)) false [] := by
  rw [actFree_management other management, freeByManagement_show playing, takeOver_eq]
  rfl

end

/-- A release is told after the power has been computed again, where a calibration gives its demand up. -/
theorem release_eq {n : Fin 12} {s : State}
    (held : (s.screens.get n).state = .armed ∨ (s.screens.get n).state = .calibrating) (station : Fin 16) :
    release n station s =
      (if (s.screens.get n).state = .calibrating then
        recompute .demand (darkened n (clearTones n (abortOn n .freed s))) else darkened n s).notify
      (requestNotice n .dark (s.screens.get n).state none .request station) := by
  rcases held with e | e
  · rw [release_armed e, e, if_neg (by decide)]
  · rw [release_calibrating e, e, if_pos rfl]

/-- What a calibration given up leaves of a state, before it is told. -/
theorem uncalibrate_leaves (n : Fin 12) (z : State) : ∃ t,
    recompute .demand (darkened n (clearTones n (abortOn n .freed z))) = t ∧
    t = { z with
      ports := t.ports, screens := z.screens.modify n fun c => { c with state := .dark, holder := none, stamp := 0 },
      outputs := t.outputs, attenuations := z.attenuations.modify n fun a => { a with current := 0 },
      alarms := z.alarms.modify n fun a =>
        { a with
          records := a.records.map fun r => { r with state := .clear, phase := 0 }, silenceRun := 0, loudTrim := 0,
          attention := false },
      grants := t.grants, context := t.context } ∧
    t.granted ∧ ToneOnly z t ∧ (∀ o, (z.outputs.get o).screen = some n → (t.outputs.get o).toneFlag = false) ∧
    (CalibrationLaw z → z.context.screen = some n → t.context = Context.reset) := by
  obtain ⟨o, x, p, aborted⟩ := abortOn_frame n .freed z
  have tones := (abortOn_calibrationKept n .freed z).screen
  have only : ToneOnly z (abortOn n .freed z) := by
    unfold abortOn
    split
    · exact abortMeasurement_toneOnly _ _
    · exact .refl z
  have ended : CalibrationLaw z → z.context.screen = some n → (abortOn n .freed z).context = Context.reset := by
    intro law here
    rw [abortOn_eq, if_pos here, abortMeasurement_context law rfl]
  generalize hy : darkened n (clearTones n (abortOn n .freed z)) = y
  have kept := recompute_calibrationKept .demand y
  have again := recompute_toneOnly .demand y
  have granted := recompute_granted .demand y
  obtain ⟨g, o', x', p', frame⟩ := recompute_frame .demand y
  have quiet : ∀ k, (z.outputs.get k).screen = some n → (y.outputs.get k).toneFlag = false := by
    intro k on
    have here : ((abortOn n .freed z).outputs.get k).screen = some n := (tones k).trans on
    obtain ⟨-, cleared⟩ := clearTones_output n (abortOn n .freed z) k
    rw [← hy]
    exact Bool.eq_false_iff.2 fun set => (cleared set).2 here
  refine ⟨_, rfl, ?_, granted, ?_, fun k on => ?_, fun law here => ?_⟩
  · rw [frame, ← hy, aborted]
    rfl
  · refine (only.trans ?_).trans again
    rw [← hy]
    exact clearTones_toneOnly n _
  · exact Bool.eq_false_iff.2 fun set => Bool.false_ne_true ((quiet k on).symm.trans (kept.tone k set))
  · refine Context.Follows.of_reset ?_
    have start : y.context = Context.reset := by
      rw [← hy]
      exact ended law here
    exact start ▸ kept.context

end Sys2Proof.Machine

open Sys2Proof Sys2Proof.Machine

/-- Settles O13: CALIBRATE by the order of its checks, and the state that its admission leaves. -/
theorem calibrateClaims : Obligations.CalibrateClaims := by
  unfold Obligations.CalibrateClaims
  refine ⟨fun h screen s out hr => takeRequest_refuse hr (onScreen_invalid (ident_eq_none.2 out) _ _),
    fun h screen n s hn hr => ⟨fun held => ?_, fun free state => ?_, fun free dark evac => ?_, fun free dark calm full => ?_,
      fun free dark calm fits => ?_⟩⟩
  · exact takeRequest_refuse hr ((onScreen_valid hn _ _).trans (actCalibrate_held (s := s.taking _ h) held))
  · exact takeRequest_refuse hr ((onScreen_valid hn _ _).trans
      ((actCalibrate_free (s := s.taking _ h) free).trans (if_pos state)))
  · exact takeRequest_refuse hr ((onScreen_valid hn _ _).trans
      ((actCalibrate_free (s := s.taking _ h) free).trans ((if_neg (not_not_intro dark)).trans (if_pos evac))))
  · rw [← candidate_allot_taking _ _ _ (.calibrate h screen) h] at full
    exact takeRequest_refuse hr ((onScreen_valid hn _ _).trans
      (actCalibrate_suspended (s := s.taking _ h) free dark calm full))
  · rw [← candidate_allot_taking _ _ _ (.calibrate h screen) h] at fits
    refine ⟨_, takeRequest_accept hr ((onScreen_valid hn _ _).trans
      (actCalibrate_fits (s := s.taking _ h) free dark calm fits)), ?_⟩
    obtain ⟨t, left, frame, granted, tones, told⟩ := calibrate_leaves n h.station (s.taking (.calibrate h screen) h)
    rw [left]
    rw [candidate_taking] at frame told
    have screens : t.screens = (candidate n .calibrating (some h.station) s).screens := by rw [frame]
    have counter : t.stampCounter = (candidate n .calibrating (some h.station) s).stampCounter := by rw [frame]
    have room := fun below => candidate_of_room (s := s) below n .calibrating (some h.station)
    refine ⟨?_, screens, counter, fun below => ⟨?_, ?_⟩, granted_of rfl rfl rfl granted, tones, ?_, ?_, fun r hr' => ?_, ?_⟩
    · rw [frame]
      rfl
    · exact counter.trans (congrArg State.stampCounter (room below))
    · exact screens.trans (congrArg State.screens (room below))
    · exact congrArg State.attenuations frame
    · exact congrArg State.alarms frame
    · exact congrArg (fun u : State => u.answering h (doneAnswer h 4 false [])) (told r (by rw [hr', candidate_taking]))
    · exact answering_hasAnswer t h _

/-- Settles O14: FREE by the order of its checks, the takeover, and the release. -/
theorem freeReleasesOrTakesOver : Obligations.FreeReleasesOrTakesOver := by
  unfold Obligations.FreeReleasesOrTakesOver
  refine ⟨fun h screen s out hr => takeRequest_refuse hr (onScreen_invalid (ident_eq_none.2 out) _ _),
    fun h screen n s hn hr => ⟨fun other role => ?_, fun holder armed calibrating => ?_, fun other role idle => ?_,
      fun other role playing => ?_, fun may held => ?_⟩⟩
  · exact takeRequest_refuse hr ((onScreen_valid hn _ _).trans (actFree_stranger (s := s.taking _ h) other role))
  · exact takeRequest_refuse hr ((onScreen_valid hn _ _).trans
      ((actFree_holder (s := s.taking _ h) holder).trans (freeByHolder_busy armed calibrating)))
  · exact takeRequest_refuse hr ((onScreen_valid hn _ _).trans
      ((actFree_management (s := s.taking _ h) other role).trans (freeByManagement_idle idle)))
  · have taken := actFree_takeOver (s := s.taking (.free h screen) h) other role playing
    exact takeRequest_accept hr ((onScreen_valid hn _ _).trans taken)
  · have freed : actFree h n (s.taking (.free h screen) h) = .ok (release n h.station (s.taking (.free h screen) h)) :=
      actFree_release may held
    have ran : exec (.free h screen) s =
        .next ((release n h.station (s.taking (.free h screen) h)).answering h (doneAnswer h 5 false [])) :=
      takeRequest_accept hr ((onScreen_valid hn _ _).trans freed)
    refine ⟨_, ran, ?_⟩
    have shown := release_eq (s := s.taking (.free h screen) h) held h.station
    rw [shown]
    rcases held with armed | calibrating
    · have calm : ¬(s.screens.get n).state = .calibrating := by
        rw [armed]
        decide
      rw [if_neg (show ¬((s.taking (.free h screen) h).screens.get n).state = .calibrating from calm)]
      refine ⟨rfl, rfl, rfl, rfl, fun _ => ⟨rfl, rfl, rfl⟩, fun e => absurd e calm, fun z u r hz hu hr' => ?_,
        answering_hasAnswer _ _ _⟩
      rw [if_neg fun e => calm e.1] at hz
      rw [if_neg calm] at hr'
      rw [if_neg calm] at hu
      subst hr' hu hz
      rfl
    · have flips : ¬(s.screens.get n).state = .armed := by
        rw [calibrating]
        decide
      rw [if_pos (show ((s.taking (.free h screen) h).screens.get n).state = .calibrating from calibrating)]
      obtain ⟨t, left, frame, granted, tones, flags, ended⟩ := uncalibrate_leaves n (s.taking (.free h screen) h)
      rw [left]
      refine ⟨?_, congrArg State.screens frame, congrArg State.attenuations frame, congrArg State.alarms frame,
        fun e => absurd e flips, fun _ => ⟨granted_of rfl rfl rfl granted, tones, flags, ended⟩, fun z u r hz hu hr' => ?_,
        answering_hasAnswer _ _ _⟩
      · rw [frame]
        rfl
      · have aborted : z = abortOn n .freed (s.taking (.free h screen) h) := by
          rw [hz, abortOn_eq]
          exact if_congr (and_iff_right calibrating) rfl rfl
        rw [if_pos calibrating] at hr'
        rw [if_pos calibrating] at hu
        obtain ⟨o, x, p, stopped⟩ := abortOn_frame n .freed (s.taking (.free h screen) h)
        have before : u = darkened n (clearTones n z) := by
          rw [hu, aborted, stopped, frame]
          rfl
        rw [hr', before, aborted, left]
        rfl
end

section
/-! PROOF. START, and PAUSE, RESUME and END (01 R11 to R18). -/

namespace Sys2Proof.Machine

/-! ### The cue clocks -/

/-- The cue clocks and the last cue calls stand. -/
def ClocksKept (s t : State) : Prop :=
  ∀ n, (t.cues.get n).clock = (s.cues.get n).clock ∧ (t.cues.get n).lastCall = (s.cues.get n).lastCall

theorem ClocksKept.refl (s : State) : ClocksKept s s := fun _ => ⟨rfl, rfl⟩

theorem ClocksKept.trans {s t u : State} (h : ClocksKept s t) (h' : ClocksKept t u) : ClocksKept s u := fun n =>
  ⟨(h' n).1.trans (h n).1, (h' n).2.trans (h n).2⟩

theorem ClocksKept.of_cues {s t : State} (h : t.cues = s.cues) : ClocksKept s t := fun n => by rw [h]; exact ⟨rfl, rfl⟩

theorem ClocksKept.overList {α : Type} {f : α → State → State} (h : ∀ x t, ClocksKept t (f x t)) (l : List α) (s : State) :
    ClocksKept s (overList f l s) :=
  overList_induct (P := ClocksKept s) (.refl s) fun x _ t ht => ht.trans (h x t)

theorem modCues_clocksKept (n : Fin 12) {f : CueScreen → CueScreen} (s : State) (h : ∀ x, (f x).clock = x.clock)
    (h' : ∀ x, (f x).lastCall = x.lastCall) : ClocksKept s (s.modCues n f) := fun m => by
  unfold State.modCues
  dsimp only
  rw [Tab.get_modify]
  split
  · next e => exact e ▸ ⟨h _, h' _⟩
  · exact ⟨rfl, rfl⟩

theorem perform_cues (n : Fin 12) (a : Action) (s : State) : (perform n a s).cues = s.cues := by
  cases a <;> rfl

theorem fire_clocksKept (e : Fin 512) (s : State) : ClocksKept s (fire e s) := by
  unfold fire
  split
  · next c _ _ =>
    refine .trans ?_ (.of_cues rfl)
    refine .trans ?_ (modCues_clocksKept c.screen _ (fun _ => rfl) fun _ => rfl)
    exact .of_cues (perform_cues c.screen c.action s)
  · exact .refl s

theorem skip_clocksKept (e : Fin 512) (s : State) : ClocksKept s (skip e s) := by
  unfold skip
  split
  · exact .of_cues rfl
  · exact .refl s

theorem rearm_clocksKept (e : Fin 512) (s : State) : ClocksKept s (rearm e s) := by
  unfold rearm
  split
  · exact .of_cues rfl
  · exact .refl s

theorem advanceEntry_clocksKept (jump : Bool) (low : Option Nat) (time : Nat) (e : Fin 512) (s : State) :
    ClocksKept s (advanceEntry jump low time e s) := by
  unfold advanceEntry
  split
  · split
    · split
      · exact skip_clocksKept e s
      · exact fire_clocksKept e s
    · exact .refl s
  · exact .refl s

theorem fireState_clocksKept (n : Fin 12) (ev : CueEvent) (s : State) : ClocksKept s (fireState n ev s) :=
  .overList fire_clocksKept _ s

/-- A start takes the cue clock and the last cue call of the lane's word. -/
theorem startCues_clock {n : Fin 12} {w : SideWord} {s : State} (h : s.word n = some w) :
    ((startCues n s).cues.get n).clock = some w.showTime ∧ ((startCues n s).cues.get n).lastCall = w.cueCall := by
  unfold startCues
  simp only [h]
  generalize armed : overList rearm _ s = t
  have set : ((t.modCues n fun x => { x with clock := some w.showTime, lastCall := w.cueCall }).cues.get n).clock =
      some w.showTime ∧ ((t.modCues n fun x => { x with clock := some w.showTime, lastCall := w.cueCall }).cues.get n).lastCall =
        w.cueCall := by
    unfold State.modCues
    dsimp only
    rw [Tab.get_modify, if_pos rfl]
    exact ⟨rfl, rfl⟩
  have kept := (ClocksKept.overList (advanceEntry_clocksKept true none w.showTime) (s.cues.get n).timeList
    (t.modCues n fun x => { x with clock := some w.showTime, lastCall := w.cueCall })).trans (fireState_clocksKept n .start _)
  exact ⟨(kept n).1.trans set.1, (kept n).2.trans set.2⟩

/-! ### START -/

section
variable {h : Header} {n : Fin 12} {s : State}

theorem ofHolder_holder (holder : (s.screens.get n).holder = some h.station) (act : Fin 12 → State → Result) :
    ofHolder h act n s = act n s := if_pos (State.holds_iff.2 holder)

theorem ofHolder_stranger (other : (s.screens.get n).holder ≠ some h.station) (act : Fin 12 → State → Result) :
    ofHolder h act n s = .refuse .held := if_neg fun e => other (State.holds_iff.1 e)

theorem startScreen_ending (ending : (s.screens.get n).state = .ending) : startScreen h n s = .refuse .busy := by
  unfold startScreen
  rw [ending]

theorem startScreen_other (ending : (s.screens.get n).state ≠ .ending) (armed : (s.screens.get n).state ≠ .armed) :
    startScreen h n s = .refuse .state := by
  unfold startScreen
  split
  · next e => exact absurd e armed
  · next e => exact absurd e ending
  · rfl

theorem startScreen_refused {why : Reason} (armed : (s.screens.get n).state = .armed) (judged : judgeStart n s = .inl why) :
    startScreen h n s = .refuse why := by
  simp only [startScreen, armed, judged]

theorem startScreen_armed {t : State} (armed : (s.screens.get n).state = .armed) (judged : judgeStart n s = .inr t) :
    startScreen h n s = .ok (t.notifyShow n .armed .request (some h.station)) := by
  simp only [startScreen, armed, judged]

theorem judgeStart_evac (evac : s.evac = true) : judgeStart n s = .inl .evac := by
  simp only [judgeStart, State.startRefusal, evac, if_true]

theorem judgeStart_lane (calm : s.evac = false) (lane : (s.lanes.get (programLane n)).delivering = false) :
    judgeStart n s = .inl .lane := by
  simp [judgeStart, State.startRefusal, calm, lane]

theorem startRefusal_none (calm : s.evac = false) (lane : (s.lanes.get (programLane n)).delivering = true) :
    s.startRefusal n = none := by
  simp [State.startRefusal, calm, lane]

theorem judgeStart_nopower (calm : s.evac = false) (lane : (s.lanes.get (programLane n)).delivering = true)
    (full : ((candidate n .show (s.screens.get n).holder s).allot.get n).status = .suspended) :
    judgeStart n s = .inl .nopower := by
  simp only [judgeStart, startRefusal_none calm lane, enterDemand_suspended full]

theorem judgeStart_fits (calm : s.evac = false) (lane : (s.lanes.get (programLane n)).delivering = true)
    (fits : ((candidate n .show (s.screens.get n).holder s).allot.get n).status ≠ .suspended) :
    judgeStart n s = .inr (startEffects n (recompute .demand (candidate n .show (s.screens.get n).holder s))) := by
  simp only [judgeStart, startRefusal_none calm lane, enterDemand_fits fits]

end

/-- A started show before its cues. -/
def beforeCues (n : Fin 12) (s : State) : State :=
  { s with
    meters := s.meters.modify n Meter.clearForShow
    alarms := s.alarms.modify n fun a =>
      { a with records := a.records.map fun r => { r with phase := 0 }, silenceRun := 0, loudTrim := 0 }
    routes := s.routes.modify n fun x => { x with source := .default } }

theorem startEffects_eq (n : Fin 12) (s : State) : startEffects n s = startCues n (beforeCues n s) := rfl

/-- The cues leave the demands of the screens, and with them the computation of the power. -/
theorem CueKept.allot {s t : State} (h : CueKept s t) : t.allot = s.allot := by
  have demands : (fun n => (t.screens.get n).demand n) = fun n => (s.screens.get n).demand n := by
    funext n
    rw [h.screens n]
    rfl
  have budget : t.budget = s.budget := by
    obtain ⟨_, _, _, _, _, e⟩ := h.frame
    rw [e]
  have states := h.showKept.state
  unfold State.allot State.ranked
  rw [demands, budget]
  simp only [states]

theorem CueKept.granted {s t : State} (h : CueKept s t) (hs : s.granted) : t.granted := by
  have grants : t.grants = s.grants := by
    obtain ⟨_, _, _, _, _, e⟩ := h.frame
    rw [e]
  intro n
  rw [h.allot, grants]
  exact hs n

/-- A candidate has the state and the holder that it enters with. -/
theorem candidate_screen (n : Fin 12) (st : ShowState) (hd : Option (Fin 16)) (s : State) :
    ((candidate n st hd s).screens.get n).state = st ∧ ((candidate n st hd s).screens.get n).holder = hd := by
  rw [candidate, modScreen_screens, Tab.get_modify, if_pos rfl]
  exact ⟨rfl, rfl⟩

/-- What an admitted start leaves of a state, before the answer. -/
theorem start_leaves (n : Fin 12) (station : Fin 16) (z : State) : ∃ t,
    (startEffects n (recompute .demand (candidate n .show (some station) z))).notifyShow n .armed .request
      (some station) = t ∧
    t = { z with
      ports := t.ports, screens := t.screens, stampCounter := t.stampCounter, outputs := t.outputs,
      routes := t.routes, meters := t.meters, alarms := t.alarms, grants := t.grants, pool := t.pool,
      cues := t.cues, booth := t.booth, context := t.context } ∧
    (∀ m, t.screens.get m =
      { (candidate n .show (some station) z).screens.get m with level := (t.screens.get m).level }) ∧
    t.stampCounter = (candidate n .show (some station) z).stampCounter ∧ t.granted ∧
    t.meters = z.meters.modify n Meter.clearForShow ∧
    t.alarms = z.alarms.modify n (fun a =>
      { a with records := a.records.map fun r => { r with phase := 0 }, silenceRun := 0, loudTrim := 0 }) ∧
    t.routes = z.routes.modify n (fun r => { r with source := .default }) ∧
    (∀ w, (z.lanes.get (programLane n)).accepted = some w →
      (t.cues.get n).clock = some (min w.time 2073599) ∧ (t.cues.get n).lastCall = w.cueCall) ∧
    (∀ m, (t.cues.get m).timeList = (z.cues.get m).timeList ∧ (t.cues.get m).eventList = (z.cues.get m).eventList) ∧
    (∀ e, (t.pool.get e).map (fun c => { c with state := none }) =
      (z.pool.get e).map fun c => { c with state := none }) ∧ ToneOnly z t ∧
    ∀ r, r = recompute .demand (candidate n .show (some station) z) →
      t = (startCues n { r with meters := t.meters, alarms := t.alarms, routes := t.routes }).notify
        (requestNotice n .show .armed (some station) .request station) := by
  refine ⟨_, rfl, ?_⟩
  rw [startEffects_eq]
  have entered := candidate_screen n .show (some station) z
  obtain ⟨g, o, x, p, frame⟩ := recompute_candidate_frame .demand n .show (some station) z
  have granted := recompute_granted .demand (candidate n .show (some station) z)
  have tones := recompute_toneOnly .demand (candidate n .show (some station) z)
  have outputs : (candidate n .show (some station) z).outputs = z.outputs := by
    obtain ⟨_, _, e⟩ := candidate_frame n .show (some station) z
    rw [e]
  generalize hr : recompute .demand (candidate n .show (some station) z) = r at frame granted tones ⊢
  have kept := startCues_cueKept n (beforeCues n r)
  have clock := fun w => startCues_clock (n := n) (w := w) (s := beforeCues n r)
  obtain ⟨b, c, e, q, p', after⟩ := kept.frame
  have screens : ∀ m, ((startCues n (beforeCues n r)).screens.get m) =
      { (candidate n .show (some station) z).screens.get m with
        level := ((startCues n (beforeCues n r)).screens.get m).level } := by
    intro m
    refine (kept.screens m).trans ?_
    rw [show (beforeCues n r).screens = (candidate n .show (some station) z).screens by rw [frame]; rfl]
  have told : (startCues n (beforeCues n r)).notifyShow n .armed .request (some station) =
      (startCues n (beforeCues n r)).notify (requestNotice n .show .armed (some station) .request station) := by
    unfold State.notifyShow
    dsimp only
    rw [screens n]
    dsimp only
    rw [entered.1, entered.2]
    rfl
  rw [told]
  have granted' : (startCues n (beforeCues n r)).granted := kept.granted (granted_of (s := r) rfl rfl rfl granted)
  refine ⟨?_, screens, ?_, granted_of rfl rfl rfl granted', ?_, ?_, ?_, ?_, ?_, ?_, ?_, ?_⟩
  · rw [after, frame]
    rfl
  · rw [after, frame]
    rfl
  · rw [after, frame]
    rfl
  · rw [after, frame]
    rfl
  · rw [after, frame]
    rfl
  · intro w word
    refine clock w ?_
    rw [frame]
    exact word
  · intro m
    refine (kept.lists m).imp (fun h => h.trans ?_) fun h => h.trans ?_
    · rw [frame]
      rfl
    · rw [frame]
      rfl
  · intro y
    refine (kept.pool y).trans ?_
    rw [frame]
    rfl
  · have before : ToneOnly z r := fun y => by
      rw [← outputs]
      exact tones y
    exact before.trans (.of_outputs (by rw [after]; rfl))
  · rintro r' rfl
    refine congrArg (fun u => (startCues n u).notify _) ?_
    rw [after]
    rfl

/-! ### PAUSE, RESUME and END -/

section
variable {h : Header} {n : Fin 12} {s : State}

theorem moveShow_eq {st : ShowState} {f : Screen → Screen} (hs : ∀ c, (f c).state = st) (hh : ∀ c, (f c).holder = c.holder)
    (holder : (s.screens.get n).holder = some h.station) (event : CueEvent) :
    moveShow n event h.station f s = fireState n event ((s.modScreen n f).notify
      (requestNotice n st (s.screens.get n).state (some h.station) .request h.station)) := by
  unfold moveShow State.notifyShow
  dsimp only
  rw [modScreen_screens, Tab.get_modify, if_pos rfl, hs, hh, holder]
  rfl

theorem pauseScreen_show (holder : (s.screens.get n).holder = some h.station) (show_ : (s.screens.get n).state = .show) :
    pauseScreen h n s = .ok (fireState n .pause ((s.modScreen n fun c => { c with state := .paused }).notify
      (requestNotice n .paused .show (some h.station) .request h.station))) := by
  have moved := moveShow_eq (st := .paused) (f := fun c => { c with state := .paused }) (fun _ => rfl) (fun _ => rfl)
    holder .pause
  rw [show_] at moved
  simp only [pauseScreen, show_]
  exact congrArg Result.ok moved

theorem resumeScreen_paused (holder : (s.screens.get n).holder = some h.station)
    (paused : (s.screens.get n).state = .paused) :
    resumeScreen h n s = .ok (fireState n .resume ((s.modScreen n fun c => { c with state := .show }).notify
      (requestNotice n .show .paused (some h.station) .request h.station))) := by
  have moved := moveShow_eq (st := .show) (f := fun c => { c with state := .show }) (fun _ => rfl) (fun _ => rfl)
    holder .resume
  rw [paused] at moved
  simp only [resumeScreen, paused]
  exact congrArg Result.ok moved

theorem pauseScreen_ending (ending : (s.screens.get n).state = .ending) : pauseScreen h n s = .refuse .busy := by
  simp only [pauseScreen, ending]

theorem pauseScreen_other (ending : (s.screens.get n).state ≠ .ending) (show_ : (s.screens.get n).state ≠ .show) :
    pauseScreen h n s = .refuse .state := by
  unfold pauseScreen
  split
  · next e => exact absurd e show_
  · next e => exact absurd e ending
  · rfl

theorem resumeScreen_ending (ending : (s.screens.get n).state = .ending) : resumeScreen h n s = .refuse .busy := by
  simp only [resumeScreen, ending]

theorem resumeScreen_other (ending : (s.screens.get n).state ≠ .ending) (paused : (s.screens.get n).state ≠ .paused) :
    resumeScreen h n s = .refuse .state := by
  unfold resumeScreen
  split
  · next e => exact absurd e paused
  · next e => exact absurd e ending
  · rfl

variable {rate : Option Nat}

theorem endScreen_ending (ending : (s.screens.get n).state = .ending) : endScreen h rate n s = .refuse .busy := by
  simp only [endScreen, ending]

theorem endScreen_other (ending : (s.screens.get n).state ≠ .ending) (show_ : (s.screens.get n).state ≠ .show)
    (paused : (s.screens.get n).state ≠ .paused) : endScreen h rate n s = .refuse .state := by
  unfold endScreen
  dsimp only
  split
  · next e => exact absurd e show_
  · next e => exact absurd e paused
  · next e => exact absurd e ending
  · rfl

theorem settingNat_value {lo hi : Nat} (h : lo ≤ hi) (v : Nat) : (settingNat lo hi v).value = max lo (min v hi) := by
  unfold settingNat clampNat
  dsimp only
  split
  · omega
  · split <;> omega

theorem settingNat_clamped {lo hi : Nat} (h : lo ≤ hi) (v : Nat) :
    (settingNat lo hi v).clamped = decide (v < lo ∨ hi < v) := by
  refine decide_eq_decide.2 ?_
  show (settingNat lo hi v).value ≠ v ↔ _
  rw [settingNat_value h]
  omega

theorem endRate_eq (c : Screen) (rate : Option Nat) :
    endRate c rate = { value := (rate.map fun v => max 1 (min v 255)).getD c.config.fadeRate
                       clamped := rate.any fun v => decide (v = 0 ∨ 255 < v) } := by
  cases rate with
  | none => rfl
  | some v =>
    have value := settingNat_value (show 1 ≤ 255 by decide) v
    have clamped := settingNat_clamped (show 1 ≤ 255 by decide) v
    have low : (v < 1 ∨ 255 < v) = (v = 0 ∨ 255 < v) := by rw [Nat.lt_one_iff]
    simp only [low] at clamped
    show settingNat 1 255 v = { value := max 1 (min v 255), clamped := decide (v = 0 ∨ 255 < v) }
    rw [← value, ← clamped]

theorem endScreen_begins (holder : (s.screens.get n).holder = some h.station)
    (playing : (s.screens.get n).state = .show ∨ (s.screens.get n).state = .paused) :
    endScreen h rate n s = .accept (fireState n .endBegin ((s.modScreen n fun c =>
        { c with
          state := .ending, fadeAtt := 0, fadeCount := 0,
          rateInEffect := some ((rate.map fun v => max 1 (min v 255)).getD c.config.fadeRate), fadeTaken := false }).notify
      (requestNotice n .ending (s.screens.get n).state (some h.station) .request h.station)))
      (rate.any fun v => decide (v = 0 ∨ 255 < v)) [] := by
  have began : endScreen h rate n s =
      .accept (moveShow n .endBegin h.station (Screen.beginFade (endRate (s.screens.get n) rate).value) s)
        (endRate (s.screens.get n) rate).clamped [] := by
    unfold endScreen
    rcases playing with e | e <;> rw [e]
  rw [began, moveShow_eq (st := .ending) (f := Screen.beginFade _) (fun _ => rfl) (fun _ => rfl) holder, endRate_eq]
  rfl

end

end Sys2Proof.Machine

open Sys2Proof Sys2Proof.Machine

/-- Settles O15: START by the order of its checks, and the state that its admission leaves. -/
theorem startJudged : Obligations.StartJudged := by
  unfold Obligations.StartJudged
  refine ⟨fun h screen s out hr => takeRequest_refuse hr (onScreen_invalid (ident_eq_none.2 out) _ _),
    fun h screen n s hn hr => ⟨fun other => ?_, fun holder => ⟨fun ending => ?_, fun ending armed => ?_, fun armed evac => ?_,
      fun armed calm lane => ?_, fun armed calm lane full => ?_, fun armed calm lane fits => ?_⟩⟩⟩
  · exact takeRequest_refuse hr ((onScreen_valid hn _ _).trans (ofHolder_stranger (s := s.taking _ h) other _))
  · exact takeRequest_refuse hr ((onScreen_valid hn _ _).trans
      ((ofHolder_holder (s := s.taking _ h) holder _).trans (startScreen_ending ending)))
  · exact takeRequest_refuse hr ((onScreen_valid hn _ _).trans
      ((ofHolder_holder (s := s.taking _ h) holder _).trans (startScreen_other ending armed)))
  · exact takeRequest_refuse hr ((onScreen_valid hn _ _).trans
      ((ofHolder_holder (s := s.taking _ h) holder _).trans
        (startScreen_refused (s := s.taking _ h) armed (judgeStart_evac evac))))
  · exact takeRequest_refuse hr ((onScreen_valid hn _ _).trans
      ((ofHolder_holder (s := s.taking _ h) holder _).trans
        (startScreen_refused (s := s.taking _ h) armed (judgeStart_lane calm lane))))
  · rw [← candidate_allot_taking _ _ _ (.start h screen) h, ← holder] at full
    exact takeRequest_refuse hr ((onScreen_valid hn _ _).trans
      ((ofHolder_holder (s := s.taking _ h) holder _).trans
        (startScreen_refused (s := s.taking _ h) armed (judgeStart_nopower calm lane full))))
  · obtain ⟨t, left, frame, screens, counter, granted, meters, alarms, routes, clock, lists, pool, tones, told⟩ :=
      start_leaves n h.station (s.taking (.start h screen) h)
    rw [← candidate_allot_taking _ _ _ (.start h screen) h, ← holder] at fits
    have started := startScreen_armed (h := h) (s := s.taking (.start h screen) h) armed (judgeStart_fits calm lane fits)
    rw [show ((s.taking (.start h screen) h).screens.get n).holder = some h.station from holder, left] at started
    refine ⟨_, takeRequest_accept hr ((onScreen_valid hn _ _).trans
      ((ofHolder_holder (s := s.taking _ h) holder _).trans started)), ?_⟩
    rw [candidate_taking] at screens counter
    have entered := candidate_screen n .show (some h.station) s
    have room := fun below => candidate_of_room (s := s) below n .show (some h.station)
    refine ⟨?_, screens, counter, ?_, ?_, fun below => ⟨?_, ?_, fun m other => ?_⟩, granted_of rfl rfl rfl granted, meters,
      alarms, routes, clock, lists, pool, tones, fun r hr' => ?_, answering_hasAnswer t h _⟩
    · rw [frame]
      rfl
    · exact (congrArg Screen.state (screens n)).trans entered.1
    · exact (congrArg Screen.holder (screens n)).trans entered.2
    · exact counter.trans (congrArg State.stampCounter (room below))
    · refine (congrArg Screen.stamp (screens n)).trans ?_
      dsimp only
      rw [room below]
      dsimp only
      rw [Tab.get_modify, if_pos rfl]
    · refine (congrArg Screen.stamp (screens m)).trans ?_
      dsimp only
      rw [room below]
      dsimp only
      rw [Tab.get_modify, if_neg (Ne.symm other)]
    · exact congrArg (fun u : State => u.answering h (doneAnswer h 6 false [])) (told r hr')

/-- Settles O16: each request by the state of its screen. -/
theorem pauseResumeAndEnd : Obligations.PauseResumeAndEnd := by
  unfold Obligations.PauseResumeAndEnd
  refine ⟨fun h screen s out => ?_, fun h screen n s hn => ⟨fun hr => ?_, fun hr => ?_, fun rate hr => ?_⟩⟩
  · have none_ := ident_eq_none.2 out
    exact ⟨fun hr => takeRequest_refuse hr (onScreen_invalid none_ _ _),
      fun hr => takeRequest_refuse hr (onScreen_invalid none_ _ _),
      fun rate hr => takeRequest_refuse hr (onScreen_invalid none_ _ _)⟩
  · refine ⟨fun other => ?_, fun holder ending => ?_, fun holder ending other => ?_, fun holder show_ => ?_⟩
    · exact takeRequest_refuse hr ((onScreen_valid hn _ _).trans (ofHolder_stranger (s := s.taking _ h) other _))
    · exact takeRequest_refuse hr ((onScreen_valid hn _ _).trans
        ((ofHolder_holder (s := s.taking _ h) holder _).trans (pauseScreen_ending ending)))
    · exact takeRequest_refuse hr ((onScreen_valid hn _ _).trans
        ((ofHolder_holder (s := s.taking _ h) holder _).trans (pauseScreen_other ending other)))
    · have paused := pauseScreen_show (s := s.taking (.pause h screen) h) holder show_
      exact takeRequest_accept hr ((onScreen_valid hn _ _).trans
        ((ofHolder_holder (s := s.taking _ h) holder _).trans paused))
  · refine ⟨fun other => ?_, fun holder ending => ?_, fun holder ending other => ?_, fun holder paused => ?_⟩
    · exact takeRequest_refuse hr ((onScreen_valid hn _ _).trans (ofHolder_stranger (s := s.taking _ h) other _))
    · exact takeRequest_refuse hr ((onScreen_valid hn _ _).trans
        ((ofHolder_holder (s := s.taking _ h) holder _).trans (resumeScreen_ending ending)))
    · exact takeRequest_refuse hr ((onScreen_valid hn _ _).trans
        ((ofHolder_holder (s := s.taking _ h) holder _).trans (resumeScreen_other ending other)))
    · have resumed := resumeScreen_paused (s := s.taking (.resume h screen) h) holder paused
      exact takeRequest_accept hr ((onScreen_valid hn _ _).trans
        ((ofHolder_holder (s := s.taking _ h) holder _).trans resumed))
  · refine ⟨fun other => ?_, fun holder ending => ?_, fun holder ending show_ paused => ?_, fun holder playing => ?_⟩
    · exact takeRequest_refuse hr ((onScreen_valid hn _ _).trans (ofHolder_stranger (s := s.taking _ h) other _))
    · exact takeRequest_refuse hr ((onScreen_valid hn _ _).trans
        ((ofHolder_holder (s := s.taking _ h) holder _).trans (endScreen_ending ending)))
    · exact takeRequest_refuse hr ((onScreen_valid hn _ _).trans
        ((ofHolder_holder (s := s.taking _ h) holder _).trans (endScreen_other ending show_ paused)))
    · have began := endScreen_begins (rate := rate) (s := s.taking (.endShow h screen rate) h) holder playing
      exact takeRequest_accept hr ((onScreen_valid hn _ _).trans
        ((ofHolder_holder (s := s.taking _ h) holder _).trans began))
end

section
/-! PROOF. SCREEN SET and the fades (01 R19, R24). -/

namespace Sys2Proof.Machine

/-! ### Selected settings -/

theorem selectNat_value {lo hi : Nat} (h : lo ≤ hi) (v : Option Nat) (kept : Nat) :
    (selectNat lo hi v kept).value = (v.map fun x => max lo (min x hi)).getD kept := by
  cases v with
  | none => rfl
  | some x => exact settingNat_value h x

theorem selectNat_clamped {lo hi : Nat} (h : lo ≤ hi) (v : Option Nat) (kept : Nat) :
    (selectNat lo hi v kept).clamped = true ↔ ∃ x, v = some x ∧ (x < lo ∨ hi < x) := by
  cases v with
  | none => exact ⟨fun e => (by cases e), fun ⟨_, e, _⟩ => (by cases e)⟩
  | some x =>
    show (settingNat lo hi x).clamped = true ↔ _
    rw [settingNat_clamped h, decide_eq_true_iff]
    exact ⟨fun e => ⟨x, rfl, e⟩, fun ⟨_, e, e'⟩ => Option.some.inj e ▸ e'⟩

/-- A setting whose range begins at 0 is clamped from above alone. -/
theorem selectNat_zero_value (hi : Nat) (v : Option Nat) (kept : Nat) :
    (selectNat 0 hi v kept).value = (v.map fun x => min x hi).getD kept := by
  rw [selectNat_value (Nat.zero_le hi)]
  simp only [Nat.zero_max]

theorem selectNat_zero_clamped (hi : Nat) (v : Option Nat) (kept : Nat) :
    (selectNat 0 hi v kept).clamped = true ↔ ∃ x, v = some x ∧ hi < x := by
  rw [selectNat_clamped (Nat.zero_le hi)]
  simp only [Nat.not_lt_zero, false_or]

theorem selectBool_value (v : Option Nat) (kept : Bool) :
    (selectBool v kept).value = (v.map fun x => decide (x ≠ 0)).getD kept := by
  cases v <;> rfl

theorem selectBool_clamped (v : Option Nat) (kept : Bool) :
    (selectBool v kept).clamped = true ↔ ∃ x, v = some x ∧ 1 < x := by
  cases v with
  | none => exact ⟨fun e => (by cases e), fun ⟨_, e, _⟩ => (by cases e)⟩
  | some x =>
    exact ⟨fun e => ⟨x, rfl, of_decide_eq_true e⟩, fun ⟨_, e, e'⟩ => decide_eq_true (Option.some.inj e ▸ e')⟩

/-! ### SCREEN SET -/

theorem ShowState.idle_iff {x : ShowState} : x.idle = true ↔ x = .offline ∨ x = .dark := by
  cases x <;> decide

section
variable {n : Fin 12} {s : State} {c : ScreenConfig}

theorem setRefusal_same (h : c.lipSync = (s.screens.get n).config.lipSync) : s.setRefusal n c = none := if_pos h

theorem setRefusal_busy (h : c.lipSync ≠ (s.screens.get n).config.lipSync) (h' : (s.screens.get n).state.idle = false) :
    s.setRefusal n c = some .state := by
  unfold State.setRefusal
  dsimp only
  rw [if_neg h, h']
  rfl

theorem setRefusal_idle (h : c.lipSync ≠ (s.screens.get n).config.lipSync) (h' : (s.screens.get n).state.idle = true) :
    s.setRefusal n c = s.reallocRefusal (s.lipChanges n c.lipSync) := by
  unfold State.setRefusal
  dsimp only
  rw [if_neg h, h']
  rfl

theorem ScreenConfig.moves_eq_false {old new : ScreenConfig} : old.moves new = false ↔
    new.priority = old.priority ∧ new.fullDraw = old.fullDraw ∧ new.reducedDraw = old.reducedDraw := by
  unfold ScreenConfig.moves
  rw [Bool.or_eq_false_iff, Bool.or_eq_false_iff, decide_eq_false_iff_not, decide_eq_false_iff_not, decide_eq_false_iff_not,
    not_not, not_not, not_not, and_assoc]
  exact ⟨fun ⟨a, b, d⟩ => ⟨a.symm, b.symm, d.symm⟩, fun ⟨a, b, d⟩ => ⟨a.symm, b.symm, d.symm⟩⟩

/-- The configuration stored in a state whose delays have been settled. -/
theorem applyConfig_eq {u : State}
    (h : u = if c.lipSync = (s.screens.get n).config.lipSync then s else reallocate (s.lipChanges n c.lipSync) s) :
    applyConfig n c s =
      if c.priority = (s.screens.get n).config.priority ∧ c.fullDraw = (s.screens.get n).config.fullDraw ∧
          c.reducedDraw = (s.screens.get n).config.reducedDraw then u.modScreen n fun x => { x with config := c }
      else recompute .settings (u.modScreen n fun x => { x with config := c }) := by
  unfold applyConfig
  dsimp only
  rw [← h]
  by_cases moves : (s.screens.get n).config.moves c = true
  · have moved : ¬(c.priority = (s.screens.get n).config.priority ∧ c.fullDraw = (s.screens.get n).config.fullDraw ∧
        c.reducedDraw = (s.screens.get n).config.reducedDraw) := fun e =>
      Bool.false_ne_true ((ScreenConfig.moves_eq_false.2 e).symm.trans moves)
    rw [if_pos moves, if_neg moved]
  · rw [if_neg moves, if_pos (ScreenConfig.moves_eq_false.1 (Bool.eq_false_iff.2 moves))]

theorem actScreenSet_refused {sel : ScreenSel} {why : Reason}
    (h : s.setRefusal n ((s.screens.get n).config.select sel).value = some why) :
    actScreenSet sel n s = .refuse why := by
  simp only [actScreenSet, h]

theorem actScreenSet_stored {sel : ScreenSel} (h : s.setRefusal n ((s.screens.get n).config.select sel).value = none) :
    actScreenSet sel n s =
      .accept (applyConfig n ((s.screens.get n).config.select sel).value s) ((s.screens.get n).config.select sel).clamped [] := by
  simp only [actScreenSet, h]

end

/-! ### The fades -/

theorem Screen.fadeSteps_iff {c : Screen} : c.fadeSteps = true ↔
    c.state = .ending ∧ c.fadeTaken = false ∧ c.rateInEffect.getD c.config.fadeRate ≤ c.fadeCount + 1 := by
  unfold Screen.fadeSteps
  rw [Bool.and_eq_true_iff, Bool.and_eq_true_iff, decide_eq_true_iff, decide_eq_true_iff, Bool.not_eq_true', and_assoc]

theorem Screen.takeFadeStep_due {c : Screen} (h : c.rateInEffect.getD c.config.fadeRate ≤ c.fadeCount + 1) :
    c.takeFadeStep = { c with fadeCount := 0, fadeAtt := c.fadeAtt + 1, fadeTaken := true } := by
  unfold Screen.takeFadeStep Screen.fadeAdvance
  dsimp only
  rw [if_pos h]

theorem Screen.fadeDone_iff {c : Screen} : c.fadeDone = true ↔ c.state = .ending ∧ 80 ≤ c.fadeAtt := by
  unfold Screen.fadeDone
  rw [Bool.and_eq_true_iff, decide_eq_true_iff, decide_eq_true_iff]
  rfl

/-- A screen whose fade is complete. -/
def Screen.faded (c : Screen) : Screen :=
  { c with state := .armed, fadeAtt := 0, fadeCount := 0, rateInEffect := none, fadeTaken := false, stamp := 0 }

/-- What a completed fade leaves of a state. -/
theorem completeFade_leaves (n : Fin 12) (s : State) : ∃ t, completeFade n s = t ∧
    t = { s with
      ports := t.ports, screens := t.screens, outputs := t.outputs, attenuations := t.attenuations,
      alarms := t.alarms, grants := t.grants, pool := t.pool, cues := t.cues, booth := t.booth, context := t.context } ∧
    (∀ m, m ≠ n → t.screens.get m = { s.screens.get m with level := (t.screens.get m).level }) ∧
    t.screens.get n = (s.screens.get n).faded ∧
    t.attenuations = s.attenuations.modify n (fun a => { a with current := 0 }) ∧
    t.alarms = s.alarms.modify n (fun a => { a with loudTrim := 0 }) ∧ t.granted ∧
    (∀ r, r = recompute .demand { s with attenuations := t.attenuations, screens := s.screens.modify n Screen.faded } →
      t = (fireState n .endDone { r with alarms := t.alarms }).notify
        (.showN n .armed .ending (s.screens.get n).holder .fade none none (some (s.meters.get n).showMax))) ∧
    ToneOnly s t := by
  refine ⟨_, rfl, ?_⟩
  have whole : completeFade n s =
      (fireState n .endDone (clearLoudTrim n (recompute .demand (clearBase n (s.modScreen n Screen.faded))))).notifyShow n
        .ending .fade none none
        (some ((clearLoudTrim n (recompute .demand (clearBase n (s.modScreen n Screen.faded)))).meters.get n).showMax) := rfl
  rw [whole]
  have granted := recompute_granted .demand (clearBase n (s.modScreen n Screen.faded))
  have tones := recompute_toneOnly .demand (clearBase n (s.modScreen n Screen.faded))
  obtain ⟨g, o, x, p, frame⟩ := recompute_frame .demand (clearBase n (s.modScreen n Screen.faded))
  generalize hr : recompute .demand (clearBase n (s.modScreen n Screen.faded)) = r at frame granted tones ⊢
  have kept := fireState_cueKept n .endDone (clearLoudTrim n r)
  obtain ⟨b, c, e, q, p', after⟩ := kept.frame
  have screens : (clearLoudTrim n r).screens = s.screens.modify n Screen.faded := by
    rw [frame]
    rfl
  have here : (clearLoudTrim n r).screens.get n = (s.screens.get n).faded := by
    rw [screens, Tab.get_modify, if_pos rfl]
  have own : (fireState n .endDone (clearLoudTrim n r)).screens.get n = (s.screens.get n).faded := by
    have level := kept.levels n (by rw [here]; exact ShowState.noConfusion)
    rw [kept.screens n, level, here]
  have told : (fireState n .endDone (clearLoudTrim n r)).notifyShow n .ending .fade none none
      (some ((clearLoudTrim n r).meters.get n).showMax) =
      (fireState n .endDone (clearLoudTrim n r)).notify
        (.showN n .armed .ending (s.screens.get n).holder .fade none none (some (s.meters.get n).showMax)) := by
    have meters : (clearLoudTrim n r).meters = s.meters := by
      rw [frame]
      rfl
    unfold State.notifyShow
    dsimp only
    rw [own, meters]
    rfl
  rw [told]
  have granted' : (fireState n .endDone (clearLoudTrim n r)).granted := kept.granted (granted_of (s := r) rfl rfl rfl granted)
  refine ⟨?_, fun m other => ?_, own, ?_, ?_, granted_of rfl rfl rfl granted', ?_, ?_⟩
  · rw [after, frame]
    rfl
  · refine (kept.screens m).trans ?_
    rw [screens, Tab.get_modify, if_neg (Ne.symm other)]
    rfl
  · rw [after, frame]
    rfl
  · rw [after, frame]
    rfl
  · intro r' hr'
    have bases : (fireState n .endDone (clearLoudTrim n r)).attenuations = s.attenuations.modify n fun a =>
        { a with current := 0 } := by
      rw [after, frame]
      rfl
    have same : r' = r := by
      refine hr'.trans (Eq.trans ?_ hr)
      exact congrArg (fun l => recompute .demand { s with attenuations := l, screens := s.screens.modify n Screen.faded }) bases
    have alarms : (fireState n .endDone (clearLoudTrim n r)).alarms = (clearLoudTrim n r).alarms := by rw [after]
    rw [same]
    exact congrArg (fun l => (fireState n .endDone { r with alarms := l }).notify _) alarms.symm
  · exact (show ToneOnly s r from tones).trans (.of_outputs (by rw [after]; rfl))

end Sys2Proof.Machine

open Sys2Proof Sys2Proof.Machine

/-- Settles O17: each field by its range. -/
theorem screenSettingsSelected : Obligations.ScreenSettingsSelected := by
  unfold Obligations.ScreenSettingsSelected
  intro c sel
  have rate := selectNat_clamped (show 1 ≤ 255 by decide) sel.fadeRate c.fadeRate
  simp only [Nat.lt_one_iff] at rate
  unfold ScreenConfig.select
  dsimp only
  constructor
  · simp only [selectNat_zero_value, selectNat_value (show 1 ≤ 255 by decide), selectBool_value]
  · simp only [Bool.or_eq_true, decide_eq_true_iff, selectNat_zero_value, selectNat_zero_clamped, selectBool_clamped, rate,
      or_assoc]

/-- Settles O18: SCREEN SET by the lip-sync offset and the refusal of the reallocation. -/
theorem screenSetStores : Obligations.ScreenSetStores := by
  unfold Obligations.ScreenSetStores
  refine ⟨fun h screen sel s out hr => takeRequest_refuse hr (onScreen_invalid (ident_eq_none.2 out) _ _), ?_⟩
  rintro h screen sel n s c hn hr rfl
  refine ⟨fun lip offline dark => ?_, fun why lip idle refused => ?_, fun u settled => ?_⟩
  · have busy : (s.screens.get n).state.idle = false :=
      Bool.eq_false_iff.2 fun e => (ShowState.idle_iff.1 e).elim offline dark
    exact takeRequest_refuse hr ((onScreen_valid hn _ _).trans
      (actScreenSet_refused (s := s.taking _ h) (setRefusal_busy lip busy)))
  · exact takeRequest_refuse hr ((onScreen_valid hn _ _).trans
      (actScreenSet_refused (s := s.taking _ h) ((setRefusal_idle lip (ShowState.idle_iff.2 idle)).trans refused)))
  · have open_ : (s.taking (.screenSet h screen sel) h).setRefusal n ((s.screens.get n).config.select sel).value = none := by
      rcases settled with ⟨lip, -⟩ | ⟨lip, idle, fits, -⟩
      · exact setRefusal_same lip
      · exact (setRefusal_idle lip (ShowState.idle_iff.2 idle)).trans fits
    have stored := actScreenSet_stored (s := s.taking (.screenSet h screen sel) h) open_
    have applied := applyConfig_eq (n := n) (s := s.taking (.screenSet h screen sel) h)
      (c := ((s.screens.get n).config.select sel).value) (u := u) (by
        rcases settled with ⟨lip, e⟩ | ⟨lip, -, -, e⟩
        · exact e.trans (if_pos lip).symm
        · exact e.trans (if_neg lip).symm)
    exact takeRequest_accept hr ((onScreen_valid hn _ _).trans
      (stored.trans (congrArg (fun v => Result.accept v _ _) applied)))

/-- Settles O19: a fade step by its count, and the completion by the attenuation reached. -/
theorem fadeStepAndCompletion : Obligations.FadeStepAndCompletion := by
  unfold Obligations.FadeStepAndCompletion
  intro n s
  refine ⟨fun ending taken rate => ?_, fun idle => ?_, fun idle => ?_, fun ending ended => ?_⟩
  · refine congrArg Host.Outcome.next ((if_pos (Screen.fadeSteps_iff.2 ⟨ending, taken, rate⟩)).trans ?_)
    unfold State.modScreen Tab.modify
    rw [Screen.takeFadeStep_due rate]
  · exact congrArg Host.Outcome.next (if_neg fun e => idle (Screen.fadeSteps_iff.1 e))
  · exact congrArg Host.Outcome.next (if_neg fun e => idle (Screen.fadeDone_iff.1 e))
  · obtain ⟨t, completed, leaves⟩ := completeFade_leaves n s
    refine ⟨t, ?_, leaves⟩
    exact congrArg Host.Outcome.next ((if_pos (Screen.fadeDone_iff.2 ⟨ending, ended⟩)).trans completed)
end

section
/-! PROOF. The assertion and the release of EVAC (01 R22, R23). -/

namespace Sys2Proof.Machine

/-! ### The assertion -/

/-- The tones of every CALIBRATING screen of a list are cleared. -/
theorem clearCalibrating_list (l : List (Fin 12)) (s : State) :
    l.foldl (fun t n => if (t.screens.get n).state = .calibrating then clearTones n t else t) s =
      { s with outputs := s.outputs.map fun o =>
          if ∃ n ∈ l, o.screen = some n ∧ (s.screens.get n).state = .calibrating then { o with toneFlag := false } else o } := by
  induction l generalizing s with
  | nil =>
    refine congrArg (fun x => { s with outputs := x }) (Tab.ext_get fun i => ?_)
    rw [Tab.get_map, if_neg fun ⟨_, h, _⟩ => List.not_mem_nil h]
  | cons k l ih =>
    rw [List.foldl_cons, ih]
    by_cases calibrating : (s.screens.get k).state = .calibrating
    · rw [if_pos calibrating]
      refine congrArg (fun x => { s with outputs := x }) (Tab.ext_get fun i => ?_)
      simp only [clearTones, Tab.get_map]
      by_cases here : (s.outputs.get i).screen = some k
      · rw [if_pos here]
        exact (ite_self _).trans (if_pos ⟨k, List.mem_cons_self, here, calibrating⟩).symm
      · rw [if_neg here]
        refine if_congr ⟨fun ⟨n, hn, h⟩ => ⟨n, List.mem_cons_of_mem k hn, h⟩, fun ⟨n, hn, on, h⟩ => ?_⟩ rfl rfl
        rcases List.mem_cons.1 hn with rfl | hn
        · exact absurd on here
        · exact ⟨n, hn, on, h⟩
    · rw [if_neg calibrating]
      refine congrArg (fun x => { s with outputs := x }) (Tab.ext_get fun i => ?_)
      rw [Tab.get_map, Tab.get_map]
      refine if_congr ⟨fun ⟨n, hn, h⟩ => ⟨n, List.mem_cons_of_mem k hn, h⟩, fun ⟨n, hn, on, h⟩ => ?_⟩ rfl rfl
      rcases List.mem_cons.1 hn with rfl | hn
      · exact absurd h calibrating
      · exact ⟨n, hn, on, h⟩

/-- An output with its tone cleared where its screen is CALIBRATING. -/
def State.silenced (s : State) (o : Output) : Output :=
  if ∃ n, o.screen = some n ∧ (s.screens.get n).state = .calibrating then { o with toneFlag := false } else o

theorem clearCalibrationTones_eq (s : State) :
    clearCalibrationTones s = { s with outputs := s.outputs.map s.silenced } := by
  refine (clearCalibrating_list (List.finRange 12) s).trans ?_
  simp only [List.mem_finRange, true_and]
  rfl

theorem Screen.evacuate_eq (c : Screen) : c.evacuate =
    if c.state.playing = true then
      { c with state := .evacuated, stamp := 0, fadeAtt := 0, fadeCount := 0, rateInEffect := none, fadeTaken := false }
    else c := rfl

theorem Screen.evacuate_calibrating {c : Screen} : c.evacuate.state = .calibrating ↔ c.state = .calibrating := by
  rw [Screen.evacuate_eq]
  split
  · next playing => exact ⟨fun h => (by cases h), fun h => (by rw [h] at playing; cases playing)⟩
  · exact Iff.rfl

/-- The state told of the assertion of EVAC, before the measurement in flight ends. -/
def evacTold (s : State) : State :=
  { s with
    evac := true, screens := s.screens.map Screen.evacuate, booth := s.booth.map fun t => t.map (BoothLine.form true)
    ports := tell (.site (.evac true false) :: (List.finRange 12).filterMap fun n =>
      if (s.screens.get n).state.playing = true then
        some (.showN n .evacuated (s.screens.get n).state (s.screens.get n).holder .evac none none none)
      else none) s.ports }

theorem assertEvac_eq (s : State) :
    assertEvac s = recompute .demand (clearCalibrationTones (abortMeasurement .evac (evacTold s))) := by
  unfold assertEvac
  dsimp only
  rw [notifyChanges_eq]
  refine congrArg (fun u => recompute .demand (clearCalibrationTones (abortMeasurement .evac u))) ?_
  unfold evacTold
  rw [tell_cons]
  refine congrArg (fun l => ({ s with
    evac := true, screens := s.screens.map Screen.evacuate, booth := s.booth.map fun t => t.map (BoothLine.form true)
    ports := tell l (s.ports.map (Port.offer (.site (.evac true false)))) } : State)) ?_
  refine List.filterMap_congr fun n _ => ?_
  show (if (s.screens.get n).state = ((s.screens.map Screen.evacuate).get n).state then none else _) = _
  rw [Tab.get_map, Screen.evacuate_eq]
  by_cases playing : (s.screens.get n).state.playing = true
  · rw [if_pos playing, if_pos playing, if_neg fun e => ?_]
    · show some (Notice.showN n ((s.screens.map Screen.evacuate).get n).state _
        ((s.screens.map Screen.evacuate).get n).holder _ _ _ _) = _
      rw [Tab.get_map, Screen.evacuate_eq, if_pos playing]
    · rw [e] at playing
      cases playing
  · rw [if_neg playing, if_neg playing, if_pos rfl]

/-- What the assertion of EVAC leaves. -/
theorem assertEvac_leaves (s : State) : ∃ t, assertEvac s = t ∧
    t = { s with
      evac := true, ports := t.ports, screens := s.screens.map Screen.evacuate, outputs := t.outputs, grants := t.grants,
      booth := s.booth.map fun t => t.map (BoothLine.form true), context := t.context } ∧
    (CalibrationLaw s → t.context = Context.reset) ∧
    (∀ o n, (s.outputs.get o).screen = some n → (s.screens.get n).state = .calibrating →
      (t.outputs.get o).toneFlag = false) ∧ ToneOnly s t ∧
    (∀ y, y = abortMeasurement .evac (evacTold s) →
      t = recompute .demand { y with outputs := y.outputs.map s.silenced }) ∧
    t.granted := by
  refine ⟨_, rfl, ?_⟩
  rw [assertEvac_eq, clearCalibrationTones_eq]
  have ended : CalibrationLaw s → (abortMeasurement .evac (evacTold s)).context = Context.reset := fun law =>
    abortMeasurement_context (s := evacTold s) law rfl .evac
  have aborted := abortMeasurement_toneOnly .evac (evacTold s)
  obtain ⟨o, x, p, frame⟩ := abortMeasurement_frame .evac (evacTold s)
  generalize hy : abortMeasurement .evac (evacTold s) = y at ended aborted frame ⊢
  have states : ∀ n, (y.screens.get n).state = .calibrating ↔ (s.screens.get n).state = .calibrating := fun n => by
    rw [frame]
    show ((s.screens.map Screen.evacuate).get n).state = _ ↔ _
    rw [Tab.get_map]
    exact Screen.evacuate_calibrating
  have cleared : y.silenced = s.silenced := by
    funext o
    simp only [State.silenced, states]
  rw [cleared]
  generalize hu : ({ y with outputs := y.outputs.map s.silenced } : State) = u
  have tones : ToneOnly y u := fun k => by
    rw [← hu]
    dsimp only
    rw [Tab.get_map, State.silenced]
    split <;> rfl
  have quiet : ∀ o n, (s.outputs.get o).screen = some n → (s.screens.get n).state = .calibrating →
      (u.outputs.get o).toneFlag = false := by
    intro k n on calibrating
    have here : (y.outputs.get k).screen = some n := by
      rw [aborted k]
      exact on
    rw [← hu]
    dsimp only
    rw [Tab.get_map, State.silenced, if_pos ⟨n, here, calibrating⟩]
  have kept := recompute_calibrationKept .demand u
  have only := recompute_toneOnly .demand u
  have granted := recompute_granted .demand u
  obtain ⟨g, o', x', p', after⟩ := recompute_frame .demand u
  refine ⟨?_, fun law => ?_, fun k n on calibrating => ?_, ?_, ?_, granted⟩
  · rw [after, ← hu, frame]
    rfl
  · refine Context.Follows.of_reset ?_
    have start : u.context = Context.reset := by
      rw [← hu]
      exact ended law
    exact start ▸ kept.context
  · exact Bool.eq_false_iff.2 fun set =>
      Bool.false_ne_true ((quiet k n on calibrating).symm.trans (kept.tone k set))
  · exact ((show ToneOnly s y from aborted).trans tones).trans only
  · rintro _ rfl
    rw [hu]

/-! ### The release -/

/-- A new stamp changes stamps alone. -/
theorem takeStamp_unstamped (n : Fin 12) (s : State) (m : Fin 12) :
    ({ (takeStamp n s).screens.get m with stamp := 0 } : Screen) = { s.screens.get m with stamp := 0 } := by
  have base : ∀ k, ({ (stampBase s).screens.get k with stamp := 0 } : Screen) = { s.screens.get k with stamp := 0 } := by
    intro k
    unfold stampBase
    split
    · rw [renumber_screen]
    · rfl
  rw [takeStamp_eq, nextStamp, modScreen_screens, Tab.get_modify]
  split
  · next e => exact e ▸ base n
  · exact base m

/-- Whether a screen is EVACUATED. -/
def State.evacuated (s : State) (n : Fin 12) : Bool := decide ((s.screens.get n).state = .evacuated)

theorem State.evacuated_iff {s : State} {n : Fin 12} : s.evacuated n = true ↔ (s.screens.get n).state = .evacuated :=
  decide_eq_true_iff

theorem returnScreen_frame (n : Fin 12) (s : State) :
    ∃ c k, returnScreen n s = { s with screens := c, stampCounter := k } := by
  unfold returnScreen
  split
  · obtain ⟨c, k, e⟩ := takeStamp_frame n s
    rw [e]
    exact ⟨_, _, rfl⟩
  · exact ⟨s.screens, s.stampCounter, rfl⟩

/-- A screen returned from EVAC, but for its stamp; the others stand, but for theirs. -/
theorem returnScreen_unstamped (k : Fin 12) (s : State) (n : Fin 12) :
    ({ (returnScreen k s).screens.get n with stamp := 0 } : Screen) =
      { s.screens.get n with
        stamp := 0, state := if n = k ∧ s.evacuated n = true then .paused else (s.screens.get n).state } := by
  unfold returnScreen
  by_cases away : (s.screens.get k).state = .evacuated
  · rw [if_pos away, modScreen_screens, Tab.get_modify]
    by_cases same : k = n
    · subst same
      rw [if_pos rfl, if_pos ⟨rfl, State.evacuated_iff.2 away⟩]
      exact congrArg (fun c : Screen => { c with state := .paused }) (takeStamp_unstamped k s k)
    · rw [if_neg same, if_neg fun h => same h.1.symm]
      exact takeStamp_unstamped k s n
  · rw [if_neg away, if_neg]
    rintro ⟨rfl, h⟩
    exact away (State.evacuated_iff.1 h)

theorem returnScreen_state (k : Fin 12) (s : State) (n : Fin 12) : ((returnScreen k s).screens.get n).state =
    if n = k ∧ s.evacuated n = true then .paused else (s.screens.get n).state :=
  congrArg Screen.state (returnScreen_unstamped k s n)

/-- The screens of a list returned from EVAC, but for their stamps. -/
theorem returned_unstamped (l : List (Fin 12)) (s : State) (n : Fin 12) :
    ({ (l.foldl (fun t n => returnScreen n t) s).screens.get n with stamp := 0 } : Screen) =
      { s.screens.get n with
        stamp := 0, state := if n ∈ l ∧ s.evacuated n = true then .paused else (s.screens.get n).state } := by
  induction l using List.reverseRecOn with
  | nil => rw [List.foldl_nil, if_neg fun h => List.not_mem_nil h.1]
  | append_singleton l k ih =>
    rw [List.foldl_append, List.foldl_cons, List.foldl_nil]
    generalize l.foldl (fun t n => returnScreen n t) s = u at ih
    have before : (u.screens.get n).state =
        if n ∈ l ∧ s.evacuated n = true then .paused else (s.screens.get n).state := congrArg Screen.state ih
    refine (returnScreen_unstamped k u n).trans ?_
    refine (congrArg (fun c : Screen => { c with
      state := if n = k ∧ u.evacuated n = true then .paused else (u.screens.get n).state }) ih).trans ?_
    refine congrArg (fun x => ({ s.screens.get n with stamp := 0, state := x } : Screen)) ?_
    rw [State.evacuated, before]
    by_cases away : s.evacuated n = true
    · have state := State.evacuated_iff.1 away
      by_cases mem : n ∈ l
      · simp [mem, away]
      · simp [mem, away, state]
    · have state := fun h => away (State.evacuated_iff.2 h)
      simp only [away, and_false, if_false, Bool.false_eq_true, decide_eq_true_iff]
      exact if_neg fun h => state h.2

theorem stampBase_of_room {s : State} (h : s.stampCounter < 4294967295) : stampBase s = s :=
  if_neg (ne_of_lt (show s.stampCounter < Config.maxStamp from h))

theorem returnScreen_away {k : Fin 12} {s : State} (h : ¬(s.screens.get k).state = .evacuated) : returnScreen k s = s := if_neg h

/-- Where the counter has room, a screen returns with the next stamp and the others keep theirs. -/
theorem returnScreen_stamps {k : Fin 12} {s : State} (h : (s.screens.get k).state = .evacuated)
    (room : s.stampCounter < 4294967295) :
    (returnScreen k s).stampCounter = s.stampCounter + 1 ∧
    ∀ n, ((returnScreen k s).screens.get n).stamp = if n = k then s.stampCounter + 1 else (s.screens.get n).stamp := by
  have returned : returnScreen k s = (nextStamp k s).modScreen k fun c => { c with state := .paused } := by
    rw [returnScreen, if_pos h, takeStamp_eq, stampBase_of_room room]
  rw [returned]
  refine ⟨rfl, fun n => ?_⟩
  simp only [nextStamp, State.modScreen, Tab.get_modify]
  by_cases same : k = n
  · subst same
    simp only [if_true]
  · rw [if_neg same, if_neg same, if_neg (Ne.symm same)]

/-- The screens of an ascending list take the stamps that follow the counter's, in its order. -/
theorem returned_stamps {l : List (Fin 12)} (hl : l.Pairwise (· < ·)) (s : State)
    (room : s.stampCounter + l.length ≤ 4294967295) :
    (l.foldl (fun t n => returnScreen n t) s).stampCounter = s.stampCounter + (l.filter s.evacuated).length ∧
    ∀ n, ((l.foldl (fun t n => returnScreen n t) s).screens.get n).stamp =
      if n ∈ l ∧ s.evacuated n = true then
        s.stampCounter + (l.filter fun m => decide (m ≤ n ∧ s.evacuated m = true)).length
      else (s.screens.get n).stamp := by
  induction l using List.reverseRecOn with
  | nil => exact ⟨rfl, fun n => (if_neg fun h => List.not_mem_nil h.1).symm⟩
  | append_singleton l k ih =>
    obtain ⟨front, -, below⟩ := List.pairwise_append.1 hl
    have less : ∀ m ∈ l, m < k := fun m hm => below m hm k (List.mem_singleton_self k)
    rw [List.length_append] at room
    obtain ⟨counter, stamps⟩ := ih front (by omega)
    have screens := fun n => congrArg Screen.state (returned_unstamped l s n)
    rw [List.foldl_append, List.foldl_cons, List.foldl_nil]
    generalize l.foldl (fun t n => returnScreen n t) s = u at counter stamps screens ⊢
    have fresh : k ∉ l := fun h => lt_irrefl k (less k h)
    have same : (u.screens.get k).state = (s.screens.get k).state := by
      refine (screens k).trans ?_
      exact if_neg fun h => fresh h.1
    have count := List.length_filter_le s.evacuated l
    rw [List.filter_append, List.length_append]
    by_cases away : (s.screens.get k).state = .evacuated
    · have flag := State.evacuated_iff.2 away
      obtain ⟨next, after⟩ := returnScreen_stamps (same.trans away) (by simp at room; omega)
      rw [next, counter, List.filter_cons_of_pos flag]
      refine ⟨rfl, fun n => ?_⟩
      rw [after, counter, stamps, List.filter_append, List.length_append]
      by_cases here : n = k
      · subst here
        have all : (l.filter fun m => decide (m ≤ n ∧ s.evacuated m = true)) = l.filter s.evacuated :=
          List.filter_congr fun m hm => by simp [(less m hm).le]
        rw [if_pos rfl, if_pos ⟨List.mem_append_right l (List.mem_singleton_self n), flag⟩, all]
        simp [flag, Nat.add_assoc]
      · rw [if_neg here]
        by_cases mem : n ∈ l
        · simp [here, mem, not_le.2 (less n mem)]
        · simp [here, mem]
    · have flag := Bool.eq_false_iff.2 fun h => away (State.evacuated_iff.1 h)
      rw [returnScreen_away fun h => away (same.symm.trans h), counter, List.filter_cons_of_neg (by rw [flag]; decide)]
      refine ⟨rfl, fun n => ?_⟩
      rw [stamps, List.filter_append, List.length_append]
      refine if_congr ⟨fun h => ⟨List.mem_append_left _ h.1, h.2⟩, fun h => ⟨?_, h.2⟩⟩ ?_ rfl
      · refine (List.mem_append.1 h.1).resolve_right fun e => ?_
        rw [List.mem_singleton.1 e, flag] at h
        exact Bool.false_ne_true h.2
      · simp [flag]

/-- The screens that the release of EVAC returns. -/
def returnedAll (s : State) : State := overScreens returnScreen { s with evac := false }

theorem returnedAll_frame (s : State) :
    ∃ c k, returnedAll s = { s with evac := false, screens := c, stampCounter := k } := by
  refine overScreens_induct (P := fun t => ∃ c k, t = { s with evac := false, screens := c, stampCounter := k })
    ⟨_, _, rfl⟩ ?_
  rintro n _ ⟨c, k, rfl⟩
  obtain ⟨c', k', e⟩ := returnScreen_frame n { s with evac := false, screens := c, stampCounter := k }
  exact ⟨c', k', e⟩

theorem returnedAll_unstamped (s : State) (n : Fin 12) : ({ (returnedAll s).screens.get n with stamp := 0 } : Screen) =
    { s.screens.get n with
      stamp := 0, state := if (s.screens.get n).state = .evacuated then .paused else (s.screens.get n).state } := by
  refine (returned_unstamped (List.finRange 12) { s with evac := false } n).trans ?_
  refine congrArg (fun x => ({ s.screens.get n with stamp := 0, state := x } : Screen)) ?_
  exact if_congr ((and_iff_right (List.mem_finRange n)).trans State.evacuated_iff) rfl rfl

/-- The state told of the release of EVAC. -/
def returnTold (s : State) : State :=
  { returnedAll s with
    booth := s.booth.map fun t => t.map (BoothLine.form false)
    ports := tell (.site (.evac false true) :: (List.finRange 12).filterMap fun n =>
      if (s.screens.get n).state = .evacuated then
        some (.showN n .paused .evacuated (s.screens.get n).holder .release none none none)
      else none) s.ports }

theorem releaseEvac_eq (s : State) : releaseEvac s = recompute .demand (returnTold s) := by
  have unfolded : releaseEvac s = recompute .demand
      (notifyChanges s.screens .release ((formLines (returnedAll s)).notify (.site (.evac false true)))) := rfl
  rw [unfolded, notifyChanges_eq]
  refine congrArg (recompute .demand) ?_
  have state := fun n => congrArg Screen.state (returnedAll_unstamped s n)
  have holder := fun n => congrArg Screen.holder (returnedAll_unstamped s n)
  dsimp only at state holder
  have notices : ((List.finRange 12).filterMap fun n =>
      if (s.screens.get n).state = ((returnedAll s).screens.get n).state then none
      else some (Notice.showN n ((returnedAll s).screens.get n).state (s.screens.get n).state
        ((returnedAll s).screens.get n).holder .release none none none)) =
      (List.finRange 12).filterMap fun n => if (s.screens.get n).state = .evacuated then
        some (.showN n .paused .evacuated (s.screens.get n).holder .release none none none) else none := by
    refine List.filterMap_congr fun n _ => ?_
    rw [state, holder]
    by_cases away : (s.screens.get n).state = .evacuated
    · rw [if_pos away, if_pos away, away, if_neg ShowState.noConfusion]
    · rw [if_neg away, if_neg away, if_pos rfl]
  obtain ⟨c, k, frame⟩ := returnedAll_frame s
  unfold returnTold
  rw [tell_cons, ← notices, frame]
  rfl

theorem releaseEvac_leaves (s : State) : ∃ t, releaseEvac s = t ∧
    t = { s with
      evac := false, ports := t.ports, screens := t.screens, stampCounter := t.stampCounter, outputs := t.outputs,
      grants := t.grants, booth := s.booth.map fun t => t.map (BoothLine.form false), context := t.context } ∧
    t.screens = (returnedAll s).screens ∧ t = recompute .demand (returnTold s) ∧ ToneOnly s t ∧ t.granted := by
  refine ⟨_, rfl, ?_⟩
  rw [releaseEvac_eq]
  have tones := recompute_toneOnly .demand (returnTold s)
  have granted := recompute_granted .demand (returnTold s)
  obtain ⟨g, o, x, p, after⟩ := recompute_frame .demand (returnTold s)
  obtain ⟨c, k, frame⟩ := returnedAll_frame s
  have outputs : (returnTold s).outputs = s.outputs := by simp only [returnTold, frame]
  have screens : (returnTold s).screens = (returnedAll s).screens := by simp only [returnTold]
  have only : ToneOnly s (returnTold s) := .of_outputs outputs
  refine ⟨?_, (recompute_screens _ _).trans screens, rfl, only.trans tones, granted⟩
  rw [after, returnTold, frame]

end Sys2Proof.Machine

open Sys2Proof Sys2Proof.Machine

/-- Settles O20: the assertion and the release of EVAC, and a line held already. -/
theorem evacMovesScreens : Obligations.EvacMovesScreens := by
  unfold Obligations.EvacMovesScreens
  intro s
  refine ⟨fun active => ?_, fun idle => ?_, fun idle => ?_, fun active => ?_⟩
  · exact congrArg Host.Outcome.next (if_pos active)
  · exact congrArg Host.Outcome.next (if_neg (Bool.eq_false_iff.1 idle))
  · obtain ⟨t, asserted, frame, context, quiet, tones, told, granted⟩ := assertEvac_leaves s
    have screens : t.screens = s.screens.map Screen.evacuate := by rw [frame]
    have booth : t.booth = s.booth.map fun t => t.map (BoothLine.form true) := by rw [frame]
    refine ⟨t, congrArg Host.Outcome.next ((if_neg (Bool.eq_false_iff.1 idle)).trans asserted), ?_, fun n => ?_, fun n l => ?_,
      context, quiet, tones, fun y hy => told y (hy.trans ?_), granted⟩
    · rw [frame]
    · rw [screens, Tab.get_map]
      exact Screen.evacuate_eq _
    · unfold State.line
      rw [booth, Tab.get_map, Tab.get_map]
      rfl
    · rw [screens, booth]
      rfl
  · obtain ⟨t, released, frame, screens, told, tones, granted⟩ := releaseEvac_leaves s
    have booth : t.booth = s.booth.map fun t => t.map (BoothLine.form false) := by rw [frame]
    refine ⟨t, congrArg Host.Outcome.next ((if_pos active).trans released), ?_, fun n => ?_, fun room n => ?_, fun n l => ?_,
      fun x hx => ?_, tones, granted⟩
    · rw [frame]
    · rw [screens]
      exact returnedAll_unstamped s n
    · have ascending : (List.finRange 12).Pairwise (· < ·) := (List.sortedLT_finRange 12).pairwise
      obtain ⟨-, stamps⟩ := returned_stamps ascending { s with evac := false } (by simpa using room)
      rw [screens]
      refine (stamps n).trans ?_
      refine if_congr ((and_iff_right (List.mem_finRange n)).trans State.evacuated_iff) ?_ rfl
      refine congrArg (fun l => s.stampCounter + List.length l) (List.filter_congr fun m _ => ?_)
      exact decide_eq_decide.2 (and_congr_right fun _ => State.evacuated_iff)
    · unfold State.line
      rw [booth, Tab.get_map, Tab.get_map]
      rfl
    · have same : x = returnedAll s := hx
      rw [booth, same]
      exact told
end

section
/-! PROOF. OUTPUT MAP, the debounce of the line reports, and EXCLUDE and INCLUDE (03 R49, R50, 07 R131 to R137). -/

namespace Sys2Proof.Machine

/-! ### OUTPUT MAP -/

theorem Role.ofCode_eq_none {k : Nat} : Role.ofCode k = none ↔ k = 0 ∨ 12 < k := by
  rw [← Option.not_isSome_iff_eq_none, Role.ofCode_isSome]
  omega

theorem readAssign_eq_none {screen role : Nat} :
    readAssign (some (screen, role)) = none ↔ screen = 0 ∨ 12 < screen ∨ role = 0 ∨ 12 < role := by
  rw [← Role.ofCode_eq_none, ← or_assoc, ← ident_eq_none]
  cases hi : ident 12 screen with
  | none => simp only [readAssign, hi, true_or]
  | some n =>
    cases hr : Role.ofCode role with
    | none => simp only [readAssign, hi, hr, or_true]
    | some r => simp only [readAssign, hi, hr, reduceCtorEq, or_self]

theorem readAssign_eq_some {screen role : Nat} {n : Fin 12} {r : Role} :
    readAssign (some (screen, role)) = some (some (n, r)) ↔ screen = number n ∧ role = r.code := by
  have named : screen = number n ↔ ident 12 screen = some n := ident_eq_some.symm
  have coded : role = r.code ↔ Role.ofCode role = some r := Role.ofCode_eq_some.symm
  rw [named, coded]
  cases hi : ident 12 screen with
  | none => simp only [readAssign, hi, reduceCtorEq, false_and]
  | some m =>
    cases hr : Role.ofCode role with
    | none => simp only [readAssign, hi, hr, reduceCtorEq, and_false]
    | some q => simp only [readAssign, hi, hr, Option.some.injEq, Prod.mk.injEq]

section
variable {o : Fin 192} {new : Option (Fin 12 × Role)} {s : State}

theorem State.busyPlace_iff {place : Option (Fin 12 × Role)} : s.busyPlace place = true ↔
    ∃ n r, place = some (n, r) ∧ (s.screens.get n).state ≠ .offline ∧ (s.screens.get n).state ≠ .dark := by
  cases place with
  | none => exact ⟨fun e => (by cases e), fun ⟨_, _, e, _⟩ => (by cases e)⟩
  | some p =>
    have idle : s.busyPlace (some p) = true ↔ ¬(s.screens.get p.1).state.idle = true := by
      show (!(s.screens.get p.1).state.idle) = true ↔ _
      rw [Bool.not_eq_true', Bool.not_eq_true]
    rw [idle, ShowState.idle_iff, not_or]
    exact ⟨fun h => ⟨p.1, p.2, rfl, h⟩, fun ⟨_, _, e, h⟩ => Option.some.inj e ▸ h⟩

theorem State.screenFull_iff {old : Option (Fin 12 × Role)} : s.screenFull old new = true ↔
    ∃ n r, new = some (n, r) ∧ old.map Prod.fst ≠ some n ∧ 32 ≤ (s.outputsOf n).length := by
  cases new with
  | none => exact ⟨fun e => (by cases e), fun ⟨_, _, e, _⟩ => (by cases e)⟩
  | some p =>
    have full : s.screenFull old (some p) = true ↔ old.map Prod.fst ≠ some p.1 ∧ 32 ≤ (s.outputsOf p.1).length := by
      show (decide (old.map Prod.fst ≠ some p.1) && decide (32 ≤ (s.outputsOf p.1).length)) = true ↔ _
      rw [Bool.and_eq_true_iff, decide_eq_true_iff, decide_eq_true_iff]
    rw [full]
    exact ⟨fun h => ⟨p.1, p.2, rfl, h⟩, fun ⟨_, _, e, h⟩ => Option.some.inj e ▸ h⟩

theorem mapOutput_busy (h : ∃ n r, ((s.outputs.get o).place = some (n, r) ∨ new = some (n, r)) ∧
    (s.screens.get n).state ≠ .offline ∧ (s.screens.get n).state ≠ .dark) : mapOutput o new s = .refuse .state := by
  refine if_pos (Bool.or_eq_true_iff.2 ?_)
  obtain ⟨n, r, old | now, busy⟩ := h
  · exact .inl (State.busyPlace_iff.2 ⟨n, r, old, busy⟩)
  · exact .inr (State.busyPlace_iff.2 ⟨n, r, now, busy⟩)

/-- OUTPUT MAP between screens that are OFFLINE or DARK. -/
theorem mapOutput_idle (h : ∀ n r, ((s.outputs.get o).place = some (n, r) ∨ new = some (n, r)) →
    (s.screens.get n).state = .offline ∨ (s.screens.get n).state = .dark) :
    mapOutput o new s =
      if s.screenFull (s.outputs.get o).place new then .refuse .noroom
      else if s.offsetAt (s.outputs.get o).place = s.offsetAt new then .ok (s.modOutput o fun x => { x with place := new })
      else
        match s.reallocRefusal [s.placeChange o new] with
        | some why => .refuse why
        | none => .ok ((reallocate [s.placeChange o new] s).modOutput o fun x => { x with place := new }) := by
  refine (if_neg fun busy => ?_).trans rfl
  rcases Bool.or_eq_true_iff.1 busy with e | e <;> obtain ⟨n, r, at_, offline, dark⟩ := State.busyPlace_iff.1 e
  · exact (h n r (.inl at_)).elim offline dark
  · exact (h n r (.inr at_)).elim offline dark

/-- OUTPUT MAP onto a screen with room. -/
theorem mapOutput_room (h : ∀ n r, ((s.outputs.get o).place = some (n, r) ∨ new = some (n, r)) →
      (s.screens.get n).state = .offline ∨ (s.screens.get n).state = .dark)
    (room : ∀ n r, new = some (n, r) → (s.outputs.get o).screen = some n ∨ (s.outputsOf n).length < 32) :
    mapOutput o new s =
      if s.offsetAt (s.outputs.get o).place = s.offsetAt new then .ok (s.modOutput o fun x => { x with place := new })
      else
        match s.reallocRefusal [s.placeChange o new] with
        | some why => .refuse why
        | none => .ok ((reallocate [s.placeChange o new] s).modOutput o fun x => { x with place := new }) := by
  refine (mapOutput_idle h).trans (if_neg fun full => ?_)
  obtain ⟨n, r, now, other, many⟩ := State.screenFull_iff.1 full
  exact (room n r now).elim other (Nat.not_lt.2 many)

theorem mapOutput_full (h : ∀ n r, ((s.outputs.get o).place = some (n, r) ∨ new = some (n, r)) →
      (s.screens.get n).state = .offline ∨ (s.screens.get n).state = .dark)
    (full : ∃ n r, new = some (n, r) ∧ (s.outputs.get o).screen ≠ some n ∧ 32 ≤ (s.outputsOf n).length) :
    mapOutput o new s = .refuse .noroom := (mapOutput_idle h).trans (if_pos (State.screenFull_iff.2 full))

theorem actOutputMap_unread {assign : Option (Nat × Nat)} (h : readAssign assign = none) :
    actOutputMap assign o s = .refuse .range := by
  simp only [actOutputMap, h]

theorem actOutputMap_read {assign : Option (Nat × Nat)} (h : readAssign assign = some new) :
    actOutputMap assign o s = mapOutput o new s := by
  simp only [actOutputMap, h]

end

/-! ### The debounce -/

section
variable {r : HealthRecord} {c : LineClass}

/-- Where the reports are counted: nothing is settled, or a SUSPECT output has another class settled. -/
theorem debounce_counting (h : r.health = .unknown ∨ r.health = .suspect ∧ r.settled ≠ some c) :
    debounce r c = countReport r c := by
  unfold debounce
  rcases h with e | ⟨e, other⟩
  · rw [e]
  · rw [e]
    exact if_neg other

theorem debounce_settled (h : r.health = .good ∨ r.health = .driftingLow ∨ r.health = .driftingHigh ∨ r.health = .failedOpen) :
    debounce r c = meetReport r c := by
  unfold debounce
  rcases h with e | e | e | e <;> rw [e]

theorem debounce_restored (h : r.health = .suspect) (same : r.settled = some c) : debounce r c =
    { health := c.settledState, settled := r.settled, candidate := none, count := 0, settles := false } := by
  unfold debounce
  rw [h]
  exact if_pos same

theorem countReport_new (h : r.candidate ≠ some c) : countReport r c =
    { health := r.health, settled := r.settled, candidate := some c, count := 1, settles := false } := if_neg h

theorem countReport_again (h : r.candidate = some c) (few : r.count + 1 < 3) : countReport r c =
    { health := r.health, settled := r.settled, candidate := some c, count := r.count + 1, settles := false } :=
  (if_pos h).trans (if_neg (Nat.not_le.2 few))

theorem countReport_settles (h : r.candidate = some c) (enough : 3 ≤ r.count + 1) : countReport r c =
    { health := c.settledState, settled := some c, candidate := none, count := 0, settles := true } :=
  (if_pos h).trans (if_pos enough)

/-- A report that settles nothing leaves the faults. -/
theorem HealthRecord.take_quiet (h : (debounce r c).settles = false) (z : Nat) (f : LastFault) :
    (r.take z c f).lastFault = r.lastFault ∧ (r.take z c f).openFaults = r.openFaults ∧
      (r.take z c f).shortFaults = r.shortFaults ∧ (r.take z c f).lowFaults = r.lowFaults ∧
      (r.take z c f).highFaults = r.highFaults := by
  unfold HealthRecord.take
  dsimp only
  rw [if_neg (Bool.eq_false_iff.1 h)]
  exact ⟨rfl, rfl, rfl, rfl, rfl⟩

theorem HealthRecord.take_settles (h : (debounce r c).settles = true) (z : Nat) (f : LastFault) :
    r.take z c f = HealthRecord.countFault c f { r with
      health := (debounce r c).health, settled := (debounce r c).settled, candidate := (debounce r c).candidate,
      count := (debounce r c).count, lastZ := some z } := if_pos h

end

/-! ### EXCLUDE and INCLUDE -/

section
variable {o : Fin 192} {previous : Health} {cause : HealthCause} {z : Option Nat} {station : Option (Fin 16)} {s : State}

theorem healthChanged_excluded (new : (s.outputs.get o).sense.health = .excluded) (old : previous ≠ .excluded) :
    healthChanged o previous cause z station s =
      abortTarget o .excluded (s.notify (.health o (s.outputs.get o).screen .excluded previous cause z station)) := by
  unfold healthChanged
  dsimp only
  rw [new, if_neg old.symm]
  rfl

theorem healthChanged_unknown (new : (s.outputs.get o).sense.health = .unknown) (old : previous ≠ .unknown) :
    healthChanged o previous cause z station s =
      s.notify (.health o (s.outputs.get o).screen .unknown previous cause z station) := by
  unfold healthChanged
  dsimp only
  rw [new, if_neg old.symm]
  rfl

end

theorem abortTarget_idle {o : Fin 192} {c : AbortCause} {s : State}
    (h : ∀ n g, s.context.phase ≠ .idle → s.context.screen = some n → s.context.target = some g → o ∉ s.targetOutputs n g) :
    abortTarget o c s = s := by
  unfold abortTarget
  split
  · next n g screen target =>
    refine if_neg fun e => ?_
    obtain ⟨flies, held⟩ := Bool.and_eq_true_iff.1 e
    exact h n g (of_decide_eq_true flies) screen target (List.contains_iff_mem.1 held)
  · rfl

theorem abortTarget_held {o : Fin 192} {c : AbortCause} {s : State} {n : Fin 12} {g : Target} (flies : s.context.phase ≠ .idle)
    (screen : s.context.screen = some n) (target : s.context.target = some g) (held : o ∈ s.targetOutputs n g) :
    abortTarget o c s = ({ clearTones n s with context := Context.reset } : State).notify
      (.measure n g (.aborted c s.context.phase s.context.background)) := by
  have running : s.context.inFlight = true := decide_eq_true flies
  have holds : (s.targetOutputs n g).contains o = true := List.contains_iff_mem.2 held
  simp only [abortTarget, abortMeasurement, screen, target, running, holds, Bool.and_self, if_true]

/-- An output that is excluded, told before its measurement ends. -/
def excludedTold (o : Fin 192) (station : Fin 16) (s : State) : State :=
  (s.modOutput o fun y =>
    { y with sense := { y.sense with health := .excluded, settled := none, candidate := none, count := 0 } }).notify
    (.health o (s.outputs.get o).screen .excluded (s.outputs.get o).sense.health .exclude none (some station))

theorem modOutput_get_same (o : Fin 192) (f : Output → Output) (s : State) :
    (s.modOutput o f).outputs.get o = f (s.outputs.get o) := (Tab.get_modify _ _ _ _).trans (if_pos rfl)

theorem excludedTold_place (o : Fin 192) (station : Fin 16) (s : State) (k : Fin 192) :
    ((excludedTold o station s).outputs.get k).place = (s.outputs.get k).place := by
  unfold excludedTold State.modOutput State.notify
  dsimp only
  rw [Tab.get_modify]
  split
  · next e => exact e ▸ rfl
  · rfl

theorem excluded_eq {o : Fin 192} {s : State} (h : (s.outputs.get o).sense.health ≠ .excluded) (station : Fin 16) :
    excluded o station s = abortTarget o .excluded (excludedTold o station s) := by
  unfold excluded
  rw [healthChanged_excluded (congrArg (fun x : Output => x.sense.health) (modOutput_get_same o _ s)) h, modOutput_get_same]
  rfl

theorem included_eq {o : Fin 192} {s : State}
    (h : (s.outputs.get o).sense.health = .excluded ∨ (s.outputs.get o).sense.health = .failedShort) (station : Fin 16) :
    included o station s =
      (s.modOutput o fun x =>
        { x with
          sense := { x.sense with health := .unknown, settled := none, candidate := none, count := 0 }, driveOn := true }).notify
        (.health o (s.outputs.get o).screen .unknown (s.outputs.get o).sense.health .incl none (some station)) := by
  have old : (s.outputs.get o).sense.health ≠ .unknown := by
    rcases h with e | e <;> rw [e] <;> decide
  unfold included
  rw [healthChanged_unknown (congrArg (fun x : Output => x.sense.health) (modOutput_get_same o _ s)) old, modOutput_get_same]
  rfl

theorem actInclude_good {h : Header} {o : Fin 192} {s : State} (e : (s.outputs.get o).sense.health ≠ .excluded)
    (e' : (s.outputs.get o).sense.health ≠ .failedShort) : actInclude h o s = .refuse .state := by
  unfold actInclude
  split
  · next q => exact absurd q e
  · next q => exact absurd q e'
  · rfl

theorem actInclude_bad {h : Header} {o : Fin 192} {s : State}
    (bad : (s.outputs.get o).sense.health = .excluded ∨ (s.outputs.get o).sense.health = .failedShort) :
    actInclude h o s = .ok (included o h.station s) := by
  unfold actInclude
  rcases bad with e | e <;> rw [e]

end Sys2Proof.Machine

open Sys2Proof Sys2Proof.Machine

/-- Settles O31: OUTPUT MAP by the order of its checks. -/
theorem outputMapMoves : Obligations.OutputMapMoves := by
  unfold Obligations.OutputMapMoves
  refine ⟨fun _ _ => readAssign_eq_none, fun _ _ _ _ => readAssign_eq_some, rfl, fun h output assign s hr => ⟨fun unread => ?_,
    fun o new ho read => ⟨fun busy => ?_, fun idle => ⟨fun full => ?_, fun room => ⟨fun same => ?_, fun why moved refused => ?_,
      fun moved fits => ?_⟩⟩⟩⟩⟩
  · refine takeRequest_refuse hr ?_
    rcases unread with out | unread
    · exact onOutput_invalid out _ _
    · cases ho : ident 192 output with
      | none => exact onOutput_invalid ho _ _
      | some o => exact (onOutput_valid ho _ _).trans (actOutputMap_unread unread)
  · exact takeRequest_refuse hr ((onOutput_valid ho _ _).trans
      ((actOutputMap_read read).trans (mapOutput_busy (s := s.taking _ h) busy)))
  · exact takeRequest_refuse hr ((onOutput_valid ho _ _).trans
      ((actOutputMap_read read).trans (mapOutput_full (s := s.taking _ h) idle full)))
  · have mapped := (mapOutput_room (s := s.taking (.outputMap h output assign) h) idle room).trans (if_pos same)
    exact takeRequest_accept hr ((onOutput_valid ho _ _).trans ((actOutputMap_read read).trans mapped))
  · have mapped := (mapOutput_room (s := s.taking (.outputMap h output assign) h) idle room).trans (if_neg moved)
    have kept : (s.taking (.outputMap h output assign) h).reallocRefusal
        [(s.taking (.outputMap h output assign) h).placeChange o new] = some why := refused
    rw [kept] at mapped
    exact takeRequest_refuse hr ((onOutput_valid ho _ _).trans ((actOutputMap_read read).trans mapped))
  · have mapped := (mapOutput_room (s := s.taking (.outputMap h output assign) h) idle room).trans (if_neg moved)
    have kept : (s.taking (.outputMap h output assign) h).reallocRefusal
        [(s.taking (.outputMap h output assign) h).placeChange o new] = none := fits
    rw [kept] at mapped
    exact takeRequest_accept hr ((onOutput_valid ho _ _).trans ((actOutputMap_read read).trans mapped))

/-- Settles O44: the table of the debounce, and the faults that a settling counts. -/
theorem healthDebounced : Obligations.HealthDebounced := by
  unfold Obligations.HealthDebounced
  refine fun r c => ⟨fun counting new => ?_, fun counting again few => ?_, fun counting again enough => ?_, debounce_restored,
    fun settled => ⟨fun same => ?_, fun other => ?_⟩, rfl, fun z f => ?_⟩
  · exact (debounce_counting counting).trans (countReport_new new)
  · exact (debounce_counting counting).trans (countReport_again again few)
  · exact (debounce_counting counting).trans (countReport_settles again enough)
  · exact (debounce_settled settled).trans (if_pos same)
  · exact (debounce_settled settled).trans (if_neg other)
  · cases settles : (debounce r c).settles with
    | false =>
      obtain ⟨last, opened, short, low, high⟩ := HealthRecord.take_quiet settles z f
      refine ⟨fun h => (by cases h.1), fun _ => last, ?_, ?_, ?_, ?_⟩
      · exact opened.trans (if_neg fun h => Bool.false_ne_true h.1).symm
      · exact short.trans (if_neg fun h => Bool.false_ne_true h.1).symm
      · exact low.trans (if_neg fun h => Bool.false_ne_true h.1).symm
      · exact high.trans (if_neg fun h => Bool.false_ne_true h.1).symm
    | true =>
      rw [HealthRecord.take_settles settles]
      cases c with
      | good => exact ⟨fun h => absurd rfl h.2, fun _ => rfl, rfl, rfl, rfl, rfl⟩
      | _ => exact ⟨fun _ => rfl, fun h => absurd ⟨rfl, LineClass.noConfusion⟩ h, rfl, rfl, rfl, rfl⟩

/-- Settles O45: EXCLUDE with the measurement that its output's loss ends, and INCLUDE. -/
theorem excludeAndInclude : Obligations.ExcludeAndInclude := by
  unfold Obligations.ExcludeAndInclude
  refine ⟨fun h output s out => ⟨fun hr => ?_, fun hr => ?_⟩, fun h output o s ho => ⟨fun hr => ⟨fun already => ?_, ?_⟩,
    fun hr => ⟨fun e e' => ?_, fun bad => ?_⟩⟩⟩
  · exact takeRequest_refuse hr (onOutput_invalid (ident_eq_none.2 out) _ _)
  · exact takeRequest_refuse hr (onOutput_invalid (ident_eq_none.2 out) _ _)
  · exact takeRequest_accept hr ((onOutput_valid ho _ _).trans (if_pos already))
  · intro x fresh hx
    have told : x = excludedTold o h.station (s.taking (.exclude h output) h) := hx
    have acted : actExclude h o (s.taking (.exclude h output) h) = .ok (abortTarget o .excluded x) := by
      rw [told, ← excluded_eq (s := s.taking (.exclude h output) h) fresh]
      exact if_neg fresh
    have ran : exec (.exclude h output) s = .next ((abortTarget o .excluded x).answering h (doneAnswer h 31 false [])) :=
      takeRequest_accept hr ((onOutput_valid ho _ _).trans acted)
    have places : ∀ k, (x.outputs.get k).place = (s.outputs.get k).place := fun k => by
      rw [told]
      exact excludedTold_place o h.station _ k
    have context : x.context = s.context := by
      rw [told]
      rfl
    refine ⟨fun away => ?_, fun n g flies screen target held => ?_⟩
    · rw [ran, abortTarget_idle]
      intro n g flies screen target
      rw [context] at flies screen target
      rw [State.targetOutputs_of_place places]
      exact away n g flies screen target
    · rw [← State.targetOutputs_of_place places] at held
      rw [← context] at flies screen target ⊢
      refine ⟨{ clearTones n x with context := Context.reset }, ?_, rfl, fun k => ?_⟩
      · rw [ran, abortTarget_held flies screen target held]
      · have screen : (x.outputs.get k).screen = (s.outputs.get k).screen := congrArg (Option.map Prod.fst) (places k)
        rw [← screen]
        exact Tab.get_map _ _ k
  · exact takeRequest_refuse hr ((onOutput_valid ho _ _).trans (actInclude_good (s := s.taking _ h) e e'))
  · have changed := included_eq (s := s.taking (.includeOutput h output) h) bad h.station
    have acted := actInclude_bad (h := h) (s := s.taking (.includeOutput h output) h) bad
    rw [changed] at acted
    exact takeRequest_accept hr ((onOutput_valid ho _ _).trans acted)
end

section
/-! PROOF. LEVEL, ALARM SET, SENSE SET and BUDGET SET, and the booth lines (01 R20, 06 R122, 07 R130, 08 R142, 09 R165 to
R167). -/

namespace Sys2Proof.Machine

/-! ### Requests of the holder or of MANAGEMENT -/

section
variable {h : Header} {n : Fin 12} {s : State}

theorem State.mayCommand_iff {station : Fin 16} : s.mayCommand n station = true ↔
    (s.screens.get n).holder = some station ∨ roleOf station = .management := by
  rw [State.mayCommand, Bool.or_eq_true_iff, State.holds_iff, isManagement_iff]

theorem ofHolderOrManagement_may (may : (s.screens.get n).holder = some h.station ∨ roleOf h.station = .management)
    (act : Fin 12 → State → Result) : ofHolderOrManagement h act n s = act n s := if_pos (State.mayCommand_iff.2 may)

theorem ofHolderOrManagement_stranger (other : (s.screens.get n).holder ≠ some h.station)
    (role : roleOf h.station ≠ .management) (act : Fin 12 → State → Result) :
    ofHolderOrManagement h act n s = .refuse .held :=
  if_neg fun e => (State.mayCommand_iff.1 e).elim other role

end

/-! ### Settings -/

theorem setLevel_eq (value : Nat) (n : Fin 12) (s : State) : setLevel value n s =
    .accept (s.modScreen n fun c => { c with level := min value 100 }) (decide (100 < value)) [] := by
  have stored := settingNat_value (Nat.zero_le 100) value
  have clamped := settingNat_clamped (Nat.zero_le 100) value
  rw [Nat.zero_max] at stored
  simp only [Nat.not_lt_zero, false_or] at clamped
  simp only [setLevel, stored, clamped]

theorem AlarmSettings.select_value (c : AlarmSettings) (sel : AlarmSel) : (c.select sel).value =
    { peakLimit := (sel.peakLimit.map fun v => min v 255).getD c.peakLimit
      loudLimit := (sel.loudLimit.map fun v => min v 255).getD c.loudLimit
      silenceFloor := (sel.silenceFloor.map fun v => min v 255).getD c.silenceFloor
      silenceRun := (sel.silenceRun.map fun v => max 1 (min v 60)).getD c.silenceRun
      clipLimit := (sel.clipLimit.map fun v => min v 65535).getD c.clipLimit
      raiseHold := (sel.raiseHold.map fun v => min v 15).getD c.raiseHold
      clearHold := (sel.clearHold.map fun v => max 1 (min v 15)).getD c.clearHold
      autoTrim := (sel.autoTrim.map fun v => decide (v ≠ 0)).getD c.autoTrim
      trimMax := (sel.trimMax.map fun v => min v 24).getD c.trimMax } := by
  simp only [AlarmSettings.select, selectNat_zero_value, selectNat_value (show 1 ≤ 60 by decide),
    selectNat_value (show 1 ≤ 15 by decide), selectBool_value]

theorem AlarmSettings.select_clamped (c : AlarmSettings) (sel : AlarmSel) : (c.select sel).clamped = true ↔
    (∃ v, sel.peakLimit = some v ∧ 255 < v) ∨ (∃ v, sel.loudLimit = some v ∧ 255 < v) ∨
    (∃ v, sel.silenceFloor = some v ∧ 255 < v) ∨ (∃ v, sel.silenceRun = some v ∧ (v = 0 ∨ 60 < v)) ∨
    (∃ v, sel.clipLimit = some v ∧ 65535 < v) ∨ (∃ v, sel.raiseHold = some v ∧ 15 < v) ∨
    (∃ v, sel.clearHold = some v ∧ (v = 0 ∨ 15 < v)) ∨ (∃ v, sel.autoTrim = some v ∧ 1 < v) ∨
    (∃ v, sel.trimMax = some v ∧ 24 < v) := by
  have run := selectNat_clamped (show 1 ≤ 60 by decide) sel.silenceRun c.silenceRun
  have hold := selectNat_clamped (show 1 ≤ 15 by decide) sel.clearHold c.clearHold
  simp only [Nat.lt_one_iff] at run hold
  simp only [AlarmSettings.select, Bool.or_eq_true, selectNat_zero_clamped, selectBool_clamped, run, hold, or_assoc]

theorem Budget.select_value (b : Budget) (sel : BudgetSel) : (b.select sel).value = { b with
    mains := (sel.mains.map fun v => min v 65535).getD b.mains
    generator := (sel.generator.map fun v => min v 65535).getD b.generator
    battery := (sel.battery.map fun v => min v 65535).getD b.battery
    batteryLow := (sel.batteryLow.map fun v => min v 65535).getD b.batteryLow
    reserve := (sel.reserve.map fun v => min v 65535).getD b.reserve } := by
  simp only [Budget.select, selectNat_zero_value]

theorem Budget.select_clamped (b : Budget) (sel : BudgetSel) : (b.select sel).clamped = true ↔
    (∃ v, sel.mains = some v ∧ 65535 < v) ∨ (∃ v, sel.generator = some v ∧ 65535 < v) ∨
    (∃ v, sel.battery = some v ∧ 65535 < v) ∨ (∃ v, sel.batteryLow = some v ∧ 65535 < v) ∨
    (∃ v, sel.reserve = some v ∧ 65535 < v) := by
  simp only [Budget.select, Bool.or_eq_true, selectNat_zero_clamped, or_assoc]

/-- The thresholds that a SENSE SET carries or keeps, each in its range. -/
def Thresholds.carried (c : Thresholds) (sel : SenseSel) : Thresholds :=
  { shortMax := (sel.shortMax.map fun v => min v 4092).getD c.shortMax
    lowDrift := (sel.lowDrift.map fun v => max 1 (min v 4093)).getD c.lowDrift
    highDrift := (sel.highDrift.map fun v => max 1 (min v 4094)).getD c.highDrift
    openMin := (sel.openMin.map fun v => max 2 (min v 4095)).getD c.openMin }

theorem Thresholds.select_value (c : Thresholds) (sel : SenseSel) :
    (c.select sel).value = orderThresholds (c.carried sel) := by
  simp only [Thresholds.select, Thresholds.carried, selectNat_zero_value, selectNat_value (show 1 ≤ 4093 by decide),
    selectNat_value (show 1 ≤ 4094 by decide), selectNat_value (show 2 ≤ 4095 by decide)]

theorem Thresholds.select_clamped (c : Thresholds) (sel : SenseSel) : (c.select sel).clamped = true ↔
    ((∃ v, sel.shortMax = some v ∧ 4092 < v) ∨ (∃ v, sel.lowDrift = some v ∧ (v = 0 ∨ 4093 < v)) ∨
      (∃ v, sel.highDrift = some v ∧ (v = 0 ∨ 4094 < v)) ∨ (∃ v, sel.openMin = some v ∧ (v < 2 ∨ 4095 < v))) ∨
    orderThresholds (c.carried sel) ≠ c.carried sel := by
  have low := selectNat_clamped (show 1 ≤ 4093 by decide) sel.lowDrift c.lowDrift
  have high := selectNat_clamped (show 1 ≤ 4094 by decide) sel.highDrift c.highDrift
  simp only [Nat.lt_one_iff] at low high
  simp only [Thresholds.select, Thresholds.carried, Bool.or_eq_true, decide_eq_true_iff, selectNat_zero_clamped, low, high,
    selectNat_clamped (show 2 ≤ 4095 by decide), selectNat_zero_value, selectNat_value (show 1 ≤ 4093 by decide),
    selectNat_value (show 1 ≤ 4094 by decide), selectNat_value (show 2 ≤ 4095 by decide), or_assoc]

/-- A value in its range is stored as it is carried. -/
theorem carried_of_range {f : Nat → Nat} {p : Nat → Prop} {v : Option Nat} {kept : Nat} (h : ∀ x, ¬p x → f x = x)
    (range : ¬∃ x, v = some x ∧ p x) : (v.map f).getD kept = v.getD kept := by
  cases v with
  | none => rfl
  | some x => exact h x fun out => range ⟨x, rfl, out⟩

/-- A value beyond its maximum is not stored as it is carried. -/
theorem carried_of_beyond {v : Option Nat} {kept top : Nat} (h : ∃ x, v = some x ∧ top < x) :
    (v.map fun x => min x top).getD kept ≠ v.getD kept := by
  obtain ⟨x, rfl, beyond⟩ := h
  show min x top ≠ x
  omega

/-- The answer of a SENSE SET tells whether a carried value is stored as another, in its range or by the order. -/
theorem Thresholds.select_clamped_iff {c t : Thresholds} {sel : SenseSel} (ht : t = orderThresholds (c.carried sel)) :
    (c.select sel).clamped = true ↔
      t.shortMax ≠ sel.shortMax.getD c.shortMax ∨ t.lowDrift ≠ sel.lowDrift.getD c.lowDrift ∨
      t.highDrift ≠ sel.highDrift.getD c.highDrift ∨ t.openMin ≠ sel.openMin.getD c.openMin ∨
      (∃ v, sel.lowDrift = some v ∧ (v = 0 ∨ 4093 < v)) ∨ (∃ v, sel.highDrift = some v ∧ (v = 0 ∨ 4094 < v)) ∨
      (∃ v, sel.openMin = some v ∧ (v < 2 ∨ 4095 < v)) := by
  have short : t.shortMax = (c.carried sel).shortMax := by
    rw [ht]
    rfl
  rw [Thresholds.select_clamped, ← ht]
  by_cases low : ∃ v, sel.lowDrift = some v ∧ (v = 0 ∨ 4093 < v)
  · simp only [low, true_or, or_true]
  by_cases high : ∃ v, sel.highDrift = some v ∧ (v = 0 ∨ 4094 < v)
  · simp only [high, true_or, or_true]
  by_cases open_ : ∃ v, sel.openMin = some v ∧ (v < 2 ∨ 4095 < v)
  · simp only [open_, true_or, or_true]
  by_cases beyond : ∃ v, sel.shortMax = some v ∧ 4092 < v
  · have differs : t.shortMax ≠ sel.shortMax.getD c.shortMax := by
      rw [short]
      exact carried_of_beyond beyond
    simp only [beyond, differs, true_or, ne_eq, not_false_eq_true]
  have same : c.carried sel = ⟨sel.shortMax.getD c.shortMax, sel.lowDrift.getD c.lowDrift, sel.highDrift.getD c.highDrift,
      sel.openMin.getD c.openMin⟩ := by
    unfold Thresholds.carried
    rw [carried_of_range (fun x => by omega) beyond, carried_of_range (fun x => by omega) low,
      carried_of_range (fun x => by omega) high, carried_of_range (fun x => by omega) open_]
  obtain ⟨a, b, g, e⟩ := t
  simp only [same, low, high, open_, beyond, or_false, false_or, Thresholds.mk.injEq, ne_eq]
  tauto

/-! ### The booth lines -/

theorem onLine_valid {line : Nat} {l : Fin 8} (h : ident 8 line = some l) (f : Fin 8 → State → Result) (s : State) :
    onLine line f s = f l s := by
  simp only [onLine, h]

theorem onLine_invalid {line : Nat} (h : line = 0 ∨ 8 < line) (f : Fin 8 → State → Result) (s : State) :
    onLine line f s = .refuse .range := by
  simp only [onLine, ident_eq_none.2 h]

theorem BoothLine.shown_eq (e : Bool) (x : BoothLine) : x.shown e =
    if e = true ∧ x.setting = .on then true else if e = true ∧ x.setting = .off then false else x.commanded := by
  unfold BoothLine.shown
  cases e <;> cases x.setting <;> rfl

theorem EvacSetting.ofCode_eq_none {k : Nat} (h : 2 < k) : EvacSetting.ofCode k = Option.none := by
  match k, h with
  | k + 3, _ => rfl

theorem commandLength_pulse (k : Nat) : commandLength (.pulse k) =
    { value := max 1 (min k 65535), clamped := decide (k = 0 ∨ 65535 < k) } := by
  have value := settingNat_value (show 1 ≤ 65535 by decide) k
  have clamped := settingNat_clamped (show 1 ≤ 65535 by decide) k
  simp only [Nat.lt_one_iff] at clamped
  show settingNat 1 65535 k = _
  rw [← value, ← clamped]

/-- What a LINE SET commands, as its own fields tell. -/
theorem setLine_eq {command : LineCommand} {value clamped : Bool} {pulse : Nat}
    (h : command = .on ∧ value = true ∧ pulse = 0 ∧ clamped = false ∨
      command = .off ∧ value = false ∧ pulse = 0 ∧ clamped = false ∨
      ∃ k, command = .pulse k ∧ value = true ∧ pulse = max 1 (min k 65535) ∧ clamped = decide (k = 0 ∨ 65535 < k))
    (n : Fin 12) (l : Fin 8) (s : State) :
    setLine command n l s = .accept (s.modLine n l (BoothLine.command value pulse)) clamped [] := by
  rcases h with ⟨rfl, rfl, rfl, rfl⟩ | ⟨rfl, rfl, rfl, rfl⟩ | ⟨k, rfl, rfl, rfl, rfl⟩
  · rfl
  · rfl
  · rw [setLine, commandLength_pulse]
    rfl

theorem BoothLine.pulseEnds_iff {x : BoothLine} : x.pulseEnds = true ↔ x.pulse = 1 ∧ x.counted = false := by
  rw [BoothLine.pulseEnds, Bool.and_eq_true_iff, decide_eq_true_iff, Bool.not_eq_true']

theorem tickLines_line (n : Fin 12) (l : Fin 8) (s : State) : (tickLines s).line n l = (s.line n l).tick.form s.evac := by
  simp only [tickLines, State.line, Tab.get_map]

theorem BoothLine.tick_counted {x : BoothLine} (h : x.counted = true) : x.tick = { x with counted := false } := if_pos h

theorem BoothLine.tick_open {x : BoothLine} (h : x.counted = false) : x.tick =
    if x.pulse = 0 then x else if x.pulse = 1 then x.endPulse else { x with pulse := x.pulse - 1 } :=
  if_neg (Bool.eq_false_iff.1 h)

end Sys2Proof.Machine

open Sys2Proof Sys2Proof.Machine

/-- Settles O41: each setting by its ranges. -/
theorem settingsStored : Obligations.SettingsStored := by
  unfold Obligations.SettingsStored
  refine ⟨fun h screen s out => ⟨fun value hr => ?_, fun sel hr => ?_⟩, fun h output sel s out hr => ?_,
    fun h screen value n s hn hr => ⟨fun may => ?_, fun other role => ?_⟩, ?_, ?_, ?_⟩
  · exact takeRequest_refuse hr (onScreen_invalid (ident_eq_none.2 out) _ _)
  · exact takeRequest_refuse hr (onScreen_invalid (ident_eq_none.2 out) _ _)
  · exact takeRequest_refuse hr (onOutput_invalid (ident_eq_none.2 out) _ _)
  · exact takeRequest_accept hr ((onScreen_valid hn _ _).trans
      ((ofHolderOrManagement_may (s := s.taking _ h) may _).trans (setLevel_eq _ _ _)))
  · exact takeRequest_refuse hr ((onScreen_valid hn _ _).trans
      (ofHolderOrManagement_stranger (s := s.taking _ h) other role _))
  · rintro h screen sel n s c hn hr rfl
    exact ⟨_, _, takeRequest_accept hr ((onScreen_valid hn _ _).trans rfl), AlarmSettings.select_value _ _,
      AlarmSettings.select_clamped _ _⟩
  · rintro h output sel o s c a b g e ho hr rfl ha hb hg he
    have ordered : (⟨a, b, g, e⟩ : Thresholds) = orderThresholds ((s.outputs.get o).thresholds.carried sel) := by
      subst he hg hb ha
      rfl
    refine ⟨((s.outputs.get o).thresholds.select sel).clamped, ?_, Thresholds.select_clamped_iff ordered⟩
    rw [ordered, ← Thresholds.select_value]
    exact takeRequest_accept hr ((onOutput_valid ho _ _).trans rfl)
  · rintro h sel s b hr rfl
    refine ⟨(s.budget.select sel).clamped, ?_, Budget.select_clamped _ _⟩
    rw [← Budget.select_value]
    exact takeRequest_accept hr rfl

/-- Settles O48: LINE SET, LINE EVAC SET, the end of a pulse and the count of a house block. -/
theorem linesAndPulses : Obligations.LinesAndPulses := by
  unfold Obligations.LinesAndPulses
  refine ⟨fun h screen line s out => ⟨fun command hr => ?_, fun setting hr => ?_⟩, fun h screen line n s hn =>
    ⟨fun command hr => ⟨fun other role => ?_, fun may => ⟨fun out => ?_, fun l value pulse clamped hl kind => ?_⟩⟩,
      fun setting hr => ⟨fun out => ?_, fun l e hl kind => ?_⟩⟩, fun n l s => ⟨fun idle => ?_, fun one open_ => ?_⟩,
    fun x => ⟨BoothLine.tick_counted, fun h h' => ?_, fun h h' => ?_, fun k h h' => ?_⟩, fun n l s => tickLines_line n l s⟩
  · exact takeRequest_refuse hr (onScreen_invalid (ident_eq_none.2 out) _ _)
  · exact takeRequest_refuse hr (onScreen_invalid (ident_eq_none.2 out) _ _)
  · exact takeRequest_refuse hr ((onScreen_valid hn _ _).trans
      (ofHolderOrManagement_stranger (s := s.taking _ h) other role _))
  · exact takeRequest_refuse hr ((onScreen_valid hn _ _).trans
      ((ofHolderOrManagement_may (s := s.taking _ h) may _).trans (onLine_invalid out _ _)))
  · refine ⟨_, takeRequest_accept hr ((onScreen_valid hn _ _).trans
      ((ofHolderOrManagement_may (s := s.taking _ h) may _).trans ((onLine_valid hl _ _).trans (setLine_eq kind _ _ _)))),
      rfl, fun m k => ?_⟩
    refine (modLine_line n m l k _ _).trans ?_
    rw [BoothLine.form, BoothLine.shown_eq]
    rfl
  · refine takeRequest_refuse hr ((onScreen_valid hn _ _).trans ?_)
    rcases out with none_ | none_ | beyond
    · exact onLine_invalid (.inl none_) _ _
    · exact onLine_invalid (.inr none_) _ _
    · cases hl : ident 8 line with
      | none => simp only [onLine, hl]
      | some l =>
        refine (onLine_valid hl _ _).trans ?_
        simp only [setLineEvac, EvacSetting.ofCode_eq_none beyond]
  · have stored : setLineEvac setting n l (s.taking (.lineEvacSet h screen line setting) h) =
        .ok ((s.taking (.lineEvacSet h screen line setting) h).modLine n l fun x => { x with setting := e }) := by
      rcases kind with ⟨rfl, rfl⟩ | ⟨rfl, rfl⟩ | ⟨rfl, rfl⟩ <;> rfl
    refine ⟨_, takeRequest_accept hr ((onScreen_valid hn _ _).trans ((onLine_valid hl _ _).trans stored)), rfl,
      fun m k => ?_⟩
    refine (modLine_line n m l k _ _).trans ?_
    rw [BoothLine.form, BoothLine.shown_eq]
    rfl
  · exact congrArg Host.Outcome.next (if_neg fun e => idle (BoothLine.pulseEnds_iff.1 e))
  · exact congrArg Host.Outcome.next (if_pos (BoothLine.pulseEnds_iff.2 ⟨one, open_⟩))
  · exact (BoothLine.tick_open h).trans (if_pos h')
  · exact (BoothLine.tick_open h).trans ((if_neg (by rw [h']; decide)).trans (if_pos h'))
  · rw [BoothLine.tick_open h, h', if_neg (Nat.succ_ne_zero _), if_neg (by omega)]
    rfl
end

section
/-! PROOF. The requests of the Calibration Unit and the phases of a measurement (10 R171 to R176). -/

namespace Sys2Proof.Machine

/-! ### Targets -/

theorem Context.inFlight_iff {c : Context} : c.inFlight = true ↔ c.phase ≠ .idle := decide_eq_true_iff

theorem targetOutputs_reference (s : State) (n : Fin 12) : s.targetOutputs n .reference =
    (List.finRange 192).filter fun o =>
      decide ((s.outputs.get o).place = some (n, .l) ∨ (s.outputs.get o).place = some (n, .c) ∨
        (s.outputs.get o).place = some (n, .r)) := by
  unfold State.targetOutputs State.referenceGroup State.outputsOf
  rw [List.filter_filter]
  refine List.filter_congr fun o _ => ?_
  unfold Output.role Output.screen
  cases (s.outputs.get o).place with
  | none => simp
  | some p =>
    obtain ⟨m, r⟩ := p
    cases r <;> simp [Role.reference]

theorem readTarget_output {s : State} {n : Fin 12} {k : Nat} {o : Fin 192} (h : k = o.val + 1)
    (on : (s.outputs.get o).screen = some n) : s.readTarget n (some k) = some (.output o) := by
  refine (readTarget_eq_some (s := s)).2 (.inr ⟨o, ?_, on, rfl⟩)
  rw [h]
  rfl

theorem readTarget_eq_none {s : State} {n : Fin 12} {target : Option Nat} : s.readTarget n target = none ↔
    ∃ k, target = some k ∧ ∀ o : Fin 192, k = o.val + 1 → (s.outputs.get o).screen ≠ some n := by
  rw [Option.eq_none_iff_forall_ne_some]
  constructor
  · intro h
    cases target with
    | none => exact absurd rfl (h .reference)
    | some k => exact ⟨k, rfl, fun o ho on => h _ (readTarget_output ho on)⟩
  · rintro ⟨k, rfl, away⟩ t ht
    rcases (readTarget_eq_some (s := s)).1 ht with ⟨e, -⟩ | ⟨o, e, on, -⟩
    · cases e
    · exact away o (Option.some.inj e) on

section
variable {s : State} {n : Fin 12} {target : Option Nat}

theorem onTarget_read {g : Target} (h : s.readTarget n target = some g) (act : Target → Fin 12 → State → Result) :
    onTarget target act n s = act g n s := by
  simp only [onTarget, h]

theorem onTarget_unread (h : s.readTarget n target = none) (act : Target → Fin 12 → State → Result) :
    onTarget target act n s = .refuse .range := by
  simp only [onTarget, h]

end

theorem setTones_output (l : List (Fin 192)) (on : Bool) (s : State) (o : Fin 192) : (setTones l on s).outputs.get o =
    if o ∈ l then { s.outputs.get o with toneFlag := on } else s.outputs.get o :=
  (Tab.get_update _ _ _).trans (if_congr List.contains_iff_mem rfl rfl)

theorem clearTones_get (n : Fin 12) (s : State) (o : Fin 192) : (clearTones n s).outputs.get o =
    if (s.outputs.get o).screen = some n then { s.outputs.get o with toneFlag := false } else s.outputs.get o :=
  Tab.get_map _ _ o

theorem abortMeasurement_none {s : State} (h : s.context.phase = .idle ∨ s.context.screen = none ∨ s.context.target = none)
    (c : AbortCause) : abortMeasurement c s = s := by
  unfold abortMeasurement
  dsimp only
  split
  · next flies screen target =>
    rcases h with e | e | e
    · exact absurd e (of_decide_eq_true flies)
    · cases screen.symm.trans e
    · cases target.symm.trans e
  · rfl

theorem abortMeasurement_running {s : State} {n : Fin 12} {g : Target} (flies : s.context.phase ≠ .idle)
    (screen : s.context.screen = some n) (target : s.context.target = some g) (c : AbortCause) :
    abortMeasurement c s = ({ clearTones n s with context := Context.reset } : State).notify
      (.measure n g (.aborted c s.context.phase s.context.background)) := by
  have running : s.context.inFlight = true := decide_eq_true flies
  simp only [abortMeasurement, running, screen, target]

/-! ### TONE -/

theorem toneGainOf_eq (gain : Option Int) (kept : Int) : toneGainOf gain kept =
    { value := (gain.map fun v => max (-40) (min v 0)).getD kept, clamped := gain.any fun v => decide (v < -40 ∨ 0 < v) } := by
  cases gain with
  | none => rfl
  | some v =>
    have value := settingInt_value (show (-40 : Int) ≤ 0 by decide) v
    have clamped := settingInt_clamped (show (-40 : Int) ≤ 0 by decide) v
    show settingInt (-40) 0 v = { value := max (-40) (min v 0), clamped := decide (v < -40 ∨ 0 < v) }
    rw [← value, ← clamped]

section
variable {h : Header} {n : Fin 12} {s : State} {g : Target}

theorem State.holds_eq_false {station : Fin 16} (other : (s.screens.get n).holder ≠ some station) : s.holds n station = false :=
  Bool.eq_false_iff.2 fun e => other (State.holds_iff.1 e)

/-- No measurement is in flight on the screen. -/
theorem onScreen_eq_false {c : Context} (away : c.phase = .idle ∨ c.screen ≠ some n) : c.onScreen n = false := by
  refine Bool.eq_false_iff.2 fun on => ?_
  obtain ⟨flies, here⟩ := Context.onScreen_iff.1 on
  exact away.elim (Context.inFlight_iff.1 flies) fun e => e here

theorem setTone_refused {on : Bool} {gain : Option Int} {why : Reason}
    (fails : (s.screens.get n).holder ≠ some h.station ∧ why = .held ∨
      (s.screens.get n).holder = some h.station ∧ (s.screens.get n).state ≠ .calibrating ∧ why = .state ∨
      (s.screens.get n).holder = some h.station ∧ (s.screens.get n).state = .calibrating ∧ s.evac = true ∧ why = .evac ∨
      (s.screens.get n).holder = some h.station ∧ (s.screens.get n).state = .calibrating ∧ s.evac = false ∧
        s.context.phase ≠ .idle ∧ s.context.screen = some n ∧ why = .busy) : setTone h on gain g n s = .refuse why := by
  unfold setTone
  rcases fails with ⟨other, rfl⟩ | ⟨holder, state, rfl⟩ | ⟨holder, state, evac, rfl⟩ | ⟨holder, state, calm, flies, here, rfl⟩
  · rw [State.holds_eq_false other]
    rfl
  · rw [State.holds_iff.2 holder, if_neg (by decide), if_pos state]
  · rw [State.holds_iff.2 holder, if_neg (by decide), if_neg (not_not_intro state), if_pos evac]
  · rw [State.holds_iff.2 holder, if_neg (by decide), if_neg (not_not_intro state), if_neg (Bool.eq_false_iff.1 calm),
      if_pos (Context.onScreen_iff.2 ⟨decide_eq_true flies, here⟩)]

theorem setTone_runs {on : Bool} {gain : Option Int} (holder : (s.screens.get n).holder = some h.station)
    (state : (s.screens.get n).state = .calibrating) (calm : s.evac = false)
    (away : s.context.phase = .idle ∨ s.context.screen ≠ some n) :
    setTone h on gain g n s =
      .accept { setTones (s.targetOutputs n g) on s with toneGain := (gain.map fun v => max (-40) (min v 0)).getD s.toneGain }
        (gain.any fun v => decide (v < -40 ∨ 0 < v)) [] := by
  unfold setTone
  rw [State.holds_iff.2 holder, if_neg (by decide), if_neg (not_not_intro state), if_neg (Bool.eq_false_iff.1 calm),
    if_neg (Bool.eq_false_iff.1 (onScreen_eq_false away)), toneGainOf_eq]

/-! ### MEASURE -/

theorem targetOut_iff : s.targetOut n g = true ↔
    s.targetOutputs n g = [] ∨ ∃ o ∈ s.targetOutputs n g, (s.outputs.get o).sense.health.inService = false := by
  rw [State.targetOut, Bool.or_eq_true_iff, List.isEmpty_iff, List.any_eq_true]
  refine or_congr Iff.rfl (exists_congr fun o => and_congr Iff.rfl ?_)
  rw [Bool.not_eq_true']
  rfl

theorem beginMeasure_refused {why : Reason}
    (fails : (s.screens.get n).holder ≠ some h.station ∧ why = .held ∨
      (s.screens.get n).holder = some h.station ∧
        ((s.screens.get n).state ≠ .calibrating ∧ why = .state ∨
        (s.screens.get n).state = .calibrating ∧
          (s.context.phase ≠ .idle ∧ why = .busy ∨
          s.context.phase = .idle ∧
            (s.evac = true ∧ why = .evac ∨
            s.evac = false ∧
              ((s.lanes.get 13).sync ≠ .locked ∧ why = .lane ∨
              (s.lanes.get 13).sync = .locked ∧
                ((s.grants.get n).status = .suspended ∧ why = .nopower ∨
                (s.grants.get n).status ≠ .suspended ∧
                  (s.targetOutputs n g = [] ∨ ∃ o ∈ s.targetOutputs n g,
                    (s.outputs.get o).sense.health.inService = false) ∧ why = .state)))))) :
    beginMeasure h g n s = .refuse why := by
  unfold beginMeasure
  rcases fails with ⟨other, rfl⟩ | ⟨holder, fails⟩
  · rw [State.holds_eq_false other]
    rfl
  rw [State.holds_iff.2 holder, if_neg (by decide)]
  rcases fails with ⟨state, rfl⟩ | ⟨state, fails⟩
  · exact if_pos state
  rw [if_neg (not_not_intro state)]
  rcases fails with ⟨flies, rfl⟩ | ⟨idle, fails⟩
  · exact if_pos (decide_eq_true flies)
  rw [if_neg fun flies => Context.inFlight_iff.1 flies idle]
  rcases fails with ⟨evac, rfl⟩ | ⟨calm, fails⟩
  · exact if_pos evac
  rw [if_neg (Bool.eq_false_iff.1 calm)]
  rcases fails with ⟨lane, rfl⟩ | ⟨lane, fails⟩
  · exact if_pos lane
  rw [if_neg (not_not_intro (show (s.lanes.get measurementLane).sync = .locked from lane))]
  rcases fails with ⟨suspended, rfl⟩ | ⟨granted, out, rfl⟩
  · exact if_pos suspended
  · rw [if_neg granted]
    exact if_pos (targetOut_iff.2 out)

theorem beginMeasure_runs (holder : (s.screens.get n).holder = some h.station)
    (state : (s.screens.get n).state = .calibrating) (idle : s.context.phase = .idle) (calm : s.evac = false)
    (lane : (s.lanes.get 13).sync = .locked) (granted : (s.grants.get n).status ≠ .suspended)
    (some_ : s.targetOutputs n g ≠ [])
    (service : ∀ o ∈ s.targetOutputs n g, (s.outputs.get o).sense.health.inService = true) :
    beginMeasure h g n s = .ok { clearTones n s with
      context := Context.begin n g h.station, measureStepped := false } := by
  have fit : ¬s.targetOut n g = true := fun out => by
    rcases targetOut_iff.1 out with e | ⟨o, ho, e⟩
    · exact some_ e
    · exact Bool.false_ne_true (e.symm.trans (service o ho))
  unfold beginMeasure
  rw [State.holds_iff.2 holder, if_neg (by decide), if_neg (not_not_intro state),
    if_neg fun flies => Context.inFlight_iff.1 flies idle, if_neg (Bool.eq_false_iff.1 calm),
    if_neg (not_not_intro (show (s.lanes.get measurementLane).sync = .locked from lane)), if_neg granted, if_neg fit]

/-! ### ABORT -/

theorem actAbort_stranger (other : (s.screens.get n).holder ≠ some h.station) : actAbort h n s = .refuse .held := by
  rw [actAbort, State.holds_eq_false other]
  rfl

theorem actAbort_idle (holder : (s.screens.get n).holder = some h.station)
    (away : s.context.phase = .idle ∨ s.context.screen ≠ some n) : actAbort h n s = .refuse .state := by
  rw [actAbort, State.holds_iff.2 holder, onScreen_eq_false away]
  rfl

theorem actAbort_running (holder : (s.screens.get n).holder = some h.station) (flies : s.context.phase ≠ .idle)
    (screen : s.context.screen = some n) (target : s.context.target = some g) :
    actAbort h n s = .ok (({ clearTones n s with context := Context.reset } : State).notify
      (.measure n g (.aborted .abort s.context.phase s.context.background))) := by
  rw [actAbort, State.holds_iff.2 holder, Context.onScreen_iff.2 ⟨decide_eq_true flies, screen⟩,
    abortMeasurement_running flies screen target]
  rfl

end

end Sys2Proof.Machine

open Sys2Proof Sys2Proof.Machine

/-- Settles O49: each request by the order of its checks. -/
theorem calibrationRequests : Obligations.CalibrationRequests := by
  unfold Obligations.CalibrationRequests
  refine ⟨fun cause s => ⟨fun idle => abortMeasurement_none idle cause, fun n g flies screen target =>
      abortMeasurement_running flies screen target cause⟩, fun s n => ⟨fun _ => rfl, targetOutputs_reference s n⟩,
    fun h screen s out => ⟨fun target action gain hr => ?_, fun target hr => ?_, fun hr => ?_⟩,
    fun h screen n s hn => ⟨rfl, fun k o => readTarget_output, fun target => readTarget_eq_none, fun target action gain hr =>
      ⟨fun wrong => ?_, fun g why read low fails => ?_, fun g read low holder state calm away => ?_⟩, fun target hr =>
      ⟨fun unread => ?_, fun g why read fails => ?_, fun g read holder state idle calm lane granted some_ service => ?_⟩,
      fun hr => ⟨fun other => ?_, fun holder away => ?_, fun g holder flies screen' target => ?_⟩, fun v hr => ?_, fun hr => ?_⟩⟩
  · exact takeRequest_refuse hr (onScreen_invalid (ident_eq_none.2 out) _ _)
  · exact takeRequest_refuse hr (onScreen_invalid (ident_eq_none.2 out) _ _)
  · exact takeRequest_refuse hr (onScreen_invalid (ident_eq_none.2 out) _ _)
  · refine takeRequest_refuse hr ((onScreen_valid hn _ _).trans ?_)
    cases read : (s.taking (.tone h screen target action gain) h).readTarget n target with
    | none => exact onTarget_unread read _
    | some g =>
      refine (onTarget_read read _).trans (if_pos (wrong.resolve_left fun unread => ?_))
      cases read.symm.trans unread
  · exact takeRequest_refuse hr ((onScreen_valid hn _ _).trans ((onTarget_read (s := s.taking _ h) read _).trans
      ((if_neg (Nat.not_lt.2 low)).trans (setTone_refused (s := s.taking _ h) fails))))
  · have set := setTone_runs (h := h) (g := g) (on := decide (action = 0)) (gain := gain)
      (s := s.taking (.tone h screen target action gain) h) holder state calm away
    exact ⟨_, takeRequest_accept hr ((onScreen_valid hn _ _).trans ((onTarget_read (s := s.taking _ h) read _).trans
      ((if_neg (Nat.not_lt.2 low)).trans set))), rfl, fun o => setTones_output _ _ (s.taking _ h) o⟩
  · exact takeRequest_refuse hr ((onScreen_valid hn _ _).trans (onTarget_unread (s := s.taking _ h) unread _))
  · exact takeRequest_refuse hr ((onScreen_valid hn _ _).trans ((onTarget_read (s := s.taking _ h) read _).trans
      (beginMeasure_refused (s := s.taking _ h) fails)))
  · have begun := beginMeasure_runs (h := h) (g := g) (s := s.taking (.measure h screen target) h) holder state idle calm
      lane granted some_ service
    exact ⟨_, takeRequest_accept hr ((onScreen_valid hn _ _).trans ((onTarget_read (s := s.taking _ h) read _).trans begun)),
      rfl, fun o => clearTones_get n (s.taking _ h) o⟩
  · exact takeRequest_refuse hr ((onScreen_valid hn _ _).trans (actAbort_stranger (s := s.taking _ h) other))
  · exact takeRequest_refuse hr ((onScreen_valid hn _ _).trans (actAbort_idle (s := s.taking _ h) holder away))
  · have aborted := actAbort_running (h := h) (s := s.taking (.abort h screen) h) holder flies screen' target
    exact ⟨{ clearTones n (s.taking (.abort h screen) h) with context := Context.reset },
      takeRequest_accept hr ((onScreen_valid hn _ _).trans aborted), rfl, fun o => clearTones_get n (s.taking _ h) o⟩
  · have value := settingInt_value (show (-128 : Int) ≤ 127 by decide) v
    have clamped := settingInt_clamped (show (-128 : Int) ≤ 127 by decide) v
    rw [← value, ← clamped]
    exact takeRequest_accept hr rfl
  · exact takeRequest_accept hr rfl
end

section
/-! PROOF. The phases of a measurement (10 R173, R174). -/

namespace Sys2Proof.Machine

/-! ### The close of the block of a phase -/

/-- The sums of a measurement grow, and nothing else of its context changes. -/
theorem addMeasured_context (s : State) : ∃ m t, (addMeasured s).context = { s.context with micSum := m, targetSum := t } := by
  unfold addMeasured
  dsimp only
  split
  · exact ⟨_, s.context.targetSum, rfl⟩
  · exact ⟨_, _, rfl⟩
  · exact ⟨s.context.micSum, s.context.targetSum, rfl⟩

theorem ensureClosed_closed {s : State} (h : s.blockClosed = true) : ensureClosed s = s := if_pos h

theorem ensureClosed_open {s : State} (h : s.blockClosed = false) :
    ensureClosed s = { closeBlock s with blockClosed := true } := if_neg (Bool.eq_false_iff.1 h)

theorem ensureClosed_context (s : State) :
    ∃ m t, (ensureClosed s).context = { s.context with micSum := m, targetSum := t } := by
  cases closed : s.blockClosed with
  | true => exact ⟨s.context.micSum, s.context.targetSum, by rw [ensureClosed_closed closed]⟩
  | false =>
    rw [ensureClosed_open closed]
    exact addMeasured_context s.metersClosed

theorem ensureClosed_place (s : State) (o : Fin 192) : ((ensureClosed s).outputs.get o).place = (s.outputs.get o).place := by
  rw [(ensureClosed_keeps s).2 o]

/-! ### The phases -/

theorem phaseDue_iff (s : State) : s.phaseDue = true ↔
    s.blockCount + 1 = 1024 ∧ s.intervalTaken = false ∧ s.measureStepped = false ∧
      (s.context.phase = .wait ∧ 1 ≤ s.context.count + 1 ∨ s.context.phase = .quiet ∧ 2 ≤ s.context.count + 1 ∨
        s.context.phase = .settle ∧ 1 ≤ s.context.count + 1 ∨ s.context.phase = .measure ∧ 4 ≤ s.context.count + 1) := by
  have ends : s.context.ends = true ↔
      (s.context.phase = .wait ∧ 1 ≤ s.context.count + 1 ∨ s.context.phase = .quiet ∧ 2 ≤ s.context.count + 1 ∨
        s.context.phase = .settle ∧ 1 ≤ s.context.count + 1 ∨ s.context.phase = .measure ∧ 4 ≤ s.context.count + 1) := by
    rw [Context.ends, Bool.and_eq_true_iff, Context.inFlight_iff, decide_eq_true_iff]
    cases s.context.phase <;> simp [Phase.length]
  rw [State.phaseDue, Bool.and_eq_true_iff, Bool.and_eq_true_iff, due_iff, Bool.not_eq_true', ends, and_assoc, and_assoc]

section
variable {s : State}

theorem exec_measurePhaseEnd_due (due : s.phaseDue = true) (phase : s.context.phase ≠ .measure) :
    exec .measurePhaseEnd s = .next { endPhase (ensureClosed s) with measureStepped := true } :=
  congrArg Host.Outcome.next (if_pos (Bool.and_eq_true_iff.2 ⟨due, decide_eq_true phase⟩))

theorem exec_measurePhaseEnd_idle (h : s.phaseDue = false ∨ s.context.phase = .measure) :
    exec .measurePhaseEnd s = .next s := by
  refine congrArg Host.Outcome.next (if_neg fun e => ?_)
  obtain ⟨due, phase⟩ := Bool.and_eq_true_iff.1 e
  have away : s.context.phase ≠ .measure := decide_eq_true_iff.1 phase
  exact h.elim (fun idle => Bool.false_ne_true (idle.symm.trans due)) away

theorem exec_measurementResult_due (due : s.phaseDue = true) (phase : s.context.phase = .measure) :
    exec .measurementResult s = .next { endMeasurement (ensureClosed s) with measureStepped := true } :=
  congrArg Host.Outcome.next (if_pos (Bool.and_eq_true_iff.2 ⟨due, decide_eq_true phase⟩))

theorem exec_measurementResult_idle (h : s.phaseDue = false ∨ s.context.phase ≠ .measure) :
    exec .measurementResult s = .next s := by
  refine congrArg Host.Outcome.next (if_neg fun e => ?_)
  obtain ⟨due, phase⟩ := Bool.and_eq_true_iff.1 e
  exact h.elim (fun idle => Bool.false_ne_true (idle.symm.trans due)) fun away => away (of_decide_eq_true phase)

theorem endPhase_wait (h : s.context.phase = .wait) :
    endPhase s = { s with context := { s.context with phase := .quiet, count := 0 } } := by
  simp only [endPhase, h]

theorem endPhase_settle (h : s.context.phase = .settle) :
    endPhase s = { s with context := { s.context with phase := .measure, count := 0 } } := by
  simp only [endPhase, h]

theorem endPhase_quiet {n : Fin 12} {g : Target} (h : s.context.phase = .quiet) (screen : s.context.screen = some n)
    (target : s.context.target = some g) : endPhase s = setTones (s.targetOutputs n g) true { s with context :=
      { s.context with phase := .settle, count := 0, micSum := 0, background := some (lvl s.context.micSum - 66) } } := by
  simp only [endPhase, h, screen, target]

/-- The result of a measurement, NOISY or OK. -/
theorem endMeasurement_eq {n : Fin 12} {g : Target} {m o b : Nat} (screen : s.context.screen = some n)
    (target : s.context.target = some g) (background : s.context.background = some b) (hm : m = lvl s.context.micSum - 72)
    (ho : o = lvl s.context.targetSum - 72) : endMeasurement s =
      if m < b + 20 then
        ({ clearTones n s with context := Context.reset } : State).notify (.measure n g (.noisy b m o))
      else
        (storeSensitivity n g (clampInt (-128) 127 (((clampInt 0 255 (m + s.micOffset)).toNat : Int) - o))
          { clearTones n s with context := Context.reset }).notify
          (.measure n g (.ok b m o (clampInt 0 255 (m + s.micOffset)).toNat
            (clampInt (-128) 127 (((clampInt 0 255 (m + s.micOffset)).toNat : Int) - o)))) := by
  subst hm ho
  simp only [endMeasurement, screen, target, background, Option.getD_some]

end

end Sys2Proof.Machine

open Sys2Proof Sys2Proof.Machine

/-- Settles O50: each phase at the interval event that ends it, after the close of the block. -/
theorem measurementPhases : Obligations.MeasurementPhases := by
  unfold Obligations.MeasurementPhases
  refine ⟨fun s => ⟨ensureClosed_closed, ensureClosed_open⟩, fun s n => ⟨fun _ => rfl, targetOutputs_reference s n⟩, ?_⟩
  rintro s u rfl
  obtain ⟨mic, sum, context⟩ := ensureClosed_context s
  have places := ensureClosed_place s
  have phase : (ensureClosed s).context.phase = s.context.phase := by rw [context]
  have screens : (ensureClosed s).context.screen = s.context.screen := by rw [context]
  have targets : (ensureClosed s).context.target = s.context.target := by rw [context]
  have backgrounds : (ensureClosed s).context.background = s.context.background := by rw [context]
  have offset : (ensureClosed s).micOffset = s.micOffset := by
    obtain ⟨_, _, _, _, _, _, e⟩ := ensureClosed_frame s
    rw [e]
  refine ⟨phaseDue_iff s, exec_measurePhaseEnd_idle, exec_measurementResult_idle, fun due wait => ?_, fun due settle => ?_,
    fun n g due quiet screen target => ?_, fun n g m o b due measure screen target hm ho background => ?_⟩
  · rw [exec_measurePhaseEnd_due due (by rw [wait]; decide), endPhase_wait (phase.trans wait)]
  · rw [exec_measurePhaseEnd_due due (by rw [settle]; decide), endPhase_settle (phase.trans settle)]
  · refine ⟨_, exec_measurePhaseEnd_due due (by rw [quiet]; decide), ?_⟩
    rw [endPhase_quiet (phase.trans quiet) (screens.trans screen) (targets.trans target), State.targetOutputs_of_place places]
    exact ⟨rfl, fun k => setTones_output _ _ _ k⟩
  · refine ⟨{ clearTones n (ensureClosed s) with context := Context.reset }, fun k => ?_, rfl, fun noisy => ?_, ?_⟩
    · have same : ((ensureClosed s).outputs.get k).screen = (s.outputs.get k).screen :=
        congrArg (Option.map Prod.fst) (places k)
      rw [← same]
      exact clearTones_get n _ k
    · rw [exec_measurementResult_due due measure,
        endMeasurement_eq (screens.trans screen) (targets.trans target) (backgrounds.trans background) hm ho, if_pos noisy]
    · intro loud spl sensitivity hspl hx
      have level : clampInt 0 255 (m + s.micOffset) = spl := by rw [hspl, clampInt_eq_max_min (by decide)]
      have positive : ((spl.toNat : Nat) : Int) = spl := by omega
      have measured : clampInt (-128) 127 (spl - o) = sensitivity := by rw [hx, clampInt_eq_max_min (by decide)]
      have ran := exec_measurementResult_due due measure
      rw [endMeasurement_eq (screens.trans screen) (targets.trans target) (backgrounds.trans background) hm ho,
        if_neg (Nat.not_lt.2 loud), offset, level, positive, measured] at ran
      exact ⟨fun e => e ▸ ran, fun y e => e ▸ ran⟩
end

section
/-! PROOF. CUE ADD, CUE REMOVE and CUE CLEAR (09 R151 to R156). -/

namespace Sys2Proof.Machine

/-! ### What a CUE ADD carries -/

theorem readCueTrigger_state_none {c : Nat} (h : 5 ≤ c) : readCueTrigger (.state c) = none := by
  have beyond : CueEvent.all[c]? = none := List.getElem?_eq_none h
  simp only [readCueTrigger, beyond, Option.map_none]

theorem readCueTrigger_alarm_none {c : Nat} (h : 7 ≤ c) : readCueTrigger (.alarm c) = none := by
  have beyond : AlarmKind.all[c]? = none := List.getElem?_eq_none h
  simp only [readCueTrigger, beyond, Option.map_none]

theorem readCueTrigger_call {v : Nat} (lo : 1 ≤ v) (hi : v ≤ 255) :
    readCueTrigger (.call v) = some { value := .call v, clamped := false } := if_pos ⟨lo, hi⟩

theorem readCueTrigger_call_none {v : Nat} (h : v = 0 ∨ 255 < v) : readCueTrigger (.call v) = none :=
  if_neg fun e => by omega

theorem readCueAction_linePulse {k : Nat} {l : Fin 8} (h : k = l.val + 1) (v : Nat) : readCueAction (.linePulse k v) =
    some { value := .linePulse l (max 1 (min v 65535)), clamped := decide (v = 0 ∨ 65535 < v) } := by
  have length := commandLength_pulse v
  have named : ident 8 k = some l := ident_eq_some.2 h
  simp only [commandLength] at length
  simp only [readCueAction, named, length, Option.map_some]

theorem readCueAction_houseLevel (v : Nat) :
    readCueAction (.houseLevel v) = some { value := .houseLevel (min v 100), clamped := decide (100 < v) } := by
  have stored := settingNat_value (Nat.zero_le 100) v
  have clamped := settingNat_clamped (Nat.zero_le 100) v
  rw [Nat.zero_max] at stored
  simp only [Nat.not_lt_zero, false_or] at clamped
  simp only [readCueAction, stored, clamped]

theorem labelValid_iff {label : List Byte} : labelValid label = true ↔
    label.length ≤ 12 ∧ ∀ b ∈ label, 0x20 ≤ b.toNat ∧ b.toNat ≤ 0x7E := by
  simp only [labelValid, Bool.and_eq_true, decide_eq_true_iff, List.all_eq_true]

theorem chaseValid_iff {chase : Nat} {trigger : Trigger} :
    chaseValid chase trigger = true ↔ chase = 0 ∨ chase = 1 ∧ trigger.isTime = true := by
  simp only [chaseValid, Bool.or_eq_true, Bool.and_eq_true, decide_eq_true_iff]

/-- A trigger that is read is a TIME trigger exactly when it is carried as one. -/
theorem readCueTrigger_isTime {raw : RawTrigger} {g : Setting Trigger} (h : readCueTrigger raw = some g) :
    g.value.isTime = true ↔ ∃ t, raw = .time t := by
  cases raw with
  | time t =>
    obtain rfl := Option.some.inj h
    exact ⟨fun _ => ⟨t, rfl⟩, fun _ => rfl⟩
  | state c =>
    obtain ⟨e, -, rfl⟩ := Option.map_eq_some_iff.1 h
    exact ⟨fun e => (by cases e), fun ⟨_, e⟩ => (by cases e)⟩
  | alarm c =>
    obtain ⟨k, -, rfl⟩ := Option.map_eq_some_iff.1 h
    exact ⟨fun e => (by cases e), fun ⟨_, e⟩ => (by cases e)⟩
  | call v =>
    by_cases range : 1 ≤ v ∧ v ≤ 255
    · rw [readCueTrigger, if_pos range] at h
      obtain rfl := Option.some.inj h
      exact ⟨fun e => (by cases e), fun ⟨_, e⟩ => (by cases e)⟩
    · rw [readCueTrigger, if_neg range] at h
      cases h

section
variable {trigger : RawTrigger} {action : RawAction} {chase : Nat} {label : List Byte} {n : Fin 12} {s : State}

theorem addCueChecked_read {g : Setting Trigger} {a : Setting Action} (hg : readCueTrigger trigger = some g)
    (ha : readCueAction action = some a) : addCueChecked trigger action chase label n s =
      if (labelValid label && chaseValid chase g.value) = true then placeCue n g a (decide (chase = 1)) label s
      else .refuse .range := by
  simp only [addCueChecked, hg, ha]

theorem addCueChecked_range (h : readCueTrigger trigger = none ∨ readCueAction action = none ∨ 12 < label.length ∨
      (∃ b ∈ label, b.toNat < 0x20 ∨ 0x7E < b.toNat) ∨ 1 < chase ∨ chase = 1 ∧ ∀ t, trigger ≠ .time t) :
    addCueChecked trigger action chase label n s = .refuse .range := by
  cases hg : readCueTrigger trigger with
  | none => simp only [addCueChecked, hg]
  | some g =>
    cases ha : readCueAction action with
    | none => simp only [addCueChecked, hg, ha]
    | some a =>
      rw [addCueChecked_read hg ha]
      refine if_neg fun e => ?_
      obtain ⟨label, chase⟩ := Bool.and_eq_true_iff.1 e
      obtain ⟨short, printed⟩ := labelValid_iff.1 label
      have chased := chaseValid_iff.1 chase
      rw [readCueTrigger_isTime hg] at chased
      rcases h with e | e | long | ⟨b, hb, out⟩ | many | ⟨one, other⟩
      · cases hg.symm.trans e
      · cases ha.symm.trans e
      · omega
      · have := printed b hb
        omega
      · omega
      · rcases chased with e | ⟨-, t, e⟩
        · omega
        · exact other t e

theorem addCueChecked_placed {g : Setting Trigger} {a : Setting Action} (hg : readCueTrigger trigger = some g)
    (ha : readCueAction action = some a) (short : label.length ≤ 12)
    (printed : ∀ b ∈ label, 0x20 ≤ b.toNat ∧ b.toNat ≤ 0x7E) (chased : chase = 0 ∨ chase = 1 ∧ ∃ t, trigger = .time t) :
    addCueChecked trigger action chase label n s = placeCue n g a (decide (chase = 1)) label s := by
  rw [addCueChecked_read hg ha]
  refine if_pos (Bool.and_eq_true_iff.2 ⟨labelValid_iff.2 ⟨short, printed⟩, chaseValid_iff.2 ?_⟩)
  rw [readCueTrigger_isTime hg]
  exact chased

end

/-! ### The place of a new entry -/

theorem freeCues_eq_nil {s : State} (h : ∀ e, (s.pool.get e).isSome = true) : s.freeCues = [] := by
  refine List.filter_eq_nil_iff.2 fun e _ => ?_
  rw [Option.isNone_iff_eq_none]
  exact fun free => Bool.false_ne_true (by rw [← h e, free]; rfl)

/-- The lowest free entry is the one taken. -/
theorem freeCues_eq_cons {s : State} {e : Fin 512} (free : s.pool.get e = none)
    (lowest : ∀ e', e' < e → (s.pool.get e').isSome = true) : ∃ rest, s.freeCues = e :: rest := by
  have head : s.freeCues.head? = some e := by
    rw [State.freeCues, List.head?_filter, List.find?_eq_some_iff_getElem]
    refine ⟨by rw [free]; rfl, e.val, by simp, by simp, fun j hj => ?_⟩
    rw [List.getElem_finRange, Bool.not_eq_true', Option.isNone_eq_false_iff]
    exact lowest _ hj
  exact ⟨_, List.eq_cons_of_mem_head? head⟩

theorem placeCue_noroom {n : Fin 12} {g : Setting Trigger} {a : Setting Action} {chase : Bool} {label : List Byte} {s : State}
    (h : s.freeCues = []) : placeCue n g a chase label s = .refuse .noroom := by
  unfold placeCue
  rw [h]

/-- The entry that a CUE ADD makes. -/
def newCue (n : Fin 12) (g : Trigger) (a : Action) (chase : Bool) (label : List Byte) (s : State) : Cue :=
  { screen := n, trigger := g, action := a, chase, label, state := s.entryState n g }

theorem placeCue_placed {n : Fin 12} {g : Setting Trigger} {a : Setting Action} {chase : Bool} {label : List Byte} {s : State}
    {e : Fin 512} {rest : List (Fin 512)} (h : s.freeCues = e :: rest) : placeCue n g a chase label s =
      .accept (addCue e (newCue n g.value a.value chase label s) s) (g.clamped || a.clamped)
        [fieldNat 2 (number e), fieldCond 1 ((newCue n g.value a.value chase label s).state.map CueState.code)] := by
  unfold placeCue
  rw [h]
  rfl

theorem entryState_time (s : State) (n : Fin 12) (t : Nat) : s.entryState n (.time t) =
    if ((s.screens.get n).state = .show ∨ (s.screens.get n).state = .paused) ∧ (∃ k, (s.cues.get n).clock = some k ∧ t ≤ k)
    then some .skipped else some .armed := by
  have passed : ((s.cues.get n).clock.map fun c => decide (t ≤ c)).getD false = true ↔
      ∃ k, (s.cues.get n).clock = some k ∧ t ≤ k := by
    cases (s.cues.get n).clock with
    | none => simp
    | some k => simp
  unfold State.entryState
  dsimp only
  simp only [← passed]
  cases (s.screens.get n).state <;> simp <;> split <;> rfl

theorem entryState_event {s : State} {n : Fin 12} {g : Trigger} (h : g.isTime = false) : s.entryState n g = none := by
  cases g with
  | time t => cases h
  | state e => rfl
  | alarm k => rfl
  | call v => rfl

/-- In a time list in order, an entry goes behind those of its time or an earlier one. -/
theorem placeByTime_eq {s : State} {time : Fin 512 → Nat} {l : List (Fin 512)}
    (timed : ∀ x ∈ l, (s.timeEntry x).map Prod.fst = some (time x)) (ordered : l.Pairwise fun a b => time a ≤ time b)
    (t : Nat) (e : Fin 512) :
    placeByTime s t e l = (l.filter fun x => decide (time x ≤ t)) ++ e :: l.filter fun x => decide (t < time x) := by
  induction l with
  | nil => rfl
  | cons x rest ih =>
    obtain ⟨first, others⟩ := List.pairwise_cons.1 ordered
    obtain ⟨y, entry, own⟩ := Option.map_eq_some_iff.1 (timed x List.mem_cons_self)
    have before := ih (fun z hz => timed z (List.mem_cons_of_mem x hz)) others
    have early : ((s.timeEntry x).map fun y => decide (y.1 ≤ t)).getD false = decide (time x ≤ t) := by
      rw [entry, ← own]
      rfl
    rw [placeByTime, early]
    by_cases h : time x ≤ t
    · rw [if_pos (decide_eq_true h), before, List.filter_cons_of_pos (by exact decide_eq_true h),
        List.filter_cons_of_neg (by simpa using h)]
      rfl
    · have later : ∀ z ∈ x :: rest, t < time z := fun z hz => by
        rcases List.mem_cons.1 hz with rfl | hz
        · omega
        · have := first z hz
          omega
      have none_ : ((x :: rest).filter fun x => decide (time x ≤ t)) = [] :=
        List.filter_eq_nil_iff.2 fun z hz => by simpa using later z hz
      have all : ((x :: rest).filter fun x => decide (t < time x)) = x :: rest :=
        List.filter_eq_self.2 fun z hz => decide_eq_true (later z hz)
      rw [if_neg (by simpa using h), none_, all]
      rfl

/-- A free entry is filled: the others of a time list keep their times, and it goes behind those of its own. -/
theorem placeByTime_filled {s : State} (law : CueLaw s) {e : Fin 512} (free : s.pool.get e = none) (c : Cue) (n : Fin 12)
    (t : Nat) : placeByTime (s.setCue e c) t e (s.cues.get n).timeList =
      ((s.cues.get n).timeList.filter fun x => decide (s.cueTime x ≤ t)) ++
        e :: (s.cues.get n).timeList.filter fun x => decide (t < s.cueTime x) := by
  obtain ⟨timed, -, -, ordered⟩ := law
  refine placeByTime_eq (fun x hx => ?_) (ordered n) t e
  obtain ⟨d, hd, -, ht⟩ := (timed n x).1 hx
  have other : e ≠ x := fun same => by rw [same, hd] at free; cases free
  have still : (s.setCue e c).pool.get x = s.pool.get x := by rw [setCue_pool, Tab.get_set, if_neg other]
  rw [timeEntry_of_time (still.trans hd) ht, Option.map_some,
    ← cueTime_congr (congrArg (Option.map Cue.trigger) still)]

/-- The change that `addCue` makes to the lists of its entry's screen. -/
def placedIn (s : State) (e : Fin 512) (c : Cue) (x : CueScreen) : CueScreen :=
  match c.trigger with
  | .time time => { x with timeList := placeByTime (s.setCue e c) time e x.timeList }
  | _ => { x with eventList := x.eventList ++ [e] }

theorem addCue_eq (e : Fin 512) (c : Cue) (s : State) :
    addCue e c s = { s with pool := s.pool.set e (some c), cues := s.cues.modify c.screen (placedIn s e c) } := rfl

theorem placedIn_event (s : State) (e : Fin 512) {c : Cue} (h : c.trigger.isTime = false) (x : CueScreen) :
    placedIn s e c x = { x with eventList := x.eventList ++ [e] } := by
  unfold placedIn
  split
  · next h' => rw [h'] at h; cases h
  · rfl

theorem placedIn_time (s : State) (e : Fin 512) {c : Cue} {t : Nat} (h : c.trigger = .time t) (x : CueScreen) :
    placedIn s e c x = { x with timeList := placeByTime (s.setCue e c) t e x.timeList } := by
  unfold placedIn
  rw [h]

/-! ### CUE REMOVE and CUE CLEAR -/

theorem State.listed_iff {s : State} {n : Fin 12} {e : Fin 512} :
    s.listed n e = true ↔ e ∈ (s.cues.get n).timeList ∨ e ∈ (s.cues.get n).eventList := by
  rw [State.listed, Bool.or_eq_true_iff, List.contains_iff_mem, List.contains_iff_mem]

theorem removeCue_range {s : State} {n : Fin 12} {entry : Nat}
    (h : ∀ e, ident 512 entry = some e → e ∉ (s.cues.get n).timeList ∧ e ∉ (s.cues.get n).eventList) :
    removeCue entry n s = .refuse .range := by
  cases he : ident 512 entry with
  | none => simp only [removeCue, he]
  | some e =>
    simp only [removeCue, he]
    obtain ⟨time, event⟩ := h e he
    exact if_neg fun listed => (State.listed_iff.1 listed).elim time event

theorem removeCue_listed {s : State} {n : Fin 12} {entry : Nat} {e : Fin 512} (he : ident 512 entry = some e)
    (h : e ∈ (s.cues.get n).timeList ∨ e ∈ (s.cues.get n).eventList) : removeCue entry n s = .ok (freeCue n e s) := by
  simp only [removeCue, he]
  exact if_pos (State.listed_iff.2 h)

theorem clearCues_pool (n : Fin 12) (s : State) (e : Fin 512) : (clearCues n s).pool.get e =
    if e ∈ (s.cues.get n).timeList ∨ e ∈ (s.cues.get n).eventList then none else s.pool.get e := by
  refine (Tab.get_update _ _ e).trans (if_congr ?_ rfl rfl)
  rw [List.contains_iff_mem, CueScreen.entries, List.mem_append]

end Sys2Proof.Machine

open Sys2Proof Sys2Proof.Machine

/-- Settles O46: each request by the order of its checks, and the place of a new entry. -/
theorem cueRequests : Obligations.CueRequests := by
  unfold Obligations.CueRequests
  refine ⟨fun t => rfl, rfl, fun c => readCueTrigger_state_none, rfl, fun c => readCueTrigger_alarm_none,
    fun v => readCueTrigger_call, fun v => readCueTrigger_call_none, fun k l hk => ?_, fun k out => ?_,
    readCueAction_houseLevel, rfl, fun h screen s out => ⟨fun trigger action chase label hr => ?_, fun entry hr => ?_,
      fun hr => ?_⟩, fun h screen n s hn => ⟨fun trigger action chase label hr => ⟨fun other role => ?_, fun may =>
      ⟨fun wrong => ?_, fun g a hg ha short printed chased => ⟨fun full => ?_, fun e law free lowest => ?_⟩⟩⟩,
      fun entry hr => ⟨fun other role => ?_, fun may => ⟨fun away => ?_, fun e he listed => ?_⟩⟩,
      fun hr => ⟨fun other role => ?_, fun may => ⟨fun state => ?_, fun state => ?_⟩⟩⟩⟩
  · have named : ident 8 k = some l := ident_eq_some.2 hk
    refine ⟨?_, ?_, readCueAction_linePulse hk⟩
    · simp only [readCueAction, named, Option.map_some]
    · simp only [readCueAction, named, Option.map_some]
  · have none_ : ident 8 k = none := ident_eq_none.2 out
    simp only [readCueAction, none_, Option.map_none, implies_true, and_self]
  · exact takeRequest_refuse hr (onScreen_invalid (ident_eq_none.2 out) _ _)
  · exact takeRequest_refuse hr (onScreen_invalid (ident_eq_none.2 out) _ _)
  · exact takeRequest_refuse hr (onScreen_invalid (ident_eq_none.2 out) _ _)
  · exact takeRequest_refuse hr ((onScreen_valid hn _ _).trans
      (ofHolderOrManagement_stranger (s := s.taking _ h) other role _))
  · exact takeRequest_refuse hr ((onScreen_valid hn _ _).trans
      ((ofHolderOrManagement_may (s := s.taking _ h) may _).trans (addCueChecked_range wrong)))
  · exact takeRequest_refuse hr ((onScreen_valid hn _ _).trans
      ((ofHolderOrManagement_may (s := s.taking _ h) may _).trans ((addCueChecked_placed hg ha short printed chased).trans
        (placeCue_noroom (freeCues_eq_nil (s := s.taking _ h) full)))))
  · obtain ⟨rest, cons⟩ := freeCues_eq_cons (s := s.taking (.cueAdd h screen trigger action chase label) h) free lowest
    refine ⟨newCue n g.value a.value (decide (chase = 1)) label s,
      placedIn (s.taking (.cueAdd h screen trigger action chase label) h) e
        (newCue n g.value a.value (decide (chase = 1)) label s),
      takeRequest_accept hr ((onScreen_valid hn _ _).trans ((ofHolderOrManagement_may (s := s.taking _ h) may _).trans
        ((addCueChecked_placed hg ha short printed chased).trans (placeCue_placed cons)))), rfl, rfl, rfl, rfl, rfl,
      fun t ht => ?_, fun event => ⟨entryState_event event, placedIn_event _ _ event⟩, fun t ht => ?_⟩
    · rw [← entryState_time, ← ht]
      rfl
    · have placed := placeByTime_filled (s := s.taking (.cueAdd h screen trigger action chase label) h) law free
        (newCue n g.value a.value (decide (chase = 1)) label s) n t
      refine (placedIn_time _ _ ht _).trans ?_
      exact congrArg (fun l => ({ s.cues.get n with timeList := l } : CueScreen)) placed
  · exact takeRequest_refuse hr ((onScreen_valid hn _ _).trans
      (ofHolderOrManagement_stranger (s := s.taking _ h) other role _))
  · exact takeRequest_refuse hr ((onScreen_valid hn _ _).trans
      ((ofHolderOrManagement_may (s := s.taking _ h) may _).trans (removeCue_range (s := s.taking _ h) away)))
  · exact takeRequest_accept hr ((onScreen_valid hn _ _).trans
      ((ofHolderOrManagement_may (s := s.taking _ h) may _).trans (removeCue_listed (s := s.taking _ h) he listed)))
  · exact takeRequest_refuse hr ((onScreen_valid hn _ _).trans
      (ofHolderOrManagement_stranger (s := s.taking _ h) other role _))
  · exact takeRequest_refuse hr ((onScreen_valid hn _ _).trans
      ((ofHolderOrManagement_may (s := s.taking _ h) may _).trans (if_pos state)))
  · have cleared : clearCueLists n (s.taking (.cueClear h screen) h) = .accept (clearCues n (s.taking (.cueClear h screen) h))
        false [fieldNat 2 ((s.cues.get n).timeList.length + (s.cues.get n).eventList.length)] := by
      rw [← List.length_append]
      exact if_neg state
    exact ⟨_, takeRequest_accept hr ((onScreen_valid hn _ _).trans
      ((ofHolderOrManagement_may (s := s.taking _ h) may _).trans cleared)), fun e => clearCues_pool n (s.taking _ h) e⟩
end

section
/-! PROOF. The check, the search and the activity of the inbound lanes (02 R27 to R31). -/

namespace Sys2Proof.Machine

/-! ### The check -/

/-- One bit of a byte through the register. -/
def crcBit (r : BitVec 16) (bit : Bool) : BitVec 16 :=
  if (r.getLsbD 15 ^^ bit) = true then (r <<< 1) ^^^ 0x1021#16 else r <<< 1

/-- The bits added to the register before a shift: the highest goes through, and the others stay added after it. -/
theorem crcShift_xor (r y : BitVec 16) : crcShift (r ^^^ y) = crcBit r (y.getLsbD 15) ^^^ (y <<< 1) := by
  have msb : (r ^^^ y).msb = (r.getLsbD 15 ^^ y.getLsbD 15) := by
    rw [BitVec.msb_eq_getLsbD_last, BitVec.getLsbD_xor]
  rw [crcShift, crcBit, msb, BitVec.shiftLeft_xor_distrib]
  split
  · rw [BitVec.xor_assoc, BitVec.xor_assoc, BitVec.xor_comm (y <<< 1)]
  · rfl

theorem shifted_getLsbD (b : Byte) {k : Nat} (h : k ≤ 7) :
    (b.setWidth 16 <<< (8 + k)).getLsbD 15 = b.getLsbD (7 - k) := by
  rw [BitVec.getLsbD_shiftLeft, BitVec.getLsbD_setWidth]
  have place : 15 - (8 + k) = 7 - k := by omega
  have inside : ¬ 15 < 8 + k := by omega
  have low : 7 - k < 16 := by omega
  simp [place, inside, low]

theorem crcShift_bit (r : BitVec 16) (b : Byte) {k : Nat} (h : k ≤ 7) :
    crcShift (r ^^^ (b.setWidth 16 <<< (8 + k))) = crcBit r (b.getLsbD (7 - k)) ^^^ (b.setWidth 16 <<< (8 + (k + 1))) := by
  rw [crcShift_xor, shifted_getLsbD b h, ← BitVec.shiftLeft_add]
  rfl

theorem crcByte_bits (r : BitVec 16) (b : Byte) :
    crcByte r b = [7, 6, 5, 4, 3, 2, 1, 0].foldl (fun r (i : Nat) => crcBit r (b.getLsbD i)) r := by
  have out : b.setWidth 16 <<< 16 = 0#16 := BitVec.shiftLeft_eq_zero (le_refl 16)
  have first := crcShift_bit r b (k := 0) (by omega)
  rw [Nat.add_zero] at first
  rw [crcByte, first, crcShift_bit _ b (by omega), crcShift_bit _ b (by omega), crcShift_bit _ b (by omega),
    crcShift_bit _ b (by omega), crcShift_bit _ b (by omega), crcShift_bit _ b (by omega), crcShift_bit _ b (by omega),
    out, BitVec.xor_zero]
  rfl

theorem crc_concat (l : List Byte) (b : Byte) :
    crc (l ++ [b]) = [7, 6, 5, 4, 3, 2, 1, 0].foldl (fun r (i : Nat) => crcBit r (b.getLsbD i)) (crc l) := by
  rw [crc, List.foldl_append]
  exact crcByte_bits _ b

/-! ### A good block -/

theorem byteOfBits_getLsbD (b : Byte) : byteOfBits (b.getLsbD 7) (b.getLsbD 6) (b.getLsbD 5) (b.getLsbD 4) (b.getLsbD 3)
    (b.getLsbD 2) (b.getLsbD 1) (b.getLsbD 0) = b := by
  have spelled := bytesOfAux_auxOfBytes [b]
  exact List.head_eq_of_cons_eq spelled

theorem goodBlock_length {side : List Byte} (h : side.length ≠ 12) : goodBlock side = false := by
  rw [goodBlock, beq_false_of_ne h]
  rfl

theorem checkBytes_eq_iff {l : List Byte} {hi lo : Byte} :
    checkBytes l = [hi, lo] ↔ (crc l).toNat = 256 * hi.toNat + lo.toNat := by
  have bound := (crc l).isLt
  have high := hi.isLt
  have low := lo.isLt
  simp only [checkBytes, List.cons.injEq, and_true, ← BitVec.toNat_inj, BitVec.toNat_setWidth, BitVec.toNat_ushiftRight,
    Nat.shiftRight_eq_div_pow]
  omega

theorem goodBlock_iff {mark : Byte} {rest : List Byte} {hi lo : Byte} (h : rest.length = 9) :
    goodBlock (mark :: rest ++ [hi, lo]) = true ↔
      mark = 0xB4#8 ∧ (crc (mark :: rest)).toNat = 256 * hi.toNat + lo.toNat := by
  have all : (mark :: rest ++ [hi, lo]).length = 12 := by simp [h]
  have body : (mark :: rest ++ [hi, lo]).take 10 = mark :: rest := List.take_left' (by simp [h])
  have check : (mark :: rest ++ [hi, lo]).drop 10 = [hi, lo] := List.drop_left' (by simp [h])
  have holds : checkHolds (mark :: rest ++ [hi, lo]) = true ↔ checkBytes (mark :: rest) = [hi, lo] := by
    simp only [checkHolds, all, Nat.reduceSub, body, check, Bool.and_eq_true, beq_iff_eq, decide_eq_true_iff]
    exact ⟨fun ⟨_, e⟩ => e.symm, fun e => ⟨by omega, e.symm⟩⟩
  rw [goodBlock, Bool.and_eq_true, Bool.and_eq_true, holds, checkBytes_eq_iff, all, beq_iff_eq, beq_iff_eq]
  simp

/-! ### The entry into HUNT or NOSIGNAL -/

/-- The screens when the accepted word of a lane becomes absent (01 R13). -/
def State.droppedScreens (l : Fin 14) (s : State) : Tab Screen 12 :=
  match laneScreen l, (s.lanes.get l).accepted with
  | some n, some _ => s.screens.modify n fun c => { c with lastRolling := none }
  | _, _ => s.screens

theorem State.droppedScreens_rolling {l : Fin 14} {s : State} {n : Fin 12} {w : SideWord} (hn : laneScreen l = some n)
    (hw : (s.lanes.get l).accepted = some w) : ((s.droppedScreens l).get n).lastRolling = none := by
  unfold State.droppedScreens
  rw [hn, hw]
  dsimp only
  rw [Tab.get_modify, if_pos rfl]

theorem State.droppedScreens_other {l : Fin 14} {s : State} (hn : laneScreen l = none) : s.droppedScreens l = s.screens := by
  unfold State.droppedScreens
  rw [hn]

theorem dropWord_eq (l : Fin 14) (s : State) : dropWord l s =
    { s with lanes := s.lanes.modify l fun x => { x with accepted := none }, screens := s.droppedScreens l } := by
  unfold dropWord State.droppedScreens
  cases laneScreen l with
  | none => rfl
  | some n => cases (s.lanes.get l).accepted <;> rfl

/-- The lane unlocked, before the notices. -/
def State.unlocked (l : Fin 14) (sync : Sync) (s : State) : State :=
  { s with lanes := s.lanes.modify l (Lane.unlock sync), screens := s.droppedScreens l }

theorem unlockLane_eq (l : Fin 14) (sync : Sync) (cause : LaneCause) (s : State) : unlockLane l sync cause s =
    laneAbort l ((s.unlocked l sync).notify (.lane l sync (s.lanes.get l).sync cause (s.lanes.get l).slips)) := by
  have dropped : dropWord l (s.modLane l fun x =>
      { x with sync, alignment := none, good := none, bad := none, skew := none, store := [] }) = s.unlocked l sync := by
    rw [dropWord_eq, modLane_lanes, Tab.modify_modify, State.droppedScreens, modLane_lanes, Tab.get_modify, if_pos rfl]
    rfl
  have entered : ((s.unlocked l sync).lanes.get l) = (s.lanes.get l).unlock sync := by
    rw [State.unlocked, Tab.get_modify, if_pos rfl]
  unfold unlockLane
  dsimp only
  rw [dropped, State.notifyLane, entered]
  rfl

theorem laneAbort_frame (l : Fin 14) (s : State) :
    ∃ o x p, laneAbort l s = { s with outputs := o, context := x, ports := p } := by
  unfold laneAbort
  split
  · exact abortMeasurement_frame _ s
  · exact ⟨s.outputs, s.context, s.ports, rfl⟩

theorem laneAbort_context {s u : State} (law : CalibrationLaw u) (same : s.context = u.context) {l : Fin 14} (h : l = 13) :
    (laneAbort l s).context = Context.reset := by
  subst h
  exact abortMeasurement_context law same _

theorem loseActivity_lost {l : Fin 14} {s : State} (h : (s.lanes.get l).sync ≠ .nosignal) : loseActivity l s =
    laneAbort l ((s.unlocked l .nosignal).notify (.lane l .nosignal (s.lanes.get l).sync .lost (s.lanes.get l).slips)) :=
  (if_neg h).trans (unlockLane_eq ..)

theorem notifyLane_modLane (l : Fin 14) (f : Lane → Lane) (s : State) (previous : Sync) (cause : LaneCause) :
    (s.modLane l f).notifyLane l previous cause =
      (s.modLane l f).notify (.lane l (f (s.lanes.get l)).sync previous cause (f (s.lanes.get l)).slips) := by
  rw [State.notifyLane, modLane_lanes, Tab.get_modify, if_pos rfl]

theorem seeActivity_seen {l : Fin 14} {s : State} (h : (s.lanes.get l).sync = .nosignal) : seeActivity l s =
    laneAbort l ((s.modLane l fun x => { x with sync := .hunt }).notify
      (.lane l .hunt .nosignal .activity (s.lanes.get l).slips)) := by
  rw [seeActivity, if_pos h, notifyLane_modLane]

end Sys2Proof.Machine

open Sys2Proof Sys2Proof.Machine

/-- Settles O22: the check bit by bit, and the lane events by the state of their lane. -/
theorem laneSearch : Obligations.LaneSearch := by
  unfold Obligations.LaneSearch
  refine ⟨fun b => rfl, fun b rest => ?_, rfl, fun side => goodBlock_length, fun mark rest hi lo => goodBlock_iff, rfl,
    crc_concat, fun l s => ⟨fun quiet => ?_, fun lost => ?_, fun y q hy lost hq => ?_, fun seen => ?_,
      fun quiet other => ?_, fun quiet ms => ?_, fun b position since hunting good => ?_, fun b position since other => ?_⟩⟩
  · exact congrArg (· :: bytesOfAux rest) (byteOfBits_getLsbD b)
  · exact congrArg Host.Outcome.next (if_pos quiet)
  · obtain ⟨o, x, p, frame⟩ := laneAbort_frame l
      ((s.unlocked l .nosignal).notify (.lane l .nosignal (s.lanes.get l).sync .lost (s.lanes.get l).slips))
    refine ⟨_, congrArg Host.Outcome.next (loseActivity_lost lost), ?_, fun n w hn hw => ?_, fun law ms => ?_,
      fun away => ?_⟩
    · rw [frame]
      rfl
    · rw [frame]
      exact State.droppedScreens_rolling hn hw
    · refine laneAbort_context law ?_ ms
      rfl
    · rw [frame, State.unlocked, State.droppedScreens_other away]
      rfl
  · subst hy hq
    exact congrArg Host.Outcome.next (loseActivity_lost lost)
  · exact congrArg Host.Outcome.next (if_neg seen)
  · exact congrArg Host.Outcome.next ((seeActivity_seen quiet).trans (if_neg other))
  · obtain ⟨o, x, p, frame⟩ := laneAbort_frame l ((s.modLane l fun x => { x with sync := .hunt }).notify
      (.lane l .hunt .nosignal .activity (s.lanes.get l).slips))
    refine ⟨_, congrArg Host.Outcome.next (seeActivity_seen quiet), ?_, ?_, if_pos ms,
      fun law => laneAbort_context law ?_ ms⟩
    · rw [frame]
      rfl
    · rw [frame]
      rfl
    · rfl
  · exact congrArg Host.Outcome.next ((if_pos ⟨hunting, good⟩).trans (notifyLane_modLane ..))
  · exact congrArg Host.Outcome.next (if_neg other)
end

section
/-! PROOF. The acceptance of a side word by its readers (02 R35, R40, 01 R13, R14, R21, 03 R56, 09 R158). -/

namespace Sys2Proof.Machine

/-! ### The lane of a screen -/

theorem laneScreen_programLane (n : Fin 12) : laneScreen (programLane n) = some n := dif_pos n.isLt

theorem laneScreen_eq_some {l : Fin 14} {n : Fin 12} : laneScreen l = some n ↔ l = programLane n := by
  refine ⟨fun h => ?_, fun h => h ▸ laneScreen_programLane n⟩
  unfold laneScreen at h
  split at h
  · obtain rfl := Option.some.inj h
    rfl
  · cases h

/-! ### The Screen Controller -/

theorem Screen.attemptsStart_iff {w : SideWord} {c : Screen} : c.attemptsStart w = true ↔ c.rolls w := by
  simp only [Screen.attemptsStart, rollingEdge, SideWord.rolling, Bool.and_eq_true, decide_eq_true_iff, and_assoc]
  rfl

theorem Screen.takeLevel_tookWord (w : SideWord) (c : Screen) :
    Screen.takeLevel w { c with lastRolling := some w.rolling } = c.tookWord w := by
  have sets : (c.config.laneLevel && (decide (c.state = .show) || decide (c.state = .paused)) && decide (w.level ≤ 100) &&
      decide (w.level ≠ c.lastLevel)) = true ↔
      c.config.laneLevel = true ∧ (c.state = .show ∨ c.state = .paused) ∧ w.level ≤ 100 ∧ w.level ≠ c.lastLevel := by
    simp only [Bool.and_eq_true, Bool.or_eq_true, decide_eq_true_iff, and_assoc]
  unfold Screen.takeLevel Screen.tookWord
  simp only [sets]
  rfl

section
variable {n : Fin 12} {w : SideWord} {s : State}

theorem screenTakesWord_quiet (h : ¬(s.screens.get n).rolls w) :
    screenTakesWord n w s = s.modScreen n (Screen.tookWord w) := by
  simp only [screenTakesWord, Screen.takeLevel_tookWord]
  rw [if_neg fun e => h (Screen.attemptsStart_iff.1 e)]

theorem screenTakesWord_rolls (h : (s.screens.get n).rolls w) :
    screenTakesWord n w s = (autoStart n s).modScreen n (Screen.tookWord w) := by
  simp only [screenTakesWord, Screen.takeLevel_tookWord]
  rw [if_pos (Screen.attemptsStart_iff.2 h)]

theorem screenTakesWord_refused {why : Reason} (h : (s.screens.get n).rolls w) (judged : judgeStart n s = .inl why) :
    screenTakesWord n w s = (s.notify (.showN n .armed .armed (s.screens.get n).holder .auto none (some why) none)).modScreen n
      (Screen.tookWord w) := by
  have armed := h.2.2.1
  rw [screenTakesWord_rolls h]
  simp only [autoStart, judged, State.notifyShow, armed]

/-- The cues leave a screen's state and holder. -/
theorem startEffects_screen (n m : Fin 12) (s : State) :
    (startEffects n s).screens.get m = { s.screens.get m with level := ((startEffects n s).screens.get m).level } :=
  (startCues_cueKept n (beforeCues n s)).screens m

/-- A screen that an admitted start has put into SHOW. -/
theorem startEffects_candidate (n : Fin 12) (s : State) :
    ((startEffects n (recompute .demand (candidate n .show (s.screens.get n).holder s))).screens.get n).state = .show ∧
      ((startEffects n (recompute .demand (candidate n .show (s.screens.get n).holder s))).screens.get n).holder =
        (s.screens.get n).holder := by
  have kept := startEffects_screen n n (recompute .demand (candidate n .show (s.screens.get n).holder s))
  obtain ⟨state, holder⟩ := candidate_screen n .show (s.screens.get n).holder s
  rw [← recompute_screens .demand] at state holder
  generalize recompute .demand (candidate n .show (s.screens.get n).holder s) = r at kept state holder ⊢
  exact ⟨(congrArg Screen.state kept).trans state, (congrArg Screen.holder kept).trans holder⟩

theorem autoStart_fits (calm : s.evac = false) (lane : (s.lanes.get (programLane n)).delivering = true)
    (fits : ((candidate n .show (s.screens.get n).holder s).allot.get n).status ≠ .suspended) :
    autoStart n s = (startEffects n (recompute .demand (candidate n .show (s.screens.get n).holder s))).notify
      (.showN n .show .armed (s.screens.get n).holder .auto none none none) := by
  obtain ⟨state, holder⟩ := startEffects_candidate n s
  simp only [autoStart, judgeStart_fits calm lane fits, State.notifyShow, state, holder]

end

/-- The clearing of the meters, the alarms and the layout source, the power computed before it. -/
theorem beforeCues_recompute (c : PowerCause) (n : Fin 12) (st : ShowState) (hd : Option (Fin 16)) (s : State) :
    beforeCues n (recompute c (candidate n st hd s)) =
      { recompute c (candidate n st hd s) with
        meters := s.meters.modify n fun m =>
          { m with
            segmentSum := 0, segmentFill := 0, ring := [], windowSum := 0, windowLevel := 0, windowSpl := 0, showMax := 0 }
        alarms := s.alarms.modify n fun a =>
          { a with records := a.records.map fun k => { k with phase := 0 }, silenceRun := 0, loudTrim := 0 }
        routes := s.routes.modify n fun a => { a with source := .default } } := by
  obtain ⟨g, o, x, p, frame⟩ := recompute_candidate_frame c n st hd s
  rw [frame]
  rfl

theorem screenTakesWord_takes (n : Fin 12) (w : SideWord) (s : State) : ScreenTakes n w s (screenTakesWord n w s) := by
  refine ⟨screenTakesWord_quiet, fun rolls why judged => screenTakesWord_refused rolls ?_,
    fun rolls calm lane fits => ?_⟩
  · rcases judged with ⟨evac, rfl⟩ | ⟨calm, lane, rfl⟩ | ⟨calm, lane, full, rfl⟩
    · exact judgeStart_evac evac
    · exact judgeStart_lane calm lane
    · exact judgeStart_nopower calm lane full
  · rw [screenTakesWord_rolls rolls, autoStart_fits calm lane fits, startEffects_eq, beforeCues_recompute]

/-! ### The readers together -/

theorem routerTakesWord_eq (n : Fin 12) (w : SideWord) (s : State) : routerTakesWord n w s = routed n w s := rfl

theorem acceptWord_none {l : Fin 14} (h : laneScreen l = none) (side : List Byte) (last : Bool) (s : State) :
    acceptWord l side last s = s := by
  unfold acceptWord
  rw [h]

theorem acceptWord_some {l : Fin 14} {n : Fin 12} (h : laneScreen l = some n) (side : List Byte) (last : Bool) (s : State) :
    acceptWord l side last s =
      if last then
        screenTakesWord n (readSideWord side) (takeWord n (readSideWord side) (routed n (readSideWord side)
          (s.modLane l fun x => { x with accepted := some (readSideWord side) })))
      else
        takeWord n (readSideWord side) (routed n (readSideWord side) (screenTakesWord n (readSideWord side)
          (s.modLane l fun x => { x with accepted := some (readSideWord side) }))) := by
  unfold acceptWord
  rw [h]
  rfl

theorem acceptWord_accepts (l : Fin 14) (side : List Byte) (last : Bool) (s : State) :
    Accepts l side last s (acceptWord l side last s) := by
  refine ⟨fun h => acceptWord_none h side last s, ?_⟩
  rintro n w y h rfl rfl
  rw [acceptWord_some h]
  cases last with
  | false => exact ⟨fun _ => ⟨_, screenTakesWord_takes .., rfl⟩, fun e => (by cases e)⟩
  | true => exact ⟨fun e => (by cases e), fun _ => screenTakesWord_takes ..⟩

/-! ### What the readers leave -/

/-- The effects of an admitted start leave the rest of a state. -/
theorem startEffects_frame (n : Fin 12) (hd : Option (Fin 16)) (s : State) : ∃ t,
    startEffects n (recompute .demand (candidate n .show hd s)) = t ∧
    t = { s with
      ports := t.ports, screens := t.screens, stampCounter := (candidate n .show hd s).stampCounter
      outputs := t.outputs, routes := s.routes.modify n fun x => { x with source := .default }
      meters := s.meters.modify n fun m =>
        { m with
          segmentSum := 0, segmentFill := 0, ring := [], windowSum := 0, windowLevel := 0, windowSpl := 0, showMax := 0 }
      alarms := s.alarms.modify n fun a =>
        { a with records := a.records.map fun k => { k with phase := 0 }, silenceRun := 0, loudTrim := 0 }
      grants := t.grants, pool := t.pool, cues := t.cues, booth := t.booth, context := t.context } := by
  refine ⟨_, rfl, ?_⟩
  rw [startEffects_eq]
  obtain ⟨_, _, _, _, frame⟩ := recompute_candidate_frame .demand n .show hd s
  generalize recompute .demand (candidate n .show hd s) = r at frame ⊢
  obtain ⟨_, _, _, _, _, after⟩ := startCues_frame n (beforeCues n r)
  rw [after, frame]
  rfl

/-- An automatic start leaves the layouts, and the routes, of which it may make its screen's layout source DEFAULT. -/
theorem autoStart_routes (n : Fin 12) (s : State) : (autoStart n s).layouts = s.layouts ∧
    ((autoStart n s).routes = s.routes ∨
      (autoStart n s).routes = s.routes.modify n fun x => { x with source := .default }) := by
  unfold autoStart
  split
  · exact ⟨rfl, .inl rfl⟩
  · next t judged =>
    obtain ⟨-, -, eq⟩ := judgeStart_inr judged
    obtain ⟨u, started, frame⟩ := startEffects_frame n (s.screens.get n).holder s
    rw [eq, started, frame]
    exact ⟨rfl, .inr rfl⟩

theorem screenTakesWord_held (n : Fin 12) (w : SideWord) (s : State) :
    ((screenTakesWord n w s).routes.get n).held = (s.routes.get n).held := by
  by_cases h : (s.screens.get n).rolls w
  · rw [screenTakesWord_rolls h, modScreen_routes]
    obtain ⟨-, e | e⟩ := autoStart_routes n s
    · rw [e]
    · rw [e, Tab.get_modify, if_pos rfl]
  · rw [screenTakesWord_quiet h]
    rfl

theorem screenTakesWord_layouts (n : Fin 12) (w : SideWord) (s : State) :
    (screenTakesWord n w s).layouts = s.layouts := by
  by_cases h : (s.screens.get n).rolls w
  · rw [screenTakesWord_rolls h, modScreen_layouts]
    exact (autoStart_routes n s).1
  · rw [screenTakesWord_quiet h]
    rfl

theorem takeWord_routes (n : Fin 12) (w : SideWord) (s : State) : (takeWord n w s).routes = s.routes := by
  obtain ⟨_, _, _, _, _, e⟩ := takeWord_frame n w s
  rw [e]

theorem takeWord_lastCall (n : Fin 12) (w : SideWord) (s : State) : ((takeWord n w s).cues.get n).lastCall = w.cueCall := by
  unfold takeWord
  dsimp only
  rw [modCues_cues, Tab.get_modify, if_pos rfl]

theorem takeWord_rolls {n : Fin 12} {w : SideWord} {s : State} (v : SideWord) :
    ((takeWord n w s).screens.get n).rolls v ↔ (s.screens.get n).rolls v := by
  rw [(takeWord_cueKept n w s).screens n]
  rfl

/-- A start takes the cue clock and the last cue call of the word that the lane holds. -/
theorem startEffects_clock {n : Fin 12} {w : SideWord} {s : State} (word : (s.lanes.get (programLane n)).accepted = some w)
    (hd : Option (Fin 16)) :
    ((startEffects n (recompute .demand (candidate n .show hd s))).cues.get n).clock = some w.showTime ∧
      ((startEffects n (recompute .demand (candidate n .show hd s))).cues.get n).lastCall = w.cueCall := by
  obtain ⟨_, _, _, _, frame⟩ := recompute_candidate_frame .demand n .show hd s
  generalize recompute .demand (candidate n .show hd s) = r at frame ⊢
  refine startCues_clock (s := beforeCues n r) ?_
  rw [frame]
  exact word
theorem autoStart_lastCall {n : Fin 12} {w : SideWord} {s : State} (word : (s.lanes.get (programLane n)).accepted = some w)
    (call : (s.cues.get n).lastCall = w.cueCall) : ((autoStart n s).cues.get n).lastCall = w.cueCall := by
  unfold autoStart
  split
  · exact call
  · next t judged =>
    obtain ⟨-, -, eq⟩ := judgeStart_inr judged
    have clock := startEffects_clock word (s.screens.get n).holder
    rw [← eq] at clock
    exact clock.2

theorem screenTakesWord_lastCall {n : Fin 12} {w : SideWord} {s : State}
    (word : (s.lanes.get (programLane n)).accepted = some w) (call : (s.cues.get n).lastCall = w.cueCall) :
    ((screenTakesWord n w s).cues.get n).lastCall = w.cueCall := by
  by_cases h : (s.screens.get n).rolls w
  · rw [screenTakesWord_rolls h]
    exact autoStart_lastCall word call
  · rw [screenTakesWord_quiet h]
    exact call

theorem layoutRecord_of {s t : State} (h : t.layouts = s.layouts) (code : Nat) : t.layoutRecord code = s.layoutRecord code := by
  unfold State.layoutRecord
  rw [h]

theorem routed_defined {n : Fin 12} {w : SideWord} {s : State} (h : (s.layoutRecord w.layout).isSome = true) :
    routed n w s = s.modRoute n fun a => { a with source := .lane, held := some w.layout } := if_pos h

theorem routed_undefined {n : Fin 12} {w : SideWord} {s : State} (h : (s.layoutRecord w.layout).isSome = false) :
    routed n w s = s := if_neg (by simp [h])

/-- An accepted word on a screen's lane: the layout that the route holds, and the call that the Cue Engine holds. -/
theorem acceptWord_leaves {l : Fin 14} {n : Fin 12} (hl : laneScreen l = some n) (side : List Byte) (last : Bool) (s : State) :
    ((acceptWord l side last s).cues.get n).lastCall = (readSideWord side).cueCall ∧
      ((s.layoutRecord (readSideWord side).layout).isSome = true →
        ((last = false ∨ ¬(s.screens.get n).rolls (readSideWord side)) →
          ((acceptWord l side last s).routes.get n).source = .lane) ∧
        ((acceptWord l side last s).routes.get n).held = some (readSideWord side).layout) ∧
      ((s.layoutRecord (readSideWord side).layout).isSome = false →
        ((acceptWord l side last s).routes.get n).held = (s.routes.get n).held) := by
  have lanes : ∀ t : State, (((t.modLane l fun x => { x with accepted := some (readSideWord side) }).lanes.get
      (programLane n)).accepted) = some (readSideWord side) := fun t => by
    rw [modLane_lanes, ← laneScreen_eq_some.1 hl, Tab.get_modify, if_pos rfl]
  rw [acceptWord_some hl]
  have word := lanes s
  generalize hx : (s.modLane l fun x => { x with accepted := some (readSideWord side) }) = x at word
  have layouts : s.layouts = x.layouts := by rw [← hx]; rfl
  have routes : s.routes = x.routes := by rw [← hx]; rfl
  have screens : s.screens = x.screens := by rw [← hx]; rfl
  rw [layoutRecord_of layouts, routes, screens]
  generalize readSideWord side = w at word ⊢
  have quiet : ∀ y : State, ¬(y.screens.get n).rolls w → (screenTakesWord n w y).routes = y.routes := fun y h => by
    rw [screenTakesWord_quiet h]
    rfl
  cases last with
  | false =>
    rw [if_neg Bool.false_ne_true, takeWord_routes]
    refine ⟨takeWord_lastCall .., fun defined => ⟨fun _ => ?_, ?_⟩, fun undefined => ?_⟩
    · rw [routed_defined (by rwa [layoutRecord_of (screenTakesWord_layouts n w x)])]
      rw [modRoute_routes, Tab.get_modify, if_pos rfl]
    · rw [routed_defined (by rwa [layoutRecord_of (screenTakesWord_layouts n w x)])]
      rw [modRoute_routes, Tab.get_modify, if_pos rfl]
    · rw [routed_undefined (by rwa [layoutRecord_of (screenTakesWord_layouts n w x)])]
      exact screenTakesWord_held n w x
  | true =>
    have kept : ((takeWord n w (routed n w x)).lanes.get (programLane n)).accepted = some w := by
      rw [(takeWord_showOnly n w _).lanes, ← routerTakesWord_eq, (routerTakesWord_showOnly n w x).lanes]
      exact word
    rw [if_pos rfl, screenTakesWord_held, takeWord_routes]
    refine ⟨screenTakesWord_lastCall kept (takeWord_lastCall ..), fun defined => ⟨fun h => ?_, ?_⟩, fun undefined => ?_⟩
    · have still : ¬((takeWord n w (routed n w x)).screens.get n).rolls w := by
        rw [takeWord_rolls, routed_defined defined]
        exact h.resolve_left (by decide)
      rw [quiet _ still, takeWord_routes, routed_defined defined, modRoute_routes, Tab.get_modify, if_pos rfl]
    · rw [routed_defined defined, modRoute_routes, Tab.get_modify, if_pos rfl]
    · rw [routed_undefined undefined]

end Sys2Proof.Machine
end

section
/-! PROOF. The block events of a lane, by its sync state (02 R32 to R37). -/

namespace Sys2Proof.Machine

section
variable {l : Fin 14} {b : LaneBlock} {k : Nat} {last : Bool} {s : State}

theorem laneBlock_idle (h : (s.lanes.get l).sync = .nosignal ∨ (s.lanes.get l).sync = .hunt) :
    laneBlock l b k last s = s := by
  unfold laneBlock
  rcases h with h | h <;> rw [h]

/-! ### PROBATION -/

theorem laneBlock_counts (h : (s.lanes.get l).sync = .probation) (good : goodBlock b.side = true)
    (one : (s.lanes.get l).good = some 1) :
    laneBlock l b k last s = s.modLane l fun x => { x with good := some 2, skew := some (k % 48) } := by
  have few : ¬ 3 ≤ ((s.lanes.get l).good.getD 0) + 1 := by rw [one]; decide
  simp only [laneBlock, h, probationBlock]
  rw [if_pos good, if_neg few]
  unfold State.modLane
  refine congrArg (fun t => ({ s with lanes := t } : State)) (Tab.ext_get fun m => ?_)
  rw [Tab.get_modify, Tab.get_modify]
  split
  · rw [one]
    rfl
  · rfl

theorem laneBlock_locks (h : (s.lanes.get l).sync = .probation) (good : goodBlock b.side = true)
    (two : 3 ≤ (s.lanes.get l).good.getD 0 + 1) :
    laneBlock l b k last s = acceptWord l b.side last ((s.modLane l fun x =>
      { x with sync := .locked, good := none, skew := some (k % 48), store := [silentAudio, b.frames] }).notify
        (.lane l .locked .probation .good (s.lanes.get l).slips)) := by
  simp only [laneBlock, h, probationBlock]
  rw [if_pos good, if_pos two, notifyLane_modLane]
  rfl

theorem laneBlock_loses (h : (s.lanes.get l).sync = .probation) (bad : goodBlock b.side = false) :
    laneBlock l b k last s = unlockLane l .hunt .bad s := by
  simp only [laneBlock, h, probationBlock]
  exact if_neg (by simp [bad])

/-! ### LOCKED -/

theorem laneBlock_goes_on (h : (s.lanes.get l).sync = .locked) (good : goodBlock b.side = true) :
    laneBlock l b k last s =
      acceptWord l b.side last (s.modLane l fun x => { x.write b.frames with skew := some (k % 48) }) := by
  simp only [laneBlock, h, lockedBlock]
  exact if_pos good

theorem laneBlock_slips (h : (s.lanes.get l).sync = .locked) (bad : goodBlock b.side = false) :
    laneBlock l b k last s = (s.modLane l fun x =>
      { x.write silentAudio with sync := .flywheel, bad := some 1, badBlocks := x.badBlocks + 1 }).notify
        (.lane l .flywheel .locked .bad ((s.lanes.get l).write silentAudio).slips) := by
  simp only [laneBlock, h, lockedBlock]
  rw [if_neg (by simp [bad]), notifyLane_modLane]

/-! ### FLYWHEEL -/

theorem laneBlock_returns (h : (s.lanes.get l).sync = .flywheel) (good : goodBlock b.side = true) :
    laneBlock l b k last s = acceptWord l b.side last ((s.modLane l fun x =>
      { x.write b.frames with sync := .locked, bad := none, skew := some (k % 48) }).notify
        (.lane l .locked .flywheel .good ((s.lanes.get l).write b.frames).slips)) := by
  simp only [laneBlock, h, flywheelBlock]
  rw [if_pos good, notifyLane_modLane]
  rfl

theorem laneBlock_coasts (h : (s.lanes.get l).sync = .flywheel) (bad : goodBlock b.side = false) {c : Nat}
    (count : (s.lanes.get l).bad = some c) (few : c < 4) :
    laneBlock l b k last s = s.modLane l fun x =>
      { x.write silentAudio with bad := some (c + 1), badBlocks := x.badBlocks + 1 } := by
  simp only [laneBlock, h, flywheelBlock, count, Option.getD_some]
  rw [if_neg (by simp [bad]), if_pos few]

theorem laneBlock_expires (h : (s.lanes.get l).sync = .flywheel) (bad : goodBlock b.side = false)
    (count : (s.lanes.get l).bad = some 4) :
    laneBlock l b k last s =
      unlockLane l .hunt .expired (s.modLane l fun x => { x with badBlocks := x.badBlocks + 1 }) := by
  simp only [laneBlock, h, flywheelBlock, count, Option.getD_some]
  rw [if_neg (by simp [bad]), if_neg (by decide)]

end

/-! ### The lane after the event -/

/-- A lane changed in itself alone, of which no word is taken where its lane accepts none. -/
def LaneChanged (l : Fin 14) (s t : State) : Prop :=
  ∃ f : Lane → Lane, t.lanes = s.lanes.modify l f ∧
    (laneScreen l = none → (f (s.lanes.get l)).accepted = (s.lanes.get l).accepted ∨ (f (s.lanes.get l)).accepted = none)

theorem Lane.write_accepted (a : Audio) (x : Lane) : (x.write a).accepted = x.accepted := by
  obtain ⟨_, _, _, _, e⟩ := x.write_frame a
  rw [e]

theorem Lane.take_none {l : Fin 14} (h : laneScreen l = none) (side : List Byte) (x : Lane) : x.take l side = x := by
  simp [Lane.take, h]

theorem acceptWord_lanes {l : Fin 14} {s t : State} {f : Lane → Lane} (ht : t.lanes = s.lanes.modify l f) (side : List Byte)
    (last : Bool) : (acceptWord l side last t).lanes = s.lanes.modify l fun x => (f x).take l side := by
  rw [(acceptWord_showOnly l side last t).lanes, modLane_lanes, ht, Tab.modify_modify]

theorem unlockLane_lanes {l : Fin 14} {s t : State} {f : Lane → Lane} (ht : t.lanes = s.lanes.modify l f) (sync : Sync)
    (cause : LaneCause) : (unlockLane l sync cause t).lanes = s.lanes.modify l fun x => (f x).unlock sync := by
  rw [(unlockLane_showOnly l sync cause t).lanes, modLane_lanes, ht, Tab.modify_modify]

theorem LaneChanged.refl (l : Fin 14) (s : State) : LaneChanged l s s :=
  ⟨id, (Tab.modify_eq_self _ _ rfl).symm, fun _ => .inl rfl⟩

theorem modLane_laneChanged {l : Fin 14} {s : State} {f : Lane → Lane}
    (word : (f (s.lanes.get l)).accepted = (s.lanes.get l).accepted) : LaneChanged l s (s.modLane l f) :=
  ⟨f, rfl, fun _ => .inl word⟩

theorem LaneChanged.notifyLane {l : Fin 14} {s t : State} (h : LaneChanged l s t) (previous : Sync) (cause : LaneCause) :
    LaneChanged l s (t.notifyLane l previous cause) := h

theorem acceptWord_laneChanged {l : Fin 14} {s t : State} {f : Lane → Lane} (ht : t.lanes = s.lanes.modify l f)
    (word : (f (s.lanes.get l)).accepted = (s.lanes.get l).accepted) (side : List Byte) (last : Bool) :
    LaneChanged l s (acceptWord l side last t) :=
  ⟨_, acceptWord_lanes ht side last, fun h => .inl (by rw [Lane.take_none h, word])⟩

theorem unlockLane_laneChanged {l : Fin 14} {s t : State} {f : Lane → Lane} (ht : t.lanes = s.lanes.modify l f) (sync : Sync)
    (cause : LaneCause) : LaneChanged l s (unlockLane l sync cause t) :=
  ⟨_, unlockLane_lanes ht sync cause, fun _ => .inr rfl⟩

theorem unmoved (l : Fin 14) (s : State) : s.lanes = s.lanes.modify l id := (Tab.modify_eq_self _ _ rfl).symm

theorem laneBlock_laneChanged (l : Fin 14) (b : LaneBlock) (k : Nat) (last : Bool) (s : State) :
    LaneChanged l s (laneBlock l b k last s) := by
  unfold laneBlock
  split
  · exact .refl l s
  · exact .refl l s
  · unfold probationBlock
    split
    · split
      · exact acceptWord_laneChanged
          (f := fun x => { x.prime b.frames with sync := .locked, good := none, skew := some (skewOf k) }) rfl rfl _ _
      · exact modLane_laneChanged rfl
    · exact unlockLane_laneChanged (unmoved l s) _ _
  · unfold lockedBlock
    split
    · exact acceptWord_laneChanged (f := fun x => { x.write b.frames with skew := some (skewOf k) }) rfl
        (Lane.write_accepted ..) _ _
    · refine LaneChanged.notifyLane (modLane_laneChanged ?_) _ _
      exact Lane.write_accepted silentAudio (s.lanes.get l)
  · unfold flywheelBlock
    dsimp only
    split
    · exact acceptWord_laneChanged
        (f := fun x => { x.write b.frames with sync := .locked, bad := none, skew := some (skewOf k) }) rfl
        (Lane.write_accepted ..) _ _
    · split
      · refine modLane_laneChanged ?_
        exact Lane.write_accepted silentAudio (s.lanes.get l)
      · exact unlockLane_laneChanged (f := fun x => { x with badBlocks := x.badBlocks + 1 }) rfl _ _

theorem LaneChanged.other {l : Fin 14} {s t : State} (h : LaneChanged l s t) {m : Fin 14} (other : m ≠ l) :
    t.lanes.get m = s.lanes.get m := by
  obtain ⟨f, e, -⟩ := h
  rw [e, Tab.get_modify, if_neg (Ne.symm other)]

theorem LaneChanged.word {l : Fin 14} {s t : State} (h : LaneChanged l s t) (hl : laneScreen l = none) :
    (t.lanes.get l).accepted = (s.lanes.get l).accepted ∨ (t.lanes.get l).accepted = none := by
  obtain ⟨f, e, word⟩ := h
  rw [e, Tab.get_modify, if_pos rfl]
  exact word hl

/-- The lane after an accepted word is the lane before it but for the word. -/
theorem acceptWord_lane (l : Fin 14) (side : List Byte) (last : Bool) (t : State) : (acceptWord l side last t).lanes.get l =
    { t.lanes.get l with accepted := ((acceptWord l side last t).lanes.get l).accepted } := by
  rw [(acceptWord_showOnly l side last t).lanes, modLane_lanes, Tab.get_modify, if_pos rfl]
  unfold Lane.take
  split <;> rfl

theorem modLane_get (l : Fin 14) (f : Lane → Lane) (s : State) : (s.modLane l f).lanes.get l = f (s.lanes.get l) := by
  rw [modLane_lanes, Tab.get_modify, if_pos rfl]

theorem acceptWord_accepted {l : Fin 14} {n : Fin 12} (h : laneScreen l = some n) (side : List Byte) (last : Bool) (s : State) :
    ((acceptWord l side last s).lanes.get l).accepted = some (readSideWord side) := by
  rw [(acceptWord_showOnly l side last s).lanes, modLane_lanes, Tab.get_modify, if_pos rfl]
  simp [Lane.take, h]

theorem unlockLane_lane (l : Fin 14) (sync : Sync) (cause : LaneCause) (t : State) :
    (unlockLane l sync cause t).lanes.get l = (t.lanes.get l).unlock sync := by
  rw [(unlockLane_showOnly l sync cause t).lanes, modLane_get]

/-- A block whose word a screen's lane accepts, after changes of its own that leave the screens, the routes and the
layouts. -/
theorem laneBlock_accepts {l : Fin 14} {b : LaneBlock} {k : Nat} {s : State} (good : goodBlock b.side = true)
    (locks : (s.lanes.get l).sync = .locked ∨ (s.lanes.get l).sync = .flywheel ∨
      (s.lanes.get l).sync = .probation ∧ 3 ≤ (s.lanes.get l).good.getD 0 + 1) :
    ∃ lanes ports, (∀ last, laneBlock l b k last s = acceptWord l b.side last { s with lanes, ports }) ∧
      (lanes.get l).sync = .locked ∧ ((s.lanes.get l).sync = .locked → ports = s.ports) := by
  rcases locks with h | h | ⟨h, two⟩
  · refine ⟨_, s.ports, fun last => laneBlock_goes_on h good, ?_, fun _ => rfl⟩
    obtain ⟨_, _, _, _, written⟩ := (s.lanes.get l).write_frame b.frames
    rw [Tab.get_modify, if_pos rfl, written]
    exact h
  · refine ⟨_, _, fun last => laneBlock_returns h good, ?_, fun e => by rw [h] at e; cases e⟩
    rw [modLane_get]
  · refine ⟨_, _, fun last => laneBlock_locks h good two, ?_, fun e => by rw [h] at e; cases e⟩
    rw [modLane_get]

/-- The loss of a lane, its bad blocks counted or not. -/
theorem unlocked_modLane (l : Fin 14) {f : Lane → Lane} (s : State) (word : ∀ x, (f x).accepted = x.accepted) (sync : Sync) :
    (s.modLane l f).unlocked l sync =
      { s with lanes := s.lanes.modify l fun x => (f x).unlock sync, screens := s.droppedScreens l } := by
  unfold State.unlocked State.droppedScreens
  rw [modLane_lanes, Tab.modify_modify, Tab.get_modify, if_pos rfl, word]
  rfl

theorem readSideWord_bytes (b0 b1 b2 b3 b4 b5 b6 b7 b8 b9 b10 b11 : Byte) :
    readSideWord [b0, b1, b2, b3, b4, b5, b6, b7, b8, b9, b10, b11] =
      { mark := b0.toNat, layout := b1.toNat, flags := b2.toNat, reel := b3.toNat,
        time := 65536 * b4.toNat + 256 * b5.toNat + b6.toNat, level := b7.toNat, server := b8.toNat,
        cueCall := b9.toNat, check := 256 * b10.toNat + b11.toNat } := by
  rw [Nat.mul_comm 65536, Nat.mul_comm 256, Nat.mul_comm 256]
  rfl

end Sys2Proof.Machine

open Sys2Proof Sys2Proof.Machine

/-- Settles O23: a block event by the state of its lane and the goodness of its block. -/
theorem laneBlocks : Obligations.LaneBlocks := by
  unfold Obligations.LaneBlocks
  refine ⟨readSideWord_bytes, fun l b k last s => ⟨_, rfl, fun m => (laneBlock_laneChanged l b k last s).other, laneBlock_idle,
    fun n hl good locks => ?_, (laneBlock_laneChanged l b k last s).word, fun h good one => ?_, fun h good two => ?_,
    fun h good => ?_, fun h bad => ?_, fun h good => ?_, fun c h bad count few => ?_, fun h bad count => ?_, fun h bad => ?_,
    ?_⟩⟩
  · have two : (s.lanes.get l).sync = .locked ∨ (s.lanes.get l).sync = .flywheel ∨
        (s.lanes.get l).sync = .probation ∧ 3 ≤ (s.lanes.get l).good.getD 0 + 1 :=
      locks.imp_right fun h => h.imp_right fun ⟨h, two⟩ => ⟨h, by rw [two]; decide⟩
    obtain ⟨lanes, ports, e, -, -⟩ := laneBlock_accepts (k := k) good two
    rw [e]
    obtain ⟨call, defined, undefined⟩ := acceptWord_leaves hl b.side last { s with lanes, ports }
    exact ⟨acceptWord_accepted hl .., defined, undefined, call⟩
  · rw [laneBlock_counts h good one, modLane_get]
  · rw [laneBlock_locks h good (by rw [two]; decide)]
    refine (acceptWord_lane ..).trans ?_
    rw [notify_lanes, modLane_get]
    rfl
  · rw [laneBlock_goes_on h good]
    refine (acceptWord_lane ..).trans ?_
    rw [modLane_get]
  · rw [laneBlock_slips h bad, notify_lanes, modLane_get]
    rfl
  · rw [laneBlock_returns h good]
    refine (acceptWord_lane ..).trans ?_
    rw [notify_lanes, modLane_get]
  · rw [laneBlock_coasts h bad count few, modLane_get]
    rfl
  · rw [laneBlock_expires h bad count]
    rw [unlockLane_lane, modLane_get]
    rfl
  · rw [laneBlock_loses h bad]
    exact unlockLane_lane ..
  · rintro zeros rfl
    refine ⟨laneBlock_idle, laneBlock_counts, fun h good two => ?_, fun h good => ?_, laneBlock_slips, fun h good => ?_,
      fun c h bad => laneBlock_coasts h bad, fun cause q bad why hq => ?_⟩
    · rw [laneBlock_locks h good (by rw [two]; decide)]
      exact acceptWord_accepts ..
    · rw [laneBlock_goes_on h good]
      exact acceptWord_accepts ..
    · rw [laneBlock_returns h good]
      exact acceptWord_accepts ..
    · subst hq
      rcases why with ⟨h, rfl⟩ | ⟨h, count, rfl⟩
      · exact (laneBlock_loses h bad).trans (unlockLane_eq ..)
      · refine (laneBlock_expires h bad count).trans ((unlockLane_eq ..).trans ?_)
        rw [unlocked_modLane l (f := fun x => { x with badBlocks := x.badBlocks + 1 }) s fun _ => rfl, modLane_get]
        rfl
end

section
/-! PROOF. The automatic start (01 R14). -/

namespace Sys2Proof.Machine

/-! ### Steps that do not see a change -/

section
variable {g : State → State}

theorem overList_comm {α : Type} {f : α → State → State} (h : ∀ x t, f x (g t) = g (f x t)) (l : List α) (s : State) :
    overList f l (g s) = g (overList f l s) := by
  unfold overList
  induction l generalizing s with
  | nil => rfl
  | cons x rest ih =>
    rw [List.foldl_cons, List.foldl_cons, h]
    exact ih (f x s)

theorem overScreens_comm {f : Fin 12 → State → State} (h : ∀ n t, f n (g t) = g (f n t)) (s : State) :
    overScreens f (g s) = g (overScreens f s) := overList_comm h (List.finRange 12) s

theorem overList_self {α : Type} {f : α → State → State} {s : State} (h : ∀ x, f x s = s) (l : List α) : overList f l s = s :=
  overList_induct (P := fun t => t = s) rfl fun x _ t ht => by rw [ht, h]

end

/-- The state with other lanes, ports, routes and cue lists. -/
def State.elsewhere (s : State) (l : Tab Lane 14) (p : Tab Port 4) (r : Tab Route 12) (q : Tab CueScreen 12) : State :=
  { s with lanes := l, ports := p, routes := r, cues := q }

/-- The state with other routes and cue lists. -/
def State.reread (r : Tab Route 12) (q : Tab CueScreen 12) (s : State) : State := { s with routes := r, cues := q }

/-- The state with other routes. -/
def State.rerouted (r : Tab Route 12) (s : State) : State := { s with routes := r }

theorem candidate_elsewhere (n : Fin 12) (st : ShowState) (hd : Option (Fin 16)) (s : State) (l : Tab Lane 14)
    (p : Tab Port 4) (r : Tab Route 12) (q : Tab CueScreen 12) :
    candidate n st hd (s.elsewhere l p r q) = (candidate n st hd s).elsewhere l p r q := by
  have base : stampBase (s.elsewhere l p r q) = (stampBase s).elsewhere l p r q :=
    (apply_ite (fun z : State => z.elsewhere l p r q) (s.stampCounter = Config.maxStamp) (renumber s) s).symm
  unfold candidate
  rw [takeStamp_eq, takeStamp_eq, base]
  rfl

theorem candidate_allot_elsewhere (n : Fin 12) (st : ShowState) (hd : Option (Fin 16)) (s : State) (l : Tab Lane 14)
    (p : Tab Port 4) (r : Tab Route 12) (q : Tab CueScreen 12) :
    (candidate n st hd (s.elsewhere l p r q)).allot = (candidate n st hd s).allot := by
  rw [candidate_elsewhere]
  exact allot_of rfl rfl

theorem candidate_reread (n : Fin 12) (st : ShowState) (hd : Option (Fin 16)) (s : State) (r : Tab Route 12)
    (q : Tab CueScreen 12) : candidate n st hd (s.reread r q) = (candidate n st hd s).reread r q := by
  obtain ⟨c, k, frame⟩ := candidate_frame n st hd s
  refine (candidate_elsewhere n st hd s s.lanes s.ports r q).trans ?_
  rw [frame]
  rfl

theorem candidate_allot_reread (n : Fin 12) (st : ShowState) (hd : Option (Fin 16)) (s : State) (r : Tab Route 12)
    (q : Tab CueScreen 12) : (candidate n st hd (s.reread r q)).allot = (candidate n st hd s).allot := by
  rw [candidate_reread]
  exact allot_of rfl rfl

theorem applyAllotment_reread (c : PowerCause) (a : Tab Allotment 12) (r : Tab Route 12) (q : Tab CueScreen 12) (n : Fin 12)
    (s : State) : applyAllotment c a n (s.reread r q) = (applyAllotment c a n s).reread r q := by
  have grants : (s.reread r q).grants = s.grants := rfl
  unfold applyAllotment
  dsimp only
  rw [grants, apply_ite (State.reread r q)]
  rfl

theorem abortMeasurement_reread (c : AbortCause) (r : Tab Route 12) (q : Tab CueScreen 12) (s : State) :
    abortMeasurement c (s.reread r q) = (abortMeasurement c s).reread r q := by
  simp only [abortMeasurement, State.reread]
  split <;> rfl

theorem handSuspension_reread (g : Tab Grant 12) (r : Tab Route 12) (q : Tab CueScreen 12) (n : Fin 12) (s : State) :
    handSuspension g n (s.reread r q) = (handSuspension g n s).reread r q := by
  have aborted : abortOn n .power (s.reread r q) = (abortOn n .power s).reread r q := by
    simp only [abortOn, abortMeasurement_reread]
    exact (apply_ite (State.reread r q) _ _ _).symm
  have suspended : suspendCalibration n (s.reread r q) = (suspendCalibration n s).reread r q := by
    rw [suspendCalibration, aborted]
    rfl
  rw [handSuspension, suspended]
  exact (apply_ite (State.reread r q) _ _ _).symm

/-- The power is computed without the routes and the cue lists. -/
theorem recompute_reread (c : PowerCause) (r : Tab Route 12) (q : Tab CueScreen 12) (s : State) :
    recompute c (s.reread r q) = (recompute c s).reread r q := by
  have allot : (s.reread r q).allot = s.allot := allot_of rfl rfl
  unfold recompute
  rw [allot, overScreens_comm (applyAllotment_reread c s.allot r q)]
  exact overScreens_comm (handSuspension_reread s.grants r q) _

/-! ### The cues and the routes -/

theorem perform_rerouted (r : Tab Route 12) (n : Fin 12) (a : Action) (s : State) :
    perform n a (s.rerouted r) = (perform n a s).rerouted r := by
  cases a <;> rfl

theorem fire_rerouted (r : Tab Route 12) (e : Fin 512) (s : State) : fire e (s.rerouted r) = (fire e s).rerouted r := by
  have evac : (s.rerouted r).evac = s.evac := rfl
  have entry : (s.rerouted r).pool.get e = s.pool.get e := rfl
  unfold fire
  rw [evac, entry]
  cases s.evac with
  | true => rfl
  | false =>
    cases s.pool.get e with
    | none => rfl
    | some c =>
      dsimp only
      rw [perform_rerouted]
      rfl

theorem rearm_reread (r : Tab Route 12) (q : Tab CueScreen 12) (e : Fin 512) (s : State) :
    rearm e (s.reread r q) = (rearm e s).reread r q := by
  simp only [rearm, State.reread]
  split <;> rfl

theorem skip_rerouted (r : Tab Route 12) (e : Fin 512) (s : State) : skip e (s.rerouted r) = (skip e s).rerouted r := by
  simp only [skip, State.rerouted]
  split <;> rfl

theorem advanceEntry_rerouted (jump : Bool) (low : Option Nat) (time : Nat) (r : Tab Route 12) (e : Fin 512) (s : State) :
    advanceEntry jump low time e (s.rerouted r) = (advanceEntry jump low time e s).rerouted r := by
  have entry : (s.rerouted r).timeEntry e = s.timeEntry e := rfl
  unfold advanceEntry
  rw [entry, skip_rerouted, fire_rerouted]
  cases s.timeEntry e with
  | none => rfl
  | some x =>
    dsimp only
    split
    · exact (apply_ite (State.rerouted r) _ _ _).symm
    · rfl

theorem fireState_rerouted (r : Tab Route 12) (n : Fin 12) (event : CueEvent) (s : State) :
    fireState n event (s.rerouted r) = (fireState n event s).rerouted r := overList_comm (fire_rerouted r) _ s

theorem rearm_cues (e : Fin 512) (s : State) : (rearm e s).cues = s.cues := by
  unfold rearm
  split <;> rfl

/-- A start takes the clock and the call of its word, whatever call the Cue Engine held. -/
theorem startCues_reread {n : Fin 12} {w : SideWord} {s : State} (word : s.word n = some w) (r : Tab Route 12) :
    startCues n (s.reread r (s.cues.modify n fun x => { x with lastCall := w.cueCall })) = (startCues n s).rerouted r := by
  have lists : ((s.cues.modify n fun x => { x with lastCall := w.cueCall }).get n).timeList = (s.cues.get n).timeList := by
    rw [Tab.get_modify, if_pos rfl]
  have same : (s.reread r (s.cues.modify n fun x => { x with lastCall := w.cueCall })).word n = some w := word
  have cues : (overList rearm (s.cues.get n).timeList s).cues = s.cues :=
    overList_induct (P := fun t => t.cues = s.cues) rfl fun e _ t ht => (rearm_cues e t).trans ht
  have set : ((overList rearm (s.cues.get n).timeList s).reread r (s.cues.modify n fun x =>
      { x with lastCall := w.cueCall })).modCues n (fun x => { x with clock := some w.showTime, lastCall := w.cueCall }) =
      ((overList rearm (s.cues.get n).timeList s).modCues n fun x =>
        { x with clock := some w.showTime, lastCall := w.cueCall }).rerouted r := by
    unfold State.modCues State.reread State.rerouted
    dsimp only
    rw [Tab.modify_modify, cues]
  unfold startCues
  simp only [word, same]
  rw [show ((s.reread r (s.cues.modify n fun x => { x with lastCall := w.cueCall })).cues.get n).timeList =
    (s.cues.get n).timeList from lists, overList_comm (rearm_reread r _), set,
    overList_comm (advanceEntry_rerouted true none w.showTime r), fireState_rerouted]

/-- No entry lies above a time and at or below it. -/
theorem advanceEntry_standing (jump : Bool) (time : Nat) (s : State) (e : Fin 512) :
    advanceEntry jump (some time) time e s = s := by
  unfold advanceEntry
  split
  · next t _ _ =>
    refine if_neg fun ⟨_, above, below⟩ => ?_
    have above : time < t := of_decide_eq_true above
    omega
  · rfl

/-- A word that the Cue Engine has taken changes nothing when it takes it again. -/
theorem takeWord_again {n : Fin 12} {w : SideWord} {s : State} (clock : (s.cues.get n).clock = some w.showTime)
    (call : (s.cues.get n).lastCall = w.cueCall) : takeWord n w s = s := by
  have told : ∀ f : CueScreen → CueScreen, f (s.cues.get n) = s.cues.get n → s.modCues n f = s := fun f h => by
    unfold State.modCues
    rw [Tab.modify_eq_self _ _ h]
  have set : setClock n w.showTime s = s := told _ (by rw [← clock])
  have passed : processTime n w.showTime s = s := by
    simp only [processTime, clock]
    rw [if_neg (lt_irrefl _), set]
    exact overList_self (advanceEntry_standing _ _ s) _
  simp only [takeWord, passed, call]
  simp only [ne_eq, not_true_eq_false, false_and, if_false, ite_self]
  exact told _ (by rw [← call])

/-! ### The screen that starts -/

/-- What a candidate keeps of its screen. -/
theorem candidate_kept (n : Fin 12) (st : ShowState) (hd : Option (Fin 16)) (s : State) :
    ((candidate n st hd s).screens.get n).config = (s.screens.get n).config ∧
      ((candidate n st hd s).screens.get n).lastLevel = (s.screens.get n).lastLevel := by
  have base : ((stampBase s).screens.get n).config = (s.screens.get n).config ∧
      ((stampBase s).screens.get n).lastLevel = (s.screens.get n).lastLevel := by
    unfold stampBase
    split
    · rw [renumber_screen]
      exact ⟨rfl, rfl⟩
    · exact ⟨rfl, rfl⟩
  rw [candidate_eq, entering_screen, if_pos rfl]
  exact base

theorem candidate_stamp {s : State} (room : s.stampCounter < 4294967295) (n : Fin 12) (st : ShowState)
    (hd : Option (Fin 16)) : (candidate n st hd s).stampCounter = s.stampCounter + 1 ∧
      ((candidate n st hd s).screens.get n).stamp = s.stampCounter + 1 := by
  rw [candidate_of_room room]
  dsimp only
  rw [Tab.get_modify, if_pos rfl]
  exact ⟨rfl, rfl⟩

/-- Screens with the demands of others give the grants of the others. -/
theorem granted_of_demands {s t : State} (demands : ∀ n, (t.screens.get n).demand n = (s.screens.get n).demand n)
    (states : ∀ n, (t.screens.get n).state = (s.screens.get n).state) (budget : t.budget = s.budget)
    (grants : t.grants = s.grants) (h : s.granted) : t.granted := by
  have allot : t.allot = s.allot := by
    unfold State.allot State.ranked
    simp only [demands, states, budget]
  intro n
  rw [allot, grants]
  exact h n

theorem modScreen_tookWord_granted (n : Fin 12) (w : SideWord) {s : State} (h : s.granted) :
    (s.modScreen n (Screen.tookWord w)).granted := by
  have screens : ∀ m, ((s.modScreen n (Screen.tookWord w)).screens.get m).demand m = (s.screens.get m).demand m ∧
      ((s.modScreen n (Screen.tookWord w)).screens.get m).state = (s.screens.get m).state := fun m => by
    rw [modScreen_screens, Tab.get_modify]
    split
    · next e => exact e ▸ ⟨rfl, rfl⟩
    · exact ⟨rfl, rfl⟩
  exact granted_of_demands (fun m => (screens m).1) (fun m => (screens m).2) rfl rfl h

theorem startEffects_granted (n : Fin 12) (hd : Option (Fin 16)) (s : State) :
    (startEffects n (recompute .demand (candidate n .show hd s))).granted := by
  have granted := recompute_granted .demand (candidate n .show hd s)
  generalize recompute .demand (candidate n .show hd s) = r at granted ⊢
  exact (startCues_cueKept n (beforeCues n r)).granted (granted_of (s := r) rfl rfl rfl granted)

/-- A started show whose screen has taken its word. -/
def startedBy (n : Fin 12) (w : SideWord) (s : State) : State :=
  ((startEffects n (recompute .demand (candidate n .show (s.screens.get n).holder s))).notify
    (.showN n .show .armed (s.screens.get n).holder .auto none none none)).modScreen n (Screen.tookWord w)

theorem screenTakesWord_started {n : Fin 12} {w : SideWord} {s : State} (rolls : (s.screens.get n).rolls w)
    (calm : s.evac = false) (lane : (s.lanes.get (programLane n)).delivering = true)
    (fits : ((candidate n .show (s.screens.get n).holder s).allot.get n).status ≠ .suspended) :
    screenTakesWord n w s = startedBy n w s := by
  rw [screenTakesWord_rolls rolls, autoStart_fits calm lane fits, startedBy]

/-- The screen that the start leaves: it took the word in SHOW. -/
theorem startedBy_screen (n : Fin 12) (w : SideWord) (s : State) : ∃ level,
    (startedBy n w s).screens.get n =
      Screen.tookWord w { (candidate n .show (s.screens.get n).holder s).screens.get n with level := level } := by
  have kept := startEffects_screen n n (recompute .demand (candidate n .show (s.screens.get n).holder s))
  have screens := recompute_screens .demand (candidate n .show (s.screens.get n).holder s)
  unfold startedBy
  generalize recompute .demand (candidate n .show (s.screens.get n).holder s) = r at kept screens ⊢
  refine ⟨((startEffects n r).screens.get n).level, ?_⟩
  rw [modScreen_screens, Tab.get_modify, if_pos rfl, notify_screens, ← screens]
  exact congrArg (Screen.tookWord w) kept

/-- What the start leaves of the rest. -/
theorem startedBy_frame (n : Fin 12) (w : SideWord) (s : State) : ∃ t, startedBy n w s = t ∧
    t = { s with
      ports := t.ports, screens := t.screens, stampCounter := (candidate n .show (s.screens.get n).holder s).stampCounter
      outputs := t.outputs, routes := s.routes.modify n fun x => { x with source := .default }
      meters := s.meters.modify n fun m =>
        { m with
          segmentSum := 0, segmentFill := 0, ring := [], windowSum := 0, windowLevel := 0, windowSpl := 0, showMax := 0 }
      alarms := s.alarms.modify n fun a =>
        { a with records := a.records.map fun k => { k with phase := 0 }, silenceRun := 0, loudTrim := 0 }
      grants := t.grants, pool := t.pool, cues := t.cues, booth := t.booth, context := t.context } := by
  obtain ⟨t, started, frame⟩ := startEffects_frame n (s.screens.get n).holder s
  refine ⟨_, rfl, ?_⟩
  unfold startedBy
  rw [started, frame]
  rfl

/-- The Cue Engine has taken the word that starts a show. -/
theorem startedBy_clock {n : Fin 12} {w : SideWord} {s : State} (word : (s.lanes.get (programLane n)).accepted = some w) :
    ((startedBy n w s).cues.get n).clock = some w.showTime ∧ ((startedBy n w s).cues.get n).lastCall = w.cueCall := by
  have clock := startEffects_clock word (s.screens.get n).holder
  unfold startedBy
  generalize startEffects n (recompute .demand (candidate n .show (s.screens.get n).holder s)) = t at clock ⊢
  exact clock

theorem startedBy_granted (n : Fin 12) (w : SideWord) (s : State) : (startedBy n w s).granted := by
  have granted := startEffects_granted n (s.screens.get n).holder s
  unfold startedBy
  generalize startEffects n (recompute .demand (candidate n .show (s.screens.get n).holder s)) = t at granted ⊢
  exact modScreen_tookWord_granted n w (granted_of (s := t) rfl rfl rfl granted)

/-- The start is the same whether or not the word's other readers took it before. -/
theorem startedBy_reread {n : Fin 12} {w : SideWord} {s : State} (word : (s.lanes.get (programLane n)).accepted = some w)
    (r : Tab Route 12) :
    startedBy n w (s.reread r (s.cues.modify n fun x => { x with lastCall := w.cueCall })) =
      (startedBy n w s).rerouted (r.modify n fun x => { x with source := .default }) := by
  obtain ⟨_, _, _, _, frame⟩ := recompute_candidate_frame .demand n .show (s.screens.get n).holder s
  have reread := recompute_reread .demand r (s.cues.modify n fun x => { x with lastCall := w.cueCall })
    (candidate n .show (s.screens.get n).holder s)
  have holder : ((s.reread r (s.cues.modify n fun x => { x with lastCall := w.cueCall })).screens.get n).holder =
      (s.screens.get n).holder := rfl
  unfold startedBy
  rw [holder, candidate_reread, reread]
  generalize recompute .demand (candidate n .show (s.screens.get n).holder s) = u at frame ⊢
  have cues : s.cues = (beforeCues n u).cues := by rw [frame]; rfl
  have seen : (beforeCues n u).word n = some w := by rw [frame]; exact word
  have effects : startEffects n (u.reread r (s.cues.modify n fun x => { x with lastCall := w.cueCall })) =
      (startEffects n u).rerouted (r.modify n fun x => { x with source := .default }) := by
    rw [startEffects_eq, startEffects_eq, ← startCues_reread seen, cues]
    rfl
  rw [effects]
  rfl

/-- The Cue Engine takes the word of a screen that is not in SHOW: its call alone. -/
theorem takeWord_quiet {n : Fin 12} {w : SideWord} {s : State} (h : (s.screens.get n).state ≠ .show) :
    takeWord n w s = s.modCues n fun x => { x with lastCall := w.cueCall } := by
  simp only [takeWord, if_neg h]

/-- The routes after the layout code of a word. -/
def State.routedBy (n : Fin 12) (w : SideWord) (s : State) : Tab Route 12 :=
  if (s.layoutRecord w.layout).isSome = true then s.routes.modify n fun a => { a with source := .lane, held := some w.layout }
  else s.routes

theorem routed_eq (n : Fin 12) (w : SideWord) (s : State) : routed n w s = s.rerouted (s.routedBy n w) :=
  (apply_ite (State.rerouted · s) _ _ _).symm

theorem State.routedBy_get (n : Fin 12) (w : SideWord) (s : State) :
    ((s.routedBy n w).get n).held =
        (if (s.layoutRecord w.layout).isSome = true then some w.layout else (s.routes.get n).held) ∧
      ((s.routedBy n w).get n).source =
        (if (s.layoutRecord w.layout).isSome = true then .lane else (s.routes.get n).source) := by
  unfold State.routedBy
  split
  · rw [Tab.get_modify, if_pos rfl]
    exact ⟨rfl, rfl⟩
  · exact ⟨rfl, rfl⟩

/-- A word that starts a show, in either order of its readers. -/
theorem acceptWord_started {l : Fin 14} {n : Fin 12} (hl : laneScreen l = some n) {side : List Byte} {s x : State}
    (hx : x = s.modLane l fun a => { a with accepted := some (readSideWord side) })
    (rolls : (x.screens.get n).rolls (readSideWord side)) (calm : x.evac = false)
    (lane : (x.lanes.get (programLane n)).delivering = true)
    (fits : ((candidate n .show (x.screens.get n).holder x).allot.get n).status ≠ .suspended) (last : Bool) :
    ∃ r, acceptWord l side last s = (startedBy n (readSideWord side) x).rerouted r ∧
      (r.get n).held = (if (x.layoutRecord (readSideWord side).layout).isSome = true then some (readSideWord side).layout
        else (x.routes.get n).held) ∧
      (r.get n).source =
        if last = false ∧ (x.layoutRecord (readSideWord side).layout).isSome = true then .lane else .default := by
  obtain rfl := laneScreen_eq_some.1 hl
  have word : (x.lanes.get (programLane n)).accepted = some (readSideWord side) := by rw [hx, modLane_get]
  have armed : (x.screens.get n).state ≠ .show := by
    obtain ⟨-, -, armed, -⟩ := rolls
    rw [armed]
    decide
  rw [acceptWord_some hl, ← hx]
  generalize readSideWord side = w at *
  obtain ⟨held, source⟩ := x.routedBy_get n w
  cases last with
  | true =>
    have started : screenTakesWord n w (x.reread (x.routedBy n w) (x.cues.modify n fun a => { a with lastCall := w.cueCall })) =
        startedBy n w (x.reread (x.routedBy n w) (x.cues.modify n fun a => { a with lastCall := w.cueCall })) := by
      refine screenTakesWord_started rolls calm lane ?_
      have same := candidate_allot_reread n .show (x.screens.get n).holder x (x.routedBy n w)
        (x.cues.modify n fun a => { a with lastCall := w.cueCall })
      rw [← same] at fits
      exact fits
    refine ⟨(x.routedBy n w).modify n fun a => { a with source := .default }, ?_, ?_, ?_⟩
    · rw [if_pos rfl, routed_eq, takeWord_quiet (s := x.rerouted (x.routedBy n w)) armed]
      exact started.trans (startedBy_reread word _)
    · rw [Tab.get_modify, if_pos rfl]
      exact held
    · rw [Tab.get_modify, if_pos rfl]
      rfl
  | false =>
    obtain ⟨clock, call⟩ := startedBy_clock word
    obtain ⟨t, started, frame⟩ := startedBy_frame n w x
    have layouts : t.layouts = x.layouts := by rw [frame]
    have routes : t.routes.get n = { x.routes.get n with source := .default } := by
      rw [frame]
      dsimp only
      rw [Tab.get_modify, if_pos rfl]
    obtain ⟨held, source⟩ := t.routedBy_get n w
    rw [layoutRecord_of layouts, routes] at held source
    rw [if_neg Bool.false_ne_true, screenTakesWord_started rolls calm lane fits, started, routed_eq]
    rw [started] at clock call
    refine ⟨_, takeWord_again (s := t.rerouted (t.routedBy n w)) clock call, held, source.trans ?_⟩
    simp only [true_and]

/-- A word whose start is refused, in either order of its readers. -/
theorem acceptWord_refused {l : Fin 14} {n : Fin 12} (hl : laneScreen l = some n) {side : List Byte} {s x : State}
    (hx : x = s.modLane l fun a => { a with accepted := some (readSideWord side) })
    (rolls : (x.screens.get n).rolls (readSideWord side)) {why : Reason} (judged : ∀ r q,
      judgeStart n (x.reread r q) = .inl why) (last : Bool) :
    ∃ r, acceptWord l side last s =
      ((((x.notify (.showN n .armed .armed (x.screens.get n).holder .auto none (some why) none)).modScreen n
        (Screen.tookWord (readSideWord side))).modCues n fun a => { a with lastCall := (readSideWord side).cueCall }).rerouted
          r) := by
  have armed : (x.screens.get n).state ≠ .show := by
    obtain ⟨-, -, armed, -⟩ := rolls
    rw [armed]
    decide
  rw [acceptWord_some hl, ← hx]
  generalize readSideWord side = w at *
  cases last with
  | true =>
    refine ⟨x.routedBy n w, ?_⟩
    rw [if_pos rfl, routed_eq, takeWord_quiet (s := x.rerouted (x.routedBy n w)) armed]
    exact screenTakesWord_refused
      (s := x.reread (x.routedBy n w) (x.cues.modify n fun a => { a with lastCall := w.cueCall })) rolls (judged _ _)
  | false =>
    have refused : screenTakesWord n w x = _ := screenTakesWord_refused rolls (judged x.routes x.cues)
    rw [if_neg Bool.false_ne_true, refused, routed_eq]
    refine ⟨_, takeWord_quiet ?_⟩
    unfold State.rerouted
    dsimp only
    rw [modScreen_screens, Tab.get_modify, if_pos rfl]
    exact armed

/-- The block is one at which a word is accepted. -/
theorem Lane.accepts_iff {b : LaneBlock} {l : Lane} : l.accepts b = true ↔ goodBlock b.side = true ∧
    (l.sync = .locked ∨ l.sync = .flywheel ∨ l.sync = .probation ∧ 3 ≤ l.good.getD 0 + 1) := by
  rw [Lane.accepts, Bool.and_eq_true]
  refine and_congr_right fun _ => ?_
  cases l.sync <;> simp

theorem State.attemptsStart_iff {s : State} {n : Fin 12} {b : LaneBlock} : s.attemptsStart n b = true ↔
    goodBlock b.side = true ∧
      ((s.lanes.get (programLane n)).sync = .locked ∨ (s.lanes.get (programLane n)).sync = .flywheel ∨
        (s.lanes.get (programLane n)).sync = .probation ∧ 3 ≤ (s.lanes.get (programLane n)).good.getD 0 + 1) ∧
      (s.screens.get n).rolls (readSideWord b.side) := by
  rw [State.attemptsStart, Bool.and_eq_true, Lane.accepts_iff, Screen.attemptsStart_iff, and_assoc]

/-- A screen at which the word rolls takes its flag and its byte, and no level. -/
theorem Screen.tookWord_rolls {w : SideWord} {c : Screen} (h : c.rolls w) :
    c.tookWord w = { c with lastRolling := some true, lastLevel := w.level } := by
  obtain ⟨flag, -, armed, -⟩ := h
  have level : ¬(c.config.laneLevel = true ∧ (c.state = .show ∨ c.state = .paused) ∧ w.level ≤ 100 ∧ w.level ≠ c.lastLevel) := by
    rintro ⟨-, show_ | paused, -⟩
    · rw [armed] at show_
      cases show_
    · rw [armed] at paused
      cases paused
  unfold Screen.tookWord
  rw [if_neg level, decide_eq_true flag]

theorem delivering_of_locked {l : Lane} (h : l.sync = .locked) : l.delivering = true := by
  rw [Lane.delivering, h]

theorem Tab.modify_congr {α : Type} {n : Nat} (t : Tab α n) (i : Fin n) {f g : α → α} (h : f (t.get i) = g (t.get i)) :
    t.modify i f = t.modify i g :=
  Tab.ext_get fun j => by
    rw [Tab.get_modify, Tab.get_modify]
    split
    · exact h
    · rfl

theorem modify_tookWord {s : State} {n : Fin 12} {w : SideWord} (h : (s.screens.get n).rolls w) :
    s.screens.modify n (Screen.tookWord w) =
      s.screens.modify n fun c => { c with lastRolling := some true, lastLevel := w.level } :=
  Tab.modify_congr s.screens n (f := Screen.tookWord w)
    (g := fun c => { c with lastRolling := some true, lastLevel := w.level }) (Screen.tookWord_rolls h)

end Sys2Proof.Machine

open Sys2Proof Sys2Proof.Machine

/-- Settles O21: the block event, and the start that is judged at its word. -/
theorem automaticStartJudged : Obligations.AutomaticStartJudged := by
  unfold Obligations.AutomaticStartJudged
  rintro n b since last s l w rfl rfl
  refine ⟨fun other => ?_, fun good locks rolls => ?_⟩
  · exact congrArg Host.Outcome.next (if_neg fun e => other (State.attemptsStart_iff.1 e))
  have attempts := State.attemptsStart_iff.2 ⟨good, locks, rolls⟩
  have ran : ∀ last, exec (.automaticStart ⟨n, b, since, last⟩) s =
      .next (laneBlock (programLane n) b since last s) := fun last => congrArg Host.Outcome.next (if_pos attempts)
  refine ⟨ran last, fun why judged => ?_, fun calm fits => ?_⟩
  · obtain ⟨lanes, ports, e, locked, told⟩ := laneBlock_accepts (k := since) good locks
    generalize hx : (({ s with lanes, ports } : State).modLane (programLane n) fun a =>
      { a with accepted := some (readSideWord b.side) }) = x
    have place : x = s.elsewhere x.lanes ports s.routes s.cues := by rw [← hx]; rfl
    have refused : ∀ r q, judgeStart n (x.reread r q) = .inl why := fun r q => by
      have lane : ((x.reread r q).lanes.get (programLane n)).delivering = true := by
        rw [← hx]
        exact delivering_of_locked (by rw [State.reread, modLane_get]; exact locked)
      rcases judged with ⟨evac, rfl⟩ | ⟨calm, full, rfl⟩
      · exact judgeStart_evac (by rw [place]; exact evac)
      · refine judgeStart_nopower (by rw [place]; exact calm) lane ?_
        rw [candidate_allot_reread, place]
        exact (congrArg (fun a : Tab Allotment 12 => (a.get n).status) (candidate_allot_elsewhere n .show _ s _ _ _ _)).trans full
    obtain ⟨r, e'⟩ := acceptWord_refused (laneScreen_programLane n) hx.symm (by rw [place]; exact rolls) refused last
    refine ⟨_, (ran last).trans (congrArg Host.Outcome.next ((e last).trans e')), ?_, fun same => ?_⟩
    · rw [place, ← modify_tookWord rolls]
      rfl
    · rw [place, ← told same]
      rfl
  · obtain ⟨lanes, ports, e, locked, -⟩ := laneBlock_accepts (k := since) good locks
    generalize hx : (({ s with lanes, ports } : State).modLane (programLane n) fun a =>
      { a with accepted := some (readSideWord b.side) }) = x at e
    have place : x = s.elsewhere x.lanes ports s.routes s.cues := by rw [← hx]; rfl
    have lane : (x.lanes.get (programLane n)).delivering = true := by
      rw [← hx]
      exact delivering_of_locked (by rw [modLane_get]; exact locked)
    have word : (x.lanes.get (programLane n)).accepted = some (readSideWord b.side) := by rw [← hx, modLane_get]
    have admitted : ((candidate n .show (x.screens.get n).holder x).allot.get n).status ≠ .suspended := by
      have same := candidate_allot_elsewhere n .show (s.screens.get n).holder s x.lanes ports s.routes s.cues
      rw [← same, ← place] at fits
      rw [place]
      rw [place] at fits
      exact fits
    have started := acceptWord_started (laneScreen_programLane n) hx.symm (by rw [place]; exact rolls)
      (by rw [place]; exact calm) lane admitted
    obtain ⟨r, e', held, source⟩ := started last
    obtain ⟨r', e'', -, -⟩ := started !last
    obtain ⟨clock, call⟩ := startedBy_clock word
    obtain ⟨level, screen⟩ := startedBy_screen n (readSideWord b.side) x
    have granted := startedBy_granted n (readSideWord b.side) x
    obtain ⟨t, eq, frame⟩ := startedBy_frame n (readSideWord b.side) x
    rw [eq] at e' e'' clock call screen granted
    obtain ⟨state, holder⟩ := candidate_screen n .show (x.screens.get n).holder x
    obtain ⟨config, before⟩ := candidate_kept n .show (x.screens.get n).holder x
    have stamp := fun room => candidate_stamp (s := x) room n .show (x.screens.get n).holder
    have screens : x.screens = s.screens := by rw [place]; rfl
    have counter : x.stampCounter = s.stampCounter := by rw [place]; rfl
    have kept : t.lanes = x.lanes := by rw [frame]
    rw [layoutRecord_of (s := s) (by rw [place]; rfl), show x.routes = s.routes by rw [place]; rfl] at held
    rw [layoutRecord_of (s := s) (by rw [place]; rfl)] at source
    have same : x.screens.get n = s.screens.get n := by rw [screens]
    have config := config.trans (congrArg Screen.config same)
    have before := before.trans (congrArg Screen.lastLevel same)
    refine ⟨t.rerouted r, (ran last).trans (congrArg Host.Outcome.next ((e last).trans e')), ?_,
      (congrArg Screen.state screen).trans state, ((congrArg Screen.holder screen).trans holder).trans (congrArg Screen.holder same),
      (congrArg Screen.config screen).trans config, fun room => ⟨?_, ?_⟩, (congrArg Screen.lastRolling screen).trans ?_,
      congrArg Screen.lastLevel screen, fun laneLevel inside moved => (congrArg Screen.level screen).trans ?_,
      granted_of (s := t) rfl rfl rfl granted, clock, call, ?_, ?_, ?_, held, source, t.rerouted r',
      (ran !last).trans (congrArg Host.Outcome.next ((e !last).trans e'')), rfl⟩
    · rw [frame, place]
      rfl
    · rw [← counter] at room ⊢
      rw [frame]
      exact (stamp room).1
    · rw [← counter] at room ⊢
      exact (congrArg Screen.stamp screen).trans (stamp room).2
    · exact congrArg some (decide_eq_true rolls.1)
    · refine if_pos ⟨config.symm ▸ laneLevel, .inl state, inside, ?_⟩
      exact before.symm ▸ moved
    · rw [frame, place]
      rfl
    · rw [frame, place]
      rfl
    · rw [frame]
      exact word
end

section
/-! PROOF. TUNE LOAD and TRIM (04 R70, R71). -/

namespace Sys2Proof.Machine

section
variable {s : State} {o : Fin 192}

theorem State.holdsOutput_iff {station : Fin 16} : s.holdsOutput o station = true ↔
    ∃ n, (s.outputs.get o).screen = some n ∧ (s.screens.get n).holder = some station := by
  unfold State.holdsOutput
  cases (s.outputs.get o).screen with
  | none => simp
  | some n => simp [State.holds_iff]

theorem State.inShow_iff : s.inShow o = true ↔ ∃ n, (s.outputs.get o).screen = some n ∧
    ((s.screens.get n).state.playing = true ∨ (s.screens.get n).state = .evacuated) := by
  unfold State.inShow
  cases (s.outputs.get o).screen with
  | none => simp
  | some n =>
    simp only [Option.some.injEq, exists_eq_left']
    cases (s.screens.get n).state <;> simp [ShowState.playing]

theorem offsetAt_place (s : State) (o : Fin 192) : s.offsetAt (s.outputs.get o).place =
    ((s.outputs.get o).screen.map fun n => (s.screens.get n).config.lipSync).getD 0 := by
  unfold State.offsetAt Output.screen
  cases (s.outputs.get o).place <;> rfl

theorem notInShow (quiet : ∀ n, (s.outputs.get o).screen = some n →
      (s.screens.get n).state.playing = false ∧ (s.screens.get n).state ≠ .evacuated) : ¬s.inShow o = true := fun e => by
  obtain ⟨n, hn, playing⟩ := State.inShow_iff.1 e
  obtain ⟨calm, gone⟩ := quiet n hn
  rcases playing with e | e
  · cases calm.symm.trans e
  · exact gone e

variable {h : Header} {trim : Int} {p : Nat} {sections : List Section} {delay : Nat}

theorem actTuneLoad_range (out : 1 < p ∨ 8 < sections.length) : actTuneLoad h trim p sections delay o s = .refuse .range :=
  if_pos out

theorem actTuneLoad_stranger (hp : p ≤ 1) (few : sections.length ≤ 8) (role : roleOf h.station ≠ .management)
    (other : ∀ n, (s.outputs.get o).screen = some n → (s.screens.get n).holder ≠ some h.station) :
    actTuneLoad h trim p sections delay o s = .refuse .held := by
  have manages : isManagement h.station = false := Bool.eq_false_iff.2 fun e => role (isManagement_iff.1 e)
  have holds : s.holdsOutput o h.station = false := Bool.eq_false_iff.2 fun e => by
    obtain ⟨n, hn, holder⟩ := State.holdsOutput_iff.1 e
    exact other n hn holder
  unfold actTuneLoad
  rw [if_neg (by omega), if_pos (by rw [manages, holds]; rfl)]

/-- The holder of the output's screen, or a MANAGEMENT station. -/
theorem mayTune (may : roleOf h.station = .management ∨
      ∃ n, (s.outputs.get o).screen = some n ∧ (s.screens.get n).holder = some h.station) :
    (isManagement h.station || s.holdsOutput o h.station) = true := by
  rw [Bool.or_eq_true, isManagement_iff, State.holdsOutput_iff]
  exact may

theorem actTuneLoad_may (hp : p ≤ 1) (few : sections.length ≤ 8) (may : roleOf h.station = .management ∨
      ∃ n, (s.outputs.get o).screen = some n ∧ (s.screens.get n).holder = some h.station) :
    actTuneLoad h trim p sections delay o s = if s.inShow o then .refuse .state
      else if s.selftest.running then .refuse .starting else loadTuning o trim p sections delay s := by
  have allowed := mayTune may
  unfold actTuneLoad
  rw [if_neg (by omega), if_neg]
  intro e
  rw [← Bool.not_or, allowed] at e
  cases e

/-- The output with its new tuning record, its histories at 0. -/
def tuned (trim : Int) (p : Nat) (sections : List Section) (delay : Nat) (x : Output) : Output :=
  { x with
    trim := max (-80) (min trim 24), inverted := decide (p = 1), delay := min delay 9599
    path := sections.map fun c => { coef := c, hist := { x1 := 0, x2 := 0, y1 := 0, y2 := 0 } } }

/-- What the settings of a TUNE LOAD store, and the change of effective delay that it makes. -/
theorem loadTuning_eq (o : Fin 192) (trim : Int) (p : Nat) (sections : List Section) (delay : Nat) (s : State) (c : Change)
    (hc : c = { output := o, delay := min delay 9599 +
      ((s.outputs.get o).screen.map fun n => (s.screens.get n).config.lipSync).getD 0 }) :
    loadTuning o trim p sections delay s =
      if min delay 9599 = (s.outputs.get o).delay then
        .accept (s.modOutput o (tuned trim p sections delay)) (decide (trim < -80 ∨ 24 < trim ∨ 9599 < delay)) []
      else
        match s.reallocRefusal [c] with
        | some why => .refuse why
        | none => .accept ((reallocate [c] s).modOutput o (tuned trim p sections delay))
            (decide (trim < -80 ∨ 24 < trim ∨ 9599 < delay)) [] := by
  subst hc
  have value := settingInt_value (show (-80 : Int) ≤ 24 by decide) trim
  have far := settingInt_clamped (show (-80 : Int) ≤ 24 by decide) trim
  have length := settingNat_value (Nat.zero_le 9599) delay
  have long := settingNat_clamped (Nat.zero_le 9599) delay
  rw [Nat.zero_max] at length
  simp only [Nat.not_lt_zero, false_or] at long
  have flags : (decide (trim < -80 ∨ 24 < trim) || decide (9599 < delay)) = decide (trim < -80 ∨ 24 < trim ∨ 9599 < delay) := by
    rw [← Bool.decide_or]
    exact decide_eq_decide.2 or_assoc
  have tune : Output.tune (max (-80) (min trim 24)) (decide (p = 1)) sections (min delay 9599) = tuned trim p sections delay :=
    rfl
  unfold loadTuning State.tuneChange
  simp only [value, far, length, long, flags, tune, effectiveDelay_eq, offsetAt_place, Nat.add_right_cancel_iff] <;> rfl

theorem loadTuning_refused {c : Change} {why : Reason} (hc : c = { output := o, delay := min delay 9599 +
      ((s.outputs.get o).screen.map fun n => (s.screens.get n).config.lipSync).getD 0 })
    (moves : min delay 9599 ≠ (s.outputs.get o).delay) (refused : s.reallocRefusal [c] = some why) :
    loadTuning o trim p sections delay s = .refuse why := by
  rw [loadTuning_eq o trim p sections delay s c hc, if_neg moves, refused]

theorem loadTuning_moved {c : Change} (hc : c = { output := o, delay := min delay 9599 +
      ((s.outputs.get o).screen.map fun n => (s.screens.get n).config.lipSync).getD 0 })
    (moves : min delay 9599 ≠ (s.outputs.get o).delay) (fits : s.reallocRefusal [c] = none) :
    loadTuning o trim p sections delay s = .accept ((reallocate [c] s).modOutput o (tuned trim p sections delay))
      (decide (trim < -80 ∨ 24 < trim ∨ 9599 < delay)) [] := by
  rw [loadTuning_eq o trim p sections delay s c hc, if_neg moves, fits]

theorem loadTuning_still (stays : min delay 9599 = (s.outputs.get o).delay) :
    loadTuning o trim p sections delay s =
      .accept (s.modOutput o (tuned trim p sections delay)) (decide (trim < -80 ∨ 24 < trim ∨ 9599 < delay)) [] := by
  rw [loadTuning_eq o trim p sections delay s _ rfl, if_pos stays]

theorem actTrim_may {value : Int} (may : roleOf h.station = .management ∨
      ∃ n, (s.outputs.get o).screen = some n ∧ (s.screens.get n).holder = some h.station) :
    actTrim h value o s = .accept (s.modOutput o fun x => { x with trim := max (-80) (min value 24) })
      (decide (value < -80 ∨ 24 < value)) [] := by
  have stored := settingInt_value (show (-80 : Int) ≤ 24 by decide) value
  have far := settingInt_clamped (show (-80 : Int) ≤ 24 by decide) value
  simp only [actTrim, stored, far]
  exact if_pos (mayTune may)

theorem actTrim_stranger {value : Int} (role : roleOf h.station ≠ .management)
    (other : ∀ n, (s.outputs.get o).screen = some n → (s.screens.get n).holder ≠ some h.station) :
    actTrim h value o s = .refuse .held := by
  refine if_neg fun e => ?_
  rw [Bool.or_eq_true, isManagement_iff, State.holdsOutput_iff] at e
  obtain e | ⟨n, hn, holder⟩ := e
  · exact role e
  · exact other n hn holder

end

end Sys2Proof.Machine

open Sys2Proof Sys2Proof.Machine

/-- Settles O38: TUNE LOAD by the order of its checks, and TRIM. -/
theorem tuneLoadAndTrim : Obligations.TuneLoadAndTrim := by
  unfold Obligations.TuneLoadAndTrim
  refine ⟨fun h output s out => ⟨fun trim p sections delay hr => ?_, fun value hr => ?_⟩,
    fun h output o s ho => ⟨fun trim p sections delay hr => ⟨fun wrong => ?_, fun hp few => ⟨fun role other => ?_,
      fun may => ⟨fun playing => ?_, fun quiet => ⟨fun running => ?_, ?_⟩⟩⟩⟩, fun value hr => ⟨fun may => ?_, fun role other => ?_⟩⟩⟩
  · exact takeRequest_refuse hr (onOutput_invalid (ident_eq_none.2 out) _ _)
  · exact takeRequest_refuse hr (onOutput_invalid (ident_eq_none.2 out) _ _)
  · exact takeRequest_refuse hr ((onOutput_valid ho _ _).trans (actTuneLoad_range wrong))
  · exact takeRequest_refuse hr ((onOutput_valid ho _ _).trans (actTuneLoad_stranger (s := s.taking _ h) hp few role other))
  · exact takeRequest_refuse hr ((onOutput_valid ho _ _).trans ((actTuneLoad_may (s := s.taking _ h) hp few may).trans
      (if_pos (State.inShow_iff.2 playing))))
  · exact takeRequest_refuse hr ((onOutput_valid ho _ _).trans ((actTuneLoad_may (s := s.taking _ h) hp few may).trans
      ((if_neg (notInShow quiet)).trans (if_pos running))))
  · rintro idle d lip rfl rfl
    have load : actTuneLoad h trim p sections delay o (s.taking (.tuneLoad h output trim p sections delay) h) =
        loadTuning o trim p sections delay (s.taking (.tuneLoad h output trim p sections delay) h) :=
      (actTuneLoad_may (s := s.taking _ h) hp few may).trans ((if_neg (notInShow quiet)).trans (if_neg fun e => Bool.false_ne_true (idle.symm.trans e)))
    refine ⟨fun why moves refused => ?_, ?_⟩
    · exact takeRequest_refuse hr ((onOutput_valid ho _ _).trans (load.trans
        (loadTuning_refused (s := s.taking _ h) rfl moves refused)))
    · rintro u (⟨stays, rfl⟩ | ⟨moves, fits, rfl⟩)
      · exact takeRequest_accept hr ((onOutput_valid ho _ _).trans (load.trans (loadTuning_still (s := s.taking _ h) stays)))
      · exact takeRequest_accept hr ((onOutput_valid ho _ _).trans (load.trans
          (loadTuning_moved (s := s.taking _ h) rfl moves fits)))
  · exact takeRequest_accept hr ((onOutput_valid ho _ _).trans (actTrim_may (s := s.taking _ h) may))
  · exact takeRequest_refuse hr ((onOutput_valid ho _ _).trans (actTrim_stranger (s := s.taking _ h) role other))
end

section
/-! PROOF. The return block events: the lock of a return lane and its reports (07 R127 to R133). -/

namespace Sys2Proof.Machine

/-! ### The report -/

theorem checkHolds_iff {l : List Byte} {hi lo : Byte} :
    checkHolds (l ++ [hi, lo]) = true ↔ (crc l).toNat = 256 * hi.toNat + lo.toNat := by
  have all : (l ++ [hi, lo]).length = l.length + 2 := by simp
  have body : (l ++ [hi, lo]).take l.length = l := List.take_left' rfl
  have check : (l ++ [hi, lo]).drop l.length = [hi, lo] := List.drop_left' rfl
  simp only [checkHolds, all, Nat.add_sub_cancel, body, check, Bool.and_eq_true, beq_iff_eq, decide_eq_true_iff]
  rw [← checkBytes_eq_iff]
  exact ⟨fun ⟨_, e⟩ => e.symm, fun e => ⟨by omega, e.symm⟩⟩

theorem readReport_length {bytes : List Byte} (h : bytes.length ≠ 12) : readReport bytes = none := by
  unfold readReport
  rw [beq_false_of_ne h]
  rfl

theorem getLsbD_zero_eq (b : Byte) : decide (b.toNat % 2 = 1) = b.getLsbD 0 := by
  rw [BitVec.getLsbD, Nat.testBit_zero]

section
variable {channel v1 v0 i1 i0 pilot b6 b7 b8 b9 hi lo : Byte}

theorem readReport_eq : readReport [channel, v1, v0, i1, i0, pilot, b6, b7, b8, b9, hi, lo] =
    if (crc [channel, v1, v0, i1, i0, pilot, b6, b7, b8, b9]).toNat = 256 * hi.toNat + lo.toNat then
      (ident 16 channel.toNat).map fun c =>
        { channel := c, volts := 256 * v1.toNat + v0.toNat, amps := 256 * i1.toNat + i0.toNat, valid := pilot.getLsbD 0 }
    else none := by
  have holds : checkHolds [channel, v1, v0, i1, i0, pilot, b6, b7, b8, b9, hi, lo] = true ↔ _ :=
    checkHolds_iff (l := [channel, v1, v0, i1, i0, pilot, b6, b7, b8, b9]) (hi := hi) (lo := lo)
  have pair : ∀ a b : Byte, beNat [a, b] = 256 * a.toNat + b.toNat := fun a b => by
    rw [beNat_cons, beNat_cons, Nat.mul_comm]
    simp [beNat]
  have volts : beNat (([channel, v1, v0, i1, i0, pilot, b6, b7, b8, b9, hi, lo].drop 1).take 2) = 256 * v1.toNat + v0.toNat :=
    pair v1 v0
  have amps : beNat (([channel, v1, v0, i1, i0, pilot, b6, b7, b8, b9, hi, lo].drop 3).take 2) = 256 * i1.toNat + i0.toNat :=
    pair i1 i0
  unfold readReport
  rw [volts, amps]
  by_cases good : (crc [channel, v1, v0, i1, i0, pilot, b6, b7, b8, b9]).toNat = 256 * hi.toNat + lo.toNat
  · rw [if_pos good, holds.2 good]
    refine (if_pos rfl).trans ?_
    exact congrArg (fun v => (ident 16 channel.toNat).map fun c => ({ channel := c, volts := _, amps := _, valid := v } : Report))
      (getLsbD_zero_eq pilot)
  · rw [if_neg good, if_neg fun e => good (holds.1 (Bool.and_eq_true_iff.1 e).2)]

end

theorem classify_iff (t : Thresholds) (z : Nat) : (classify t z = .short ↔ z ≤ t.shortMax) ∧
    (classify t z = .open ↔ t.shortMax < z ∧ t.openMin ≤ z) ∧
    (classify t z = .low ↔ t.shortMax < z ∧ z < t.openMin ∧ z < t.lowDrift) ∧
    (classify t z = .high ↔ t.shortMax < z ∧ z < t.openMin ∧ t.lowDrift ≤ z ∧ t.highDrift < z) := by
  unfold classify
  split
  · next h => simp; omega
  · split
    · next h => simp; omega
    · split
      · next h => simp; omega
      · split
        · next h => simp; omega
        · next h => simp; omega

/-! ### The lock and its loss -/

/-- One output of a pass over a lane: its record changes, and its notice, if any, is told. -/
def senseStep (f : Output → Output) (g : Fin 192 → Output → Option Notice) (o : Fin 192) (s : State) : State :=
  { s.modOutput o f with ports := tell (g o (s.outputs.get o)).toList s.ports }

/-- A pass changes each output once, and tells the notices in the order of the outputs. -/
theorem overList_senseStep (f : Output → Output) (g : Fin 192 → Output → Option Notice) {l : List (Fin 192)} (once : l.Nodup)
    (s : State) : overList (senseStep f g) l s =
      { s with
        outputs := s.outputs.update fun o x => if o ∈ l then f x else x
        ports := tell (l.filterMap fun o => g o (s.outputs.get o)) s.ports } := by
  induction l generalizing s with
  | nil =>
    refine congrArg (fun t => ({ s with outputs := t } : State)) (Tab.ext_get fun o => ?_)
    rw [Tab.get_update, if_neg (List.not_mem_nil)]
  | cons x rest ih =>
    obtain ⟨fresh, once⟩ := List.nodup_cons.1 once
    have step : overList (senseStep f g) (x :: rest) s = overList (senseStep f g) rest (senseStep f g x s) := rfl
    have unread : (rest.filterMap fun o => g o ((senseStep f g x s).outputs.get o)) =
        rest.filterMap fun o => g o (s.outputs.get o) :=
      List.filterMap_congr fun o ho => by
        have other : x ≠ o := fun e => fresh (e ▸ ho)
        rw [senseStep, modOutput_outputs, Tab.get_modify, if_neg other]
    have ports : tell (rest.filterMap fun o => g o (s.outputs.get o)) (tell (g x (s.outputs.get x)).toList s.ports) =
        tell ((x :: rest).filterMap fun o => g o (s.outputs.get o)) s.ports := by
      rw [← tell_append]
      cases hg : g x (s.outputs.get x) with
      | none => rw [List.filterMap_cons, hg]; rfl
      | some m => rw [List.filterMap_cons, hg]; rfl
    have outputs : ((s.outputs.modify x f).update fun o y => if o ∈ rest then f y else y) =
        s.outputs.update fun o y => if o ∈ x :: rest then f y else y :=
      Tab.ext_get fun o => by
        rw [Tab.get_update, Tab.get_update, Tab.get_modify]
        by_cases here : x = o
        · subst here
          rw [if_neg fresh, if_pos rfl, if_pos List.mem_cons_self]
        · rw [if_neg here]
          exact if_congr ⟨List.mem_cons_of_mem x, fun e => (List.mem_cons.1 e).resolve_left (Ne.symm here)⟩ rfl rfl
    rw [step, ih once, unread]
    unfold senseStep State.modOutput
    dsimp only
    rw [ports, outputs]

theorem mem_laneOutputs {lane : Fin 12} {o : Fin 192} : o ∈ laneOutputs lane ↔ o.val / 16 = lane.val := by
  unfold laneOutputs channelOutput
  rw [List.mem_map]
  constructor
  · rintro ⟨c, -, rfl⟩
    dsimp only
    omega
  · intro h
    exact ⟨⟨o.val % 16, by omega⟩, List.mem_finRange _, Fin.ext (by dsimp only; omega)⟩

theorem laneOutputs_eq (lane : Fin 12) :
    laneOutputs lane = (List.finRange 192).filter fun o => decide (o.val / 16 = lane.val) := by
  refine List.Pairwise.eq_of_mem_iff (r := (· < ·)) ?_ ((List.pairwise_lt_finRange 192).filter _) fun o => ?_
  · refine List.pairwise_map.2 ((List.pairwise_lt_finRange 16).imp fun {a b} h => ?_)
    exact Fin.lt_def.2 (Nat.add_lt_add_left h _)
  · rw [mem_laneOutputs, List.mem_filter, decide_eq_true_iff, and_iff_right (List.mem_finRange o)]

theorem laneOutputs_nodup (lane : Fin 12) : (laneOutputs lane).Nodup := by
  rw [laneOutputs_eq]
  exact (List.nodup_finRange 192).filter _

theorem laneOutputs_filterMap (lane : Fin 12) (g : Fin 192 → Option Notice) :
    (laneOutputs lane).filterMap g = (List.finRange 192).filterMap fun o => if o.val / 16 = lane.val then g o else none := by
  rw [laneOutputs_eq, List.filterMap_filter]
  simp only [decide_eq_true_iff]

theorem modOutput_eq_self {o : Fin 192} {s : State} {f : Output → Output} (h : f (s.outputs.get o) = s.outputs.get o) :
    s.modOutput o f = s :=
  congrArg (fun t => ({ s with outputs := t } : State)) (Tab.modify_eq_self s.outputs o h)

theorem healthChanged_unsensed {o : Fin 192} {previous : Health} {cause : HealthCause} {z : Option Nat}
    {station : Option (Fin 16)} {s : State} (new : (s.outputs.get o).sense.health = .unsensed) (old : previous ≠ .unsensed) :
    healthChanged o previous cause z station s =
      s.notify (.health o (s.outputs.get o).screen .unsensed previous cause z station) := by
  unfold healthChanged
  dsimp only
  rw [new, if_neg old.symm]
  rfl

/-- An output whose lane is found is UNKNOWN. -/
def foundOutput (x : Output) : Output :=
  if x.sense.health = .unsensed then { x with sense := { x.sense with health := .unknown } } else x

def foundNotice (o : Fin 192) (x : Output) : Option Notice :=
  if x.sense.health = .unsensed then some (.health o x.screen .unknown .unsensed .laneFound none none) else none

theorem findOutput_eq (o : Fin 192) (s : State) : findOutput o s = senseStep foundOutput foundNotice o s := by
  by_cases h : (s.outputs.get o).sense.health = .unsensed
  · have found : findOutput o s = (s.modOutput o fun y => { y with sense := { y.sense with health := .unknown } }).notify
        (.health o (s.outputs.get o).screen .unknown .unsensed .laneFound none none) := by
      simp only [findOutput, h, if_true]
      rw [healthChanged_unknown (congrArg (fun x : Output => x.sense.health) (modOutput_get_same o _ s)) (by decide),
        modOutput_get_same]
      rfl
    have told : foundNotice o (s.outputs.get o) =
        some (.health o (s.outputs.get o).screen .unknown .unsensed .laneFound none none) := if_pos h
    have changed : s.modOutput o foundOutput =
        s.modOutput o fun y => { y with sense := { y.sense with health := .unknown } } := modOutput_congr (if_pos h)
    rw [found, senseStep, told, changed]
    rfl
  · have told : foundNotice o (s.outputs.get o) = none := if_neg h
    rw [senseStep, told, modOutput_eq_self (f := foundOutput) (if_neg h)]
    exact if_neg h

/-- An output whose lane is lost is UNSENSED, but for an EXCLUDED or FAILED SHORT one. -/
def lostOutput (x : Output) : Output :=
  if x.sense.health ≠ .excluded ∧ x.sense.health ≠ .failedShort then
    { x with sense := { x.sense with health := .unsensed, settled := none, candidate := none, count := 0 } }
  else x

def lostNotice (o : Fin 192) (x : Output) : Option Notice :=
  if x.sense.health ≠ .excluded ∧ x.sense.health ≠ .failedShort ∧ x.sense.health ≠ .unsensed then
    some (.health o x.screen .unsensed x.sense.health .laneLost none none)
  else none

theorem loseOutput_eq (o : Fin 192) (s : State) : loseOutput o s = senseStep lostOutput lostNotice o s := by
  by_cases h : (s.outputs.get o).sense.health ≠ .excluded ∧ (s.outputs.get o).sense.health ≠ .failedShort
  · have lost : loseOutput o s = healthChanged o (s.outputs.get o).sense.health .laneLost none none (s.modOutput o fun y =>
        { y with sense := { y.sense with health := .unsensed, settled := none, candidate := none, count := 0 } }) :=
      if_neg (not_or.2 h)
    have changed : s.modOutput o lostOutput = s.modOutput o fun y =>
        { y with sense := { y.sense with health := .unsensed, settled := none, candidate := none, count := 0 } } :=
      modOutput_congr (if_pos h)
    rw [lost, senseStep, changed]
    by_cases same : (s.outputs.get o).sense.health = .unsensed
    · have told : lostNotice o (s.outputs.get o) = none := if_neg fun e => e.2.2 same
      rw [told]
      refine if_pos ?_
      rw [modOutput_get_same, same]
    · have told : lostNotice o (s.outputs.get o) =
          some (.health o (s.outputs.get o).screen .unsensed (s.outputs.get o).sense.health .laneLost none none) :=
        if_pos ⟨h.1, h.2, same⟩
      rw [told, healthChanged_unsensed (congrArg (fun x : Output => x.sense.health) (modOutput_get_same o _ s)) same,
        modOutput_get_same]
      rfl
  · have told : lostNotice o (s.outputs.get o) = none := if_neg fun e => h ⟨e.1, e.2.1⟩
    rw [senseStep, told, modOutput_eq_self (f := lostOutput) (if_neg h)]
    exact if_pos (by tauto)

/-- The outputs of a lane that is found, and their notices. -/
def found (lane : Fin 12) (s : State) : State :=
  overList findOutput (laneOutputs lane) (s.modReturnLane lane fun y => { y with locked := true, run := 0 })

theorem found_eq (lane : Fin 12) (s : State) : found lane s =
    { s with
      returnLanes := s.returnLanes.modify lane fun y => { y with locked := true, run := 0 }
      outputs := s.outputs.update fun o x => if o.val / 16 = lane.val then foundOutput x else x
      ports := tell ((List.finRange 192).filterMap fun o =>
        if o.val / 16 = lane.val then foundNotice o (s.outputs.get o) else none) s.ports } := by
  rw [found, show findOutput = senseStep foundOutput foundNotice from funext fun o => funext (findOutput_eq o),
    overList_senseStep _ _ (laneOutputs_nodup lane), laneOutputs_filterMap]
  simp only [mem_laneOutputs]
  rfl

theorem lost_eq (lane : Fin 12) (s : State) : overList loseOutput (laneOutputs lane) s =
    { s with
      outputs := s.outputs.update fun o x => if o.val / 16 = lane.val then lostOutput x else x
      ports := tell ((List.finRange 192).filterMap fun o =>
        if o.val / 16 = lane.val then lostNotice o (s.outputs.get o) else none) s.ports } := by
  rw [show loseOutput = senseStep lostOutput lostNotice from funext fun o => funext (loseOutput_eq o),
    overList_senseStep _ _ (laneOutputs_nodup lane), laneOutputs_filterMap]
  simp only [mem_laneOutputs]

/-! ### A report -/

theorem abortTarget_toneOnly (o : Fin 192) (c : AbortCause) (s : State) : ToneOnly s (abortTarget o c s) := by
  unfold abortTarget
  split
  · split
    · exact abortMeasurement_toneOnly c s
    · exact .refl s
  · exact .refl s

section
variable {o : Fin 192} {previous : Health} {cause : HealthCause} {z : Option Nat} {station : Option (Fin 16)} {s : State}

theorem healthChanged_same (h : (s.outputs.get o).sense.health = previous) : healthChanged o previous cause z station s = s :=
  if_pos h

theorem healthChanged_failed (h : (s.outputs.get o).sense.health ≠ previous)
    (failed : (s.outputs.get o).sense.health = .failedOpen ∨ (s.outputs.get o).sense.health = .failedShort) :
    healthChanged o previous cause z station s = abortTarget o .failed
      (s.notify (.health o (s.outputs.get o).screen (s.outputs.get o).sense.health previous cause z station)) := by
  have fails : (s.outputs.get o).sense.health.failed = true := by rcases failed with e | e <;> rw [e] <;> rfl
  exact (if_neg h).trans (if_pos fails)

theorem healthChanged_told (h : (s.outputs.get o).sense.health ≠ previous)
    (sound : (s.outputs.get o).sense.health ≠ .failedOpen ∧ (s.outputs.get o).sense.health ≠ .failedShort)
    (in_ : (s.outputs.get o).sense.health ≠ .excluded) :
    healthChanged o previous cause z station s =
      s.notify (.health o (s.outputs.get o).screen (s.outputs.get o).sense.health previous cause z station) := by
  have holds : ¬(s.outputs.get o).sense.health.failed = true := fun e => by
    generalize (s.outputs.get o).sense.health = x at e sound
    cases x <;> simp_all [Health.failed]
  exact (if_neg h).trans ((if_neg holds).trans (if_neg in_))

theorem healthChanged_toneOnly : ToneOnly s (healthChanged o previous cause z station s) := by
  unfold healthChanged
  dsimp only
  split
  · exact .refl s
  · split
    · exact (notify_toneOnly _ s).trans (abortTarget_toneOnly _ _ _)
    · split
      · exact (notify_toneOnly _ s).trans (abortTarget_toneOnly _ _ _)
      · exact notify_toneOnly _ s

end

/-- A target that holds the output, if a measurement is in flight on it, is aborted. -/
theorem abortTarget_target {o : Fin 192} {c : AbortCause} {s : State} {n : Fin 12} {g : Target}
    (screen : s.context.screen = some n) (target : s.context.target = some g) (held : o ∈ s.targetOutputs n g) :
    abortTarget o c s = abortMeasurement c s := by
  have holds : (s.targetOutputs n g).contains o = true := List.contains_iff_mem.2 held
  cases flies : s.context.inFlight with
  | false =>
    simp only [abortTarget, screen, target, flies, Bool.false_and]
    exact (abortMeasurement_idle flies c).symm
  | true =>
    simp only [abortTarget, screen, target, flies, holds, Bool.and_self, if_true]

theorem State.ignores_iff {s : State} {o : Fin 192} {r : Report} : s.ignores o r = true ↔
    r.valid = false ∨ (s.outputs.get o).sense.health = .excluded ∨ (s.outputs.get o).driveOn = false ∨
      ∃ n, (s.outputs.get o).screen = some n ∧ (s.screens.get n).state = .calibrating := by
  have calibrates : (((s.outputs.get o).screen.map fun n => decide ((s.screens.get n).state = .calibrating)).getD false) = true ↔
      ∃ n, (s.outputs.get o).screen = some n ∧ (s.screens.get n).state = .calibrating := by
    cases (s.outputs.get o).screen with
    | none => simp
    | some n => simp
  unfold State.ignores
  dsimp only
  rw [Bool.or_eq_true, Bool.or_eq_true, Bool.or_eq_true, calibrates, Bool.not_eq_true', Bool.not_eq_true',
    decide_eq_true_iff, or_assoc, or_assoc]

/-- A report leaves the health, makes it SUSPECT, or settles a class. -/
theorem debounce_health (r : HealthRecord) (c : LineClass) :
    (debounce r c).health = r.health ∨ (debounce r c).health = .suspect ∨ (debounce r c).health = c.settledState := by
  have counted : (countReport r c).health = r.health ∨ (countReport r c).health = c.settledState := by
    unfold countReport
    split
    · split
      · exact .inr rfl
      · exact .inl rfl
    · exact .inl rfl
  have met : (meetReport r c).health = r.health ∨ (meetReport r c).health = .suspect := by
    unfold meetReport
    split
    · exact .inl rfl
    · exact .inr rfl
  unfold debounce
  split
  · exact counted.imp_right .inr
  · exact met.imp_right .inl
  · exact met.imp_right .inl
  · exact met.imp_right .inl
  · exact met.imp_right .inl
  · split
    · exact .inr (.inr rfl)
    · exact counted.imp_right .inr
  · exact .inl rfl
  · exact .inl rfl
  · exact .inl rfl

/-- A report excludes no output. -/
theorem debounce_excluded {r : HealthRecord} {c : LineClass} (h : r.health ≠ .excluded) : (debounce r c).health ≠ .excluded := by
  rcases debounce_health r c with e | e | e <;> rw [e]
  · exact h
  · decide
  · cases c <;> decide

/-- The output with what a taken report leaves in it, before its notice. -/
def reported (o : Fin 192) (z : Nat) (c : LineClass) (s : State) : State :=
  s.modOutput o fun y =>
    { y with
      sense := (s.outputs.get o).sense.take z c (s.faultNow o c z)
      driveOn := if (debounce (s.outputs.get o).sense c).settles = true ∧ c = .short then false else (s.outputs.get o).driveOn }

theorem takeReport_taken {o : Fin 192} {r : Report} {s : State} (h : s.ignores o r = false) :
    takeReport o r s = healthChanged o (s.outputs.get o).sense.health .report (some (z16Of r.volts r.amps)) none
      (reported o (z16Of r.volts r.amps) (classify (s.outputs.get o).thresholds (z16Of r.volts r.amps)) s) := by
  have changed : ∀ z c, reported o z c s = s.modOutput o fun y =>
      { y with
        sense := (s.outputs.get o).sense.take z c (s.faultNow o c z)
        driveOn := if ((debounce (s.outputs.get o).sense c).settles && decide (c = .short)) = true then false else y.driveOn } :=
    fun z c => modOutput_congr (by simp only [Bool.and_eq_true, decide_eq_true_iff])
  rw [changed]
  exact if_neg (Bool.eq_false_iff.1 h)

theorem reported_get (o : Fin 192) (z : Nat) (c : LineClass) (s : State) : (reported o z c s).outputs.get o =
    { s.outputs.get o with
      sense := (s.outputs.get o).sense.take z c (s.faultNow o c z)
      driveOn := if (debounce (s.outputs.get o).sense c).settles = true ∧ c = .short then false
        else (s.outputs.get o).driveOn } := modOutput_get_same ..

theorem reported_other {o o' : Fin 192} (h : o' ≠ o) (z : Nat) (c : LineClass) (s : State) :
    (reported o z c s).outputs.get o' = s.outputs.get o' := by
  rw [reported, modOutput_outputs, Tab.get_modify, if_neg h.symm]

theorem reported_targetOutputs (o : Fin 192) (z : Nat) (c : LineClass) (s : State) (m : Notice) (n : Fin 12) (g : Target) :
    ((reported o z c s).notify m).targetOutputs n g = s.targetOutputs n g := by
  refine State.targetOutputs_of_place (fun k => ?_) n g
  rw [notify_outputs]
  by_cases h : k = o
  · rw [h, reported_get]
  · rw [reported_other h]

/-! ### The return block events -/

section
variable {lane : Fin 12} {s : State} {x : Report}

theorem returnBlock_hunting_bad (h : (s.returnLanes.get lane).locked = false) :
    returnBlock lane none s = s.modReturnLane lane fun y => { y with run := 0 } := by
  simp only [returnBlock, h]

theorem returnBlock_hunting_first (h : (s.returnLanes.get lane).locked = false) (run : (s.returnLanes.get lane).run = 0) :
    returnBlock lane (some x) s = s.modReturnLane lane fun y => { y with run := 1 } := by
  have one : s.returnLanes.modify lane (fun y => { y with run := y.run + 1 }) =
      s.returnLanes.modify lane fun y => { y with run := 1 } :=
    Tab.modify_congr s.returnLanes lane (f := fun y => { y with run := y.run + 1 }) (g := fun y => { y with run := 1 })
      (by rw [run])
  simp only [returnBlock, h, run]
  exact (if_neg (by decide)).trans (congrArg (fun t => ({ s with returnLanes := t } : State)) one)

theorem returnBlock_locks (h : (s.returnLanes.get lane).locked = false) (run : (s.returnLanes.get lane).run = 1) :
    returnBlock lane (some x) s = takeReport (channelOutput lane x.channel) x (found lane s) := by
  simp only [returnBlock, h, run]
  exact if_pos (by decide)

theorem returnBlock_report (h : (s.returnLanes.get lane).locked = true) :
    returnBlock lane (some x) s =
      takeReport (channelOutput lane x.channel) x (s.modReturnLane lane fun y => { y with run := 0 }) := by
  simp only [returnBlock, h]

theorem returnBlock_bad (h : (s.returnLanes.get lane).locked = true) (few : (s.returnLanes.get lane).run + 1 < 8) :
    returnBlock lane none s = s.modReturnLane lane fun y => { y with run := y.run + 1, malformed := y.malformed + 1 } := by
  simp only [returnBlock, h]
  exact if_neg (by omega)

theorem returnBlock_loses (h : (s.returnLanes.get lane).locked = true) (many : 8 ≤ (s.returnLanes.get lane).run + 1) :
    returnBlock lane none s = overList loseOutput (laneOutputs lane)
      (s.modReturnLane lane fun y => { locked := false, run := 0, malformed := y.malformed + 1 }) := by
  simp only [returnBlock, h]
  exact if_pos many

end

/-- The record of a taken report holds its Z16, whether or not it counts a fault. -/
theorem HealthRecord.take_lastZ (r : HealthRecord) (z : Nat) (c : LineClass) (f : LastFault) :
    (r.take z c f).lastZ = some z := by
  unfold HealthRecord.take
  dsimp only
  split
  · cases c <;> rfl
  · rfl

/-- A report changes one output's record and drive, and tone flags. -/
theorem takeReport_other {o o' : Fin 192} (h : o' ≠ o) (r : Report) (s : State) :
    (takeReport o r s).outputs.get o' =
      { s.outputs.get o' with toneFlag := ((takeReport o r s).outputs.get o').toneFlag } := by
  cases ignored : s.ignores o r with
  | true =>
    have same : takeReport o r s = s := if_pos ignored
    rw [same]
  | false =>
    rw [takeReport_taken ignored]
    refine (healthChanged_toneOnly o').trans ?_
    rw [reported_other h]

theorem foundNotice_eq (lane : Fin 12) (s : State) : (fun o : Fin 192 =>
      if o.val / 16 = lane.val then foundNotice o (s.outputs.get o) else none) =
    fun o => if o.val / 16 = lane.val ∧ (s.outputs.get o).sense.health = .unsensed then
      some (.health o (s.outputs.get o).screen .unknown .unsensed .laneFound none none) else none :=
  funext fun o => by rw [foundNotice, ite_and]

theorem foundOutput_eq (lane : Fin 12) (o : Fin 192) (x : Output) :
    (if o.val / 16 = lane.val then foundOutput x else x) =
      if o.val / 16 = lane.val ∧ x.sense.health = .unsensed then { x with sense := { x.sense with health := .unknown } }
      else x := by
  rw [foundOutput, ite_and]

theorem lostNotice_eq (lane : Fin 12) (s : State) : (fun o : Fin 192 =>
      if o.val / 16 = lane.val then lostNotice o (s.outputs.get o) else none) =
    fun o => if o.val / 16 = lane.val ∧ (s.outputs.get o).sense.health ≠ .excluded ∧
        (s.outputs.get o).sense.health ≠ .failedShort ∧ (s.outputs.get o).sense.health ≠ .unsensed then
      some (.health o (s.outputs.get o).screen .unsensed (s.outputs.get o).sense.health .laneLost none none) else none :=
  funext fun o => by rw [lostNotice, ← ite_and]

theorem lostOutput_eq (lane : Fin 12) (o : Fin 192) (x : Output) :
    (if o.val / 16 = lane.val then lostOutput x else x) =
      if o.val / 16 = lane.val ∧ x.sense.health ≠ .excluded ∧ x.sense.health ≠ .failedShort then
        { x with sense := { x.sense with health := .unsensed, settled := none, candidate := none, count := 0 } }
      else x := by
  rw [lostOutput, ← ite_and]

/-- What a taken report leaves, by the health that it gives its output. -/
theorem takeReport_leaves {o : Fin 192} {r : Report} {v : State} (taken : v.ignores o r = false)
    (in_ : (v.outputs.get o).sense.health ≠ .excluded) {z : Nat} {c : LineClass} (hz : z = z16Of r.volts r.amps)
    (hc : c = classify (v.outputs.get o).thresholds z) {t u q : State} (ht : takeReport o r v = t)
    (hu : u = v.modOutput o fun y => { y with sense := (t.outputs.get o).sense, driveOn := (t.outputs.get o).driveOn })
    (hq : q = u.notify (.health o (v.outputs.get o).screen (t.outputs.get o).sense.health (v.outputs.get o).sense.health .report
      (some z) none)) :
    t.outputs.get o = { v.outputs.get o with
        sense := (v.outputs.get o).sense.take z c (v.faultNow o c z)
        driveOn := if (debounce (v.outputs.get o).sense c).settles = true ∧ c = .short then false
          else (v.outputs.get o).driveOn
        toneFlag := (t.outputs.get o).toneFlag } ∧
      ((t.outputs.get o).sense.health = (v.outputs.get o).sense.health → t = u) ∧
      ((t.outputs.get o).sense.health ≠ (v.outputs.get o).sense.health →
        (∀ n g, ((t.outputs.get o).sense.health = .failedOpen ∨ (t.outputs.get o).sense.health = .failedShort) →
          v.context.screen = some n → v.context.target = some g → o ∈ v.targetOutputs n g → t = abortMeasurement .failed q) ∧
        (((t.outputs.get o).sense.health ≠ .failedOpen ∧ (t.outputs.get o).sense.health ≠ .failedShort ∨
            ∀ n g, v.context.screen = some n → v.context.target = some g → o ∉ v.targetOutputs n g) →
          t = q)) := by
  have run := takeReport_taken taken
  rw [ht, ← hz, ← hc] at run
  have before := reported_get o z c v
  have after : t.outputs.get o = { (reported o z c v).outputs.get o with toneFlag := (t.outputs.get o).toneFlag } := by
    rw [run]
    exact healthChanged_toneOnly o
  have sense : (t.outputs.get o).sense = ((reported o z c v).outputs.get o).sense := by
    have e := congrArg Output.sense after
    exact e
  have drive : (t.outputs.get o).driveOn = ((reported o z c v).outputs.get o).driveOn := by
    have e := congrArg Output.driveOn after
    exact e
  have same : u = reported o z c v := by
    rw [hu, sense, drive, before]
    rfl
  have told : q = (reported o z c v).notify (.health o ((reported o z c v).outputs.get o).screen
      ((reported o z c v).outputs.get o).sense.health (v.outputs.get o).sense.health .report (some z) none) := by
    rw [hq, same, sense, before]
    rfl
  have stays : ((reported o z c v).outputs.get o).sense.health ≠ .excluded := by
    rw [before]
    exact fun e => debounce_excluded in_ (((v.outputs.get o).sense.take_fields z c (v.faultNow o c z)).1.symm.trans e)
  refine ⟨after.trans (by rw [before]), fun quiet => ?_, fun changed => ?_⟩
  · rw [sense] at quiet
    rw [run, same, healthChanged_same quiet]
  rw [sense] at changed ⊢
  refine ⟨fun n g failed screen target held => ?_, fun quiet => ?_⟩
  · rw [run, healthChanged_failed changed failed, told]
    exact abortTarget_target (s := (reported o z c v).notify _) screen target (by rwa [reported_targetOutputs])
  · by_cases failed : ((reported o z c v).outputs.get o).sense.health = .failedOpen ∨
        ((reported o z c v).outputs.get o).sense.health = .failedShort
    · have away := quiet.resolve_left fun e => failed.elim e.1 e.2
      rw [run, healthChanged_failed changed failed, told]
      refine abortTarget_idle fun n g _ screen target => ?_
      rw [reported_targetOutputs]
      exact away n g screen target
    · rw [run, healthChanged_told changed (not_or.1 failed) stays, told]

end Sys2Proof.Machine

open Sys2Proof Sys2Proof.Machine

/-- Settles O43: the report as it is spelled, and the return block events by the state of their lane. -/
theorem reportsTaken : Obligations.ReportsTaken := by
  unfold Obligations.ReportsTaken
  refine ⟨fun bytes => readReport_length, fun channel v1 v0 i1 i0 pilot b6 b7 b8 b9 hi lo good spelled =>
    ⟨fun bad => ?_, fun k holds hk => ?_⟩, fun v a => rfl, classify_iff, bytesOfAux_auxOfBytes, fun b => rfl, ?_⟩
  · rw [readReport_eq]
    split
    · next e => rw [ident_eq_none.2 (bad.resolve_left fun e' => e' (spelled.2 e))]; rfl
    · rfl
  · rw [readReport_eq, if_pos (spelled.1 holds), ident_eq_some.2 hk]
    rfl
  rintro lane aux report s rfl
  have ran : ∀ r, readReport (bytesOfAux aux) = r → exec (.returnBlockEvent lane aux) s = .next (returnBlock lane r s) :=
    fun r hr => congrArg (fun r => Host.Outcome.next (returnBlock lane r s)) hr
  refine ⟨fun hunting none_ => ?_, fun x hunting good first => ?_, fun x hunting good second => ?_,
    fun x y hunting good second hy outputs => ?_, fun locked none_ few => ?_, fun locked none_ many => ?_,
    fun x o locked good ho => ⟨fun ignored => ?_, fun valid in_ driven outside => ?_⟩⟩
  · exact (ran _ none_).trans (congrArg _ (returnBlock_hunting_bad hunting))
  · exact (ran _ good).trans (congrArg _ (returnBlock_hunting_first hunting first))
  · refine ⟨_, (ran _ good).trans (congrArg _ (returnBlock_locks hunting second)), ?_, fun o inside other => ?_⟩
    · obtain ⟨_, _, _, frame⟩ := takeReport_frame (channelOutput lane x.channel) x (found lane s)
      rw [frame, found_eq]
      dsimp only
      rw [Tab.get_modify, if_pos rfl]
    · rw [takeReport_other other, found_eq]
      dsimp only
      rw [Tab.get_update, if_pos inside, foundOutput]
      split <;> rfl
  · have changed : y.outputs = s.outputs.update fun o x => if o.val / 16 = lane.val then foundOutput x else x :=
      Tab.ext_get fun o => by rw [Tab.get_update, foundOutput_eq, outputs]
    have locks : found lane s = y := by
      refine (found_eq lane s).trans (Eq.trans ?_ hy.symm)
      rw [changed, foundNotice_eq]
    have lanes : y.returnLanes = s.returnLanes.modify lane fun r => { r with locked := true, run := 0 } := by
      rw [← locks, found_eq]
    have locked : (y.returnLanes.get lane).locked = true := by rw [lanes, Tab.get_modify, if_pos rfl]
    have kept : y.modReturnLane lane (fun r => { r with run := 0 }) = y := by
      have same : y.returnLanes.modify lane (fun r => { r with run := 0 }) = y.returnLanes :=
        Tab.modify_eq_self _ _ (by rw [lanes, Tab.get_modify, if_pos rfl])
      rw [State.modReturnLane, same]
    have again : exec (.returnBlockEvent lane aux) y = .next (returnBlock lane (some x) y) :=
      congrArg (fun r => Host.Outcome.next (returnBlock lane r y)) good
    rw [again, returnBlock_report locked, kept, ran _ good, returnBlock_locks hunting second, locks]
  · exact (ran _ none_).trans (congrArg _ (returnBlock_bad locked few))
  · refine ⟨_, (ran _ none_).trans (congrArg _ (returnBlock_loses locked many)), ?_⟩
    rw [lost_eq, lostNotice_eq]
    refine ⟨rfl, rfl, ?_, fun o => ?_⟩
    · exact (Tab.get_modify _ _ _ _).trans (if_pos rfl)
    · dsimp only
      rw [Tab.get_update, lostOutput_eq]
      rfl
  · have same : takeReport o x (s.modReturnLane lane fun y => { y with run := 0 }) = _ :=
      if_pos (State.ignores_iff (s := s.modReturnLane lane fun y => { y with run := 0 }).2 ignored)
    subst ho
    exact (ran _ good).trans (congrArg _ ((returnBlock_report locked).trans same))
  · subst ho
    obtain ⟨v, hv⟩ : ∃ v, s.modReturnLane lane (fun y => { y with run := 0 }) = v := ⟨_, rfl⟩
    have taken : v.ignores (channelOutput lane x.channel) x = false := by
      rw [← hv]
      refine Bool.eq_false_iff.2 fun e => ?_
      rcases State.ignores_iff.1 e with e | e | e | ⟨n, hn, calibrating⟩
      · cases e.symm.trans valid
      · exact in_ e
      · cases e.symm.trans driven
      · exact outside n hn calibrating
    have outputs : v.outputs = s.outputs := by rw [← hv]; rfl
    have context : v.context = s.context := by rw [← hv]; rfl
    have targets : ∀ n g, v.targetOutputs n g = s.targetOutputs n g := fun n g => by rw [← hv]; rfl
    have fault : ∀ c z, v.faultNow (channelOutput lane x.channel) c z = s.faultNow (channelOutput lane x.channel) c z :=
      fun c z => by rw [← hv]; rfl
    have leaves := fun t u q => takeReport_leaves (t := t) (u := u) (q := q) taken (by rw [outputs]; exact in_) rfl rfl
    obtain ⟨_, _, _, frame⟩ := takeReport_frame (channelOutput lane x.channel) x v
    have other := fun o' h => takeReport_other (o := channelOutput lane x.channel) (o' := o') h x v
    generalize hr : takeReport (channelOutput lane x.channel) x v = t at *
    have output := (leaves t _ _ rfl rfl rfl).1
    rw [outputs, fault] at output
    have sense := congrArg Output.sense output
    have drive := congrArg Output.driveOn output
    dsimp only at sense drive
    obtain ⟨health, settled, candidate, count⟩ := (s.outputs.get (channelOutput lane x.channel)).sense.take_fields
      (z16Of x.volts x.amps) (classify (s.outputs.get (channelOutput lane x.channel)).thresholds (z16Of x.volts x.amps))
      (s.faultNow (channelOutput lane x.channel)
        (classify (s.outputs.get (channelOutput lane x.channel)).thresholds (z16Of x.volts x.amps)) (z16Of x.volts x.amps))
    refine ⟨t, _, _, (ran _ good).trans (congrArg _ ((returnBlock_report locked).trans ((congrArg _ hv).trans hr))), rfl, rfl,
      ?_, fun o' h => (other o' h).trans (by rw [outputs]), sense, ?_, ?_, ?_, ?_, ?_, drive, fun u q hu hq => ?_⟩
    · rw [frame, ← hv]
      rfl
    · rw [sense]
      exact HealthRecord.take_lastZ ..
    · rw [sense]
      exact health
    · rw [sense]
      exact settled
    · rw [sense]
      exact candidate
    · rw [sense]
      exact count
    · have rest := (leaves t u q rfl (hu.trans (by rw [hv])) (hq.trans (by rw [outputs]))).2
      rw [outputs, context] at rest
      simp only [targets] at rest
      exact rest
end

section
/-! PROOF. The cues by show time, by the accepted word, by a start and by a raise (09 R158 to R164). -/

namespace Sys2Proof.Machine

/-! ### One entry -/

/-- What a step over the pool makes of an entry by itself. -/
def PoolStep (g : Option Cue → Option Cue) (f : Fin 512 → State → State) : Prop :=
  ∀ e s, s.evac = false → (f e s).evac = false ∧ ∀ x, (f e s).pool.get x = if x = e then g (s.pool.get e) else s.pool.get x

/-- A pass over entries, each once, makes of each what its step does, and leaves the others. -/
theorem PoolStep.overList {g : Option Cue → Option Cue} {f : Fin 512 → State → State} (h : PoolStep g f)
    {l : List (Fin 512)} (once : l.Nodup) {s : State} (calm : s.evac = false) :
    (overList f l s).evac = false ∧
      ∀ x, (overList f l s).pool.get x = if x ∈ l then g (s.pool.get x) else s.pool.get x := by
  induction l generalizing s with
  | nil => exact ⟨calm, fun x => (if_neg List.not_mem_nil).symm⟩
  | cons e rest ih =>
    obtain ⟨fresh, once⟩ := List.nodup_cons.1 once
    obtain ⟨calm', step⟩ := h e s calm
    obtain ⟨calm'', pass⟩ := ih once calm'
    refine ⟨calm'', fun x => (pass x).trans ?_⟩
    by_cases here : x = e
    · subst here
      rw [if_neg fresh, step, if_pos rfl, if_pos List.mem_cons_self]
    · rw [step, if_neg here]
      exact if_congr ⟨List.mem_cons_of_mem e, fun m => (List.mem_cons.1 m).resolve_left here⟩ rfl rfl

theorem perform_pool (n : Fin 12) (a : Action) (s : State) : (perform n a s).pool = s.pool := by
  cases a <;> rfl

theorem perform_evac (n : Fin 12) (a : Action) (s : State) : (perform n a s).evac = s.evac := by
  cases a <;> rfl

theorem fire_evac {e : Fin 512} {s : State} (h : s.evac = true) : fire e s = s := by
  simp only [fire, h]

theorem fire_none {e : Fin 512} {s : State} (h : s.pool.get e = none) : fire e s = s := by
  unfold fire
  rw [h]
  cases s.evac <;> rfl

theorem fire_some {e : Fin 512} {c : Cue} {s : State} (calm : s.evac = false) (h : s.pool.get e = some c) :
    fire e s = ({ perform c.screen c.action s with
      pool := s.pool.set e (some c.afterFiring)
      cues := s.cues.modify c.screen fun x => { x with lastFired := number e } } : State).notify
      (.cue c.screen (.fired e c.afterFiring) (s.cues.get c.screen).clock) := by
  have clock : ((s.cues.modify c.screen fun x => { x with lastFired := number e }).get c.screen).clock =
      (s.cues.get c.screen).clock := by rw [Tab.get_modify, if_pos rfl]
  unfold fire
  rw [calm, h]
  dsimp only
  rw [modCues_cues, setCue_cues, perform_cues, clock]
  unfold State.modCues State.setCue
  dsimp only
  rw [perform_pool, perform_cues]

/-- A step that rewrites the entries in use, each by itself. -/
theorem PoolStep.of_some {g : Cue → Cue} {f : Fin 512 → State → State} (free : ∀ e s, s.pool.get e = none → f e s = s)
    (used : ∀ e s c, s.evac = false → s.pool.get e = some c →
      (f e s).evac = s.evac ∧ (f e s).pool = s.pool.set e (some (g c))) : PoolStep (Option.map g) f := by
  intro e s calm
  cases h : s.pool.get e with
  | none =>
    rw [free e s h]
    refine ⟨calm, fun x => ?_⟩
    split
    · next here => rw [here, h]; rfl
    · rfl
  | some c =>
    obtain ⟨evac, pool⟩ := used e s c calm h
    refine ⟨evac.trans calm, fun x => ?_⟩
    rw [pool, Tab.get_set]
    exact if_congr eq_comm rfl rfl

theorem fire_poolStep : PoolStep (Option.map Cue.afterFiring) fire :=
  .of_some (fun _ _ => fire_none) fun e s c calm h => by
    rw [fire_some calm h]
    exact ⟨perform_evac .., rfl⟩

/-- An entry becomes of a state. -/
def inState (st : CueState) (c : Cue) : Cue := { c with state := some st }

section
variable {e : Fin 512} {c : Cue} {s : State}

theorem skip_some (h : s.pool.get e = some c) : skip e s =
    ({ s with pool := s.pool.set e (some (inState .skipped c)) } : State).notify
      (.cue c.screen (.skipped e (inState .skipped c)) (s.cues.get c.screen).clock) := by
  unfold skip
  rw [h]
  rfl

theorem skip_none (h : s.pool.get e = none) : skip e s = s := by
  unfold skip
  rw [h]

theorem rearm_some (h : s.pool.get e = some c) : rearm e s = { s with pool := s.pool.set e (some (inState .armed c)) } := by
  unfold rearm
  rw [h]
  rfl

theorem rearm_none (h : s.pool.get e = none) : rearm e s = s := by
  unfold rearm
  rw [h]

end

theorem skip_poolStep : PoolStep (Option.map (inState .skipped)) skip :=
  .of_some (fun _ _ => skip_none) fun e s c _ h => by
    rw [skip_some h]
    exact ⟨rfl, rfl⟩

theorem rearm_poolStep : PoolStep (Option.map (inState .armed)) rearm :=
  .of_some (fun _ _ => rearm_none) fun e s c _ h => by
    rw [rearm_some h]
    exact ⟨rfl, rfl⟩

/-! ### The steps by show time -/

section
variable {e : Fin 512} {c : Cue} {t : Nat} {s : State}

theorem timeEntry_time (h : s.pool.get e = some c) (ht : c.trigger = .time t) : s.timeEntry e = some (t, c) := by
  rw [timeEntry_eq, h, Option.bind_some, ht]

theorem advanceEntry_time (h : s.pool.get e = some c) (ht : c.trigger = .time t) (jump : Bool) (low : Option Nat) (time : Nat) :
    advanceEntry jump low time e s =
      if c.state = some .armed ∧ (low.map fun x => decide (x < t)).getD true = true ∧ t ≤ time then
        (if jump = true ∧ c.chase = false then skip e s else fire e s)
      else s := by
  unfold advanceEntry
  rw [timeEntry_time h ht]
  dsimp only
  simp only [Bool.and_eq_true, Bool.not_eq_true']

theorem chaseEntry_time (h : s.pool.get e = some c) (ht : c.trigger = .time t) (time : Nat) :
    chaseEntry time e s = if c.chase = true ∧ t ≤ time then fire e s else s := by
  unfold chaseEntry
  rw [timeEntry_time h ht]
  dsimp only
  simp only [Bool.and_eq_true, decide_eq_true_iff]

theorem rearms_iff (time : Nat) : s.rearms time e = true ↔ ∃ c t, s.pool.get e = some c ∧ c.trigger = .time t ∧ time < t ∧
    (c.state = some .fired ∨ c.state = some .skipped) := by
  unfold State.rearms
  rw [timeEntry_eq]
  cases h : s.pool.get e with
  | none => simp
  | some c =>
    rw [Option.bind_some]
    cases ht : c.trigger with
    | time t => simp [ht]
    | state => simp [ht]
    | alarm => simp [ht]
    | call => simp [ht]

end

/-- What an advance makes of an entry. -/
def advanced (jump : Bool) (low : Option Nat) (time : Nat) (c : Cue) : Cue :=
  match c.trigger with
  | .time t =>
    if c.state = some .armed ∧ (low.map fun x => decide (x < t)).getD true = true ∧ t ≤ time then
      (if jump = true ∧ c.chase = false then inState .skipped c else c.afterFiring)
    else c
  | _ => c

/-- What a backward jump makes of an entry at or below its time. -/
def chased (time : Nat) (c : Cue) : Cue :=
  match c.trigger with
  | .time t => if c.chase = true ∧ t ≤ time then c.afterFiring else c
  | _ => c

theorem afterFiring_time {c : Cue} {t : Nat} (h : c.trigger = .time t) : c.afterFiring = inState .fired c :=
  if_pos (by rw [h]; rfl)

section
variable {c : Cue} {t : Nat}

theorem advanced_time (h : c.trigger = .time t) (jump : Bool) (low : Option Nat) (time : Nat) : advanced jump low time c =
    if c.state = some .armed ∧ (low.map fun x => decide (x < t)).getD true = true ∧ t ≤ time then
      (if jump = true ∧ c.chase = false then inState .skipped c else inState .fired c)
    else c := by
  unfold advanced
  rw [h, afterFiring_time h]

theorem advanced_untimed (h : ¬∃ t, c.trigger = .time t) (jump : Bool) (low : Option Nat) (time : Nat) :
    advanced jump low time c = c := by
  unfold advanced
  split
  · next t ht => exact absurd ⟨t, ht⟩ h
  · rfl

theorem chased_time (h : c.trigger = .time t) (time : Nat) :
    chased time c = if c.chase = true ∧ t ≤ time then inState .fired c else c := by
  unfold chased
  rw [h, afterFiring_time h]

theorem chased_untimed (h : ¬∃ t, c.trigger = .time t) (time : Nat) : chased time c = c := by
  unfold chased
  split
  · next t ht => exact absurd ⟨t, ht⟩ h
  · rfl

end

theorem timeEntry_untimed {e : Fin 512} {c : Cue} {s : State} (h : s.pool.get e = some c) (untimed : ¬∃ t, c.trigger = .time t) :
    s.timeEntry e = none := by
  rw [timeEntry_eq, h, Option.bind_some]
  split
  · next t ht => exact absurd ⟨t, ht⟩ untimed
  · rfl

theorem pool_standing {e : Fin 512} {s : State} {c : Option Cue} (h : s.pool.get e = c) (x : Fin 512) :
    s.pool.get x = if x = e then c else s.pool.get x := by
  split
  · next here => rw [here, h]
  · rfl

theorem advanceEntry_poolStep (jump : Bool) (low : Option Nat) (time : Nat) :
    PoolStep (Option.map (advanced jump low time)) (advanceEntry jump low time) := by
  intro e s calm
  cases h : s.pool.get e with
  | none =>
    have same : advanceEntry jump low time e s = s := by simp only [advanceEntry, timeEntry_eq, h, Option.bind_none]
    rw [same]
    exact ⟨calm, pool_standing (by rw [h]; rfl)⟩
  | some c =>
    have skips := skip_poolStep e s calm
    have fires := fire_poolStep e s calm
    rw [h] at skips fires
    by_cases timed : ∃ t, c.trigger = .time t
    · obtain ⟨t, ht⟩ := timed
      rw [advanceEntry_time h ht]
      rw [Option.map_some, advanced_time ht, ← afterFiring_time ht]
      split
      · split
        · exact skips
        · exact fires
      · exact ⟨calm, pool_standing h⟩
    · have same : advanceEntry jump low time e s = s := by
        simp only [advanceEntry, timeEntry_untimed h timed]
      rw [same]
      exact ⟨calm, pool_standing (h.trans (congrArg some (advanced_untimed timed jump low time).symm))⟩

theorem chaseEntry_poolStep (time : Nat) : PoolStep (Option.map (chased time)) (chaseEntry time) := by
  intro e s calm
  cases h : s.pool.get e with
  | none =>
    have same : chaseEntry time e s = s := by simp only [chaseEntry, timeEntry_eq, h, Option.bind_none]
    rw [same]
    exact ⟨calm, pool_standing (by rw [h]; rfl)⟩
  | some c =>
    have fires := fire_poolStep e s calm
    rw [h] at fires
    by_cases timed : ∃ t, c.trigger = .time t
    · obtain ⟨t, ht⟩ := timed
      rw [chaseEntry_time h ht]
      rw [Option.map_some, chased_time ht, ← afterFiring_time ht]
      split
      · exact fires
      · exact ⟨calm, pool_standing h⟩
    · have same : chaseEntry time e s = s := by
        simp only [chaseEntry, timeEntry_untimed h timed]
      rw [same]
      exact ⟨calm, pool_standing (h.trans (congrArg some (chased_untimed timed time).symm))⟩

/-! ### Time processing -/

section
variable {n : Fin 12} {clock time : Nat} {s : State}

theorem processTime_forward (h : (s.cues.get n).clock = some clock) (forward : clock ≤ time) : processTime n time s =
    overList (advanceEntry (decide (clock + 2 < time)) (some clock) time) (s.cues.get n).timeList
      (s.modCues n fun x => { x with clock := some time }) := by
  simp only [processTime, h]
  exact if_neg (Nat.not_lt.2 forward)

theorem processTime_backward (h : (s.cues.get n).clock = some clock) (back : time < clock) : processTime n time s =
    overList (chaseEntry time) (s.cues.get n).timeList
      ((overList rearm ((s.cues.get n).timeList.filter (s.rearms time)) (s.modCues n fun x => { x with clock := some time })).notify
        (.cue n (.rearmed clock time ((s.cues.get n).timeList.filter (s.rearms time)).length) (some time))) := by
  simp only [processTime, h]
  exact if_pos back

theorem chaseEntry_clocksKept (time : Nat) (e : Fin 512) (s : State) : ClocksKept s (chaseEntry time e s) := by
  unfold chaseEntry
  split
  · split
    · exact fire_clocksKept e s
    · exact .refl s
  · exact .refl s

theorem setClock_clock (n : Fin 12) (time : Nat) (s : State) :
    ((s.modCues n fun x => { x with clock := some time }).cues.get n).clock = some time := by
  rw [modCues_cues, Tab.get_modify, if_pos rfl]

/-- The clock becomes the time of the word. -/
theorem processTime_clock (h : (s.cues.get n).clock = some clock) : ((processTime n time s).cues.get n).clock = some time := by
  by_cases forward : clock ≤ time
  · rw [processTime_forward h forward]
    exact ((ClocksKept.overList (advanceEntry_clocksKept _ _ _) _ _) n).1.trans (setClock_clock n time s)
  · rw [processTime_backward h (Nat.lt_of_not_le forward)]
    refine ((ClocksKept.overList (chaseEntry_clocksKept time) _ _) n).1.trans ?_
    exact ((ClocksKept.overList rearm_clocksKept _ _) n).1.trans (setClock_clock n time s)

variable (once : (s.cues.get n).timeList.Nodup) (calm : s.evac = false) {e : Fin 512} {c : Cue}
  (listed : e ∈ (s.cues.get n).timeList) (used : s.pool.get e = some c)
include once calm listed used

theorem processTime_forward_pool (h : (s.cues.get n).clock = some clock) (forward : clock ≤ time) :
    (processTime n time s).pool.get e = some (advanced (decide (clock + 2 < time)) (some clock) time c) := by
  rw [processTime_forward h forward,
    ((advanceEntry_poolStep _ _ time).overList once (s := s.modCues n fun x => { x with clock := some time }) calm).2 e,
    if_pos listed, modCues_pool, used]
  rfl

theorem processTime_backward_pool (h : (s.cues.get n).clock = some clock) (back : time < clock) :
    (processTime n time s).pool.get e =
      some (chased time (if s.rearms time e = true then inState .armed c else c)) := by
  obtain ⟨calm', armed⟩ := rearm_poolStep.overList (once.filter (s.rearms time))
    (s := s.modCues n fun x => { x with clock := some time }) calm
  have entry := armed e
  simp only [List.mem_filter, listed, true_and, modCues_pool, used] at entry
  rw [processTime_backward h back, ((chaseEntry_poolStep time).overList once (by exact calm')).2 e, if_pos listed, notify_pool,
    entry]
  split <;> rfl

end

/-- A show time in range: none of its entries fires before it. -/
theorem advanced_within {c : Cue} {t clock time : Nat} (h : c.trigger = .time t) (jump : Bool) :
    advanced jump (some clock) time c =
      if c.state = some .armed ∧ clock < t ∧ t ≤ time then
        (if jump = true ∧ c.chase = false then inState .skipped c else inState .fired c)
      else c := by
  rw [advanced_time h]
  simp only [Option.map_some, Option.getD_some, decide_eq_true_iff]

/-- The states that the time processing leaves to a TIME entry. -/
theorem processTime_states {n : Fin 12} {clock time : Nat} {s : State} (law : CueLaw s) (calm : s.evac = false)
    (h : (s.cues.get n).clock = some clock) {e : Fin 512} {c : Cue} {t : Nat} (listed : e ∈ (s.cues.get n).timeList)
    (used : s.pool.get e = some c) (ht : c.trigger = .time t) :
    ∃ d, (processTime n time s).pool.get e = some d ∧ d = { c with state := d.state } ∧
      (clock ≤ time → time ≤ clock + 2 →
        d.state = if c.state = some .armed ∧ clock < t ∧ t ≤ time then some .fired else c.state) ∧
      (clock + 2 < time →
        d.state =
          if c.state = some .armed ∧ clock < t ∧ t ≤ time then (if c.chase = true then some .fired else some .skipped)
          else c.state) ∧
      (time < clock →
        d.state =
          if time < t then
            (if c.state = some .fired ∨ c.state = some .skipped then some .armed else c.state)
          else if c.chase = true then some .fired else c.state) := by
  obtain ⟨-, -, once, -⟩ := law
  by_cases forward : clock ≤ time
  · refine ⟨_, processTime_forward_pool (once n).1 calm listed used h forward, ?_, fun _ near => ?_, fun far => ?_,
      fun back => absurd forward (Nat.not_le.2 back)⟩
    · rw [advanced_within ht]
      split
      · split <;> rfl
      · rfl
    · rw [advanced_within ht]
      have still : ¬ clock + 2 < time := Nat.not_lt.2 near
      simp only [still, decide_false, Bool.false_eq_true, false_and, if_false]
      split <;> rfl
    · rw [advanced_within ht]
      simp only [far, decide_true, true_and]
      split
      · cases c.chase <;> rfl
      · rfl
  · have back := Nat.lt_of_not_le forward
    have above : s.rearms time e = true ↔ time < t ∧ (c.state = some .fired ∨ c.state = some .skipped) := by
      rw [rearms_iff]
      constructor
      · rintro ⟨d, k, hd, hk, later, state⟩
        obtain rfl := Option.some.inj (used.symm.trans hd)
        obtain rfl := Trigger.time.inj (ht.symm.trans hk)
        exact ⟨later, state⟩
      · exact fun ⟨later, state⟩ => ⟨c, t, used, ht, later, state⟩
    have timed : (if s.rearms time e = true then inState .armed c else c).trigger = .time t := by split <;> exact ht
    refine ⟨_, processTime_backward_pool (once n).1 calm listed used h back, ?_, fun forward' => absurd forward' forward,
      fun far => absurd far (by omega), fun _ => ?_⟩
    · rw [chased_time timed]
      split
      · split <;> rfl
      · split <;> rfl
    · rw [chased_time timed]
      by_cases later : time < t
      · rw [if_neg (by omega), if_pos later]
        by_cases gone : c.state = some .fired ∨ c.state = some .skipped
        · rw [if_pos (above.2 ⟨later, gone⟩), if_pos gone]
          rfl
        · rw [if_neg fun e => gone (above.1 e).2, if_neg gone]
      · rw [if_neg later, if_neg fun e => later (above.1 e).1]
        by_cases chase : c.chase = true
        · rw [if_pos ⟨chase, by omega⟩, if_pos chase]
          rfl
        · rw [if_neg fun e => chase e.1, if_neg chase]

/-! ### A start -/

theorem mem_triggered {n : Fin 12} {g : Trigger} {s : State} {e : Fin 512} : e ∈ s.triggered n g ↔
    e ∈ (s.cues.get n).eventList ∧ ∃ c, s.pool.get e = some c ∧ c.trigger = g := by
  rw [State.triggered, List.mem_filter, decide_eq_true_iff]
  exact and_congr_right fun _ => Option.map_eq_some_iff

theorem startCues_eq {n : Fin 12} {w : SideWord} {s : State} (h : (s.lanes.get (programLane n)).accepted = some w) :
    startCues n s = fireState n .start
      (overList (advanceEntry true none w.showTime) (s.cues.get n).timeList
        ((overList rearm (s.cues.get n).timeList s).modCues n fun x =>
          { x with clock := some w.showTime, lastCall := w.cueCall })) := by
  have word : s.word n = some w := h
  simp only [startCues, word]

theorem fire_other {x e : Fin 512} (h : x ≠ e) (s : State) : (fire x s).pool.get e = s.pool.get e := by
  cases calm : s.evac with
  | true => rw [fire_evac calm]
  | false =>
    rw [(fire_poolStep x s calm).2 e]
    exact if_neg h.symm

/-- An entry that no firing of a pass names. -/
theorem overList_fire_pool {l : List (Fin 512)} {e : Fin 512} (h : e ∉ l) (s : State) :
    (overList fire l s).pool.get e = s.pool.get e := by
  refine overList_induct (P := fun t => t.pool.get e = s.pool.get e) rfl fun x hx t ht => ?_
  have other : x ≠ e := fun here => h (here ▸ hx)
  rw [fire_other other, ht]

/-- The states that a start leaves to a TIME entry. -/
theorem startCues_states {n : Fin 12} {w : SideWord} {s : State} (word : (s.lanes.get (programLane n)).accepted = some w)
    (once : (s.cues.get n).timeList.Nodup) (calm : s.evac = false) {e : Fin 512} {c : Cue} {t : Nat}
    (listed : e ∈ (s.cues.get n).timeList) (used : s.pool.get e = some c) (ht : c.trigger = .time t) :
    (startCues n s).pool.get e = some { c with
      state :=
        if t ≤ w.showTime then (if c.chase = true then some .fired else some .skipped) else some .armed } := by
  obtain ⟨calm', armed⟩ := rearm_poolStep.overList once calm
  have entry := armed e
  rw [if_pos listed, used] at entry
  have advance := ((advanceEntry_poolStep true none w.showTime).overList once
    (s := (overList rearm (s.cues.get n).timeList s).modCues n fun x =>
      { x with clock := some w.showTime, lastCall := w.cueCall }) calm').2 e
  rw [if_pos listed, modCues_pool, entry, Option.map_some, Option.map_some, advanced_time (c := inState .armed c) ht] at advance
  rw [startCues_eq word, fireState, overList_fire_pool, advance]
  · refine congrArg some ?_
    by_cases passed : t ≤ w.showTime
    · rw [if_pos ⟨rfl, rfl, passed⟩, if_pos passed]
      cases hc : c.chase <;> simp [inState, hc]
    · rw [if_neg fun e => passed e.2.2, if_neg passed]
      rfl
  · rintro m
    obtain ⟨-, d, hd, state⟩ := mem_triggered.1 m
    rw [advance] at hd
    obtain rfl := Option.some.inj hd
    have time : Trigger.time t = .state .start := by
      rw [← state]
      split
      · split <;> exact ht.symm
      · exact ht.symm
    cases time

/-- The states that an admitted start leaves to a TIME entry. -/
theorem startEffects_states {n : Fin 12} {w : SideWord} {s : State} (law : CueLaw s)
    (word : (s.lanes.get (programLane n)).accepted = some w) (calm : s.evac = false) {e : Fin 512} {c : Cue} {t : Nat}
    (listed : e ∈ (s.cues.get n).timeList) (used : s.pool.get e = some c) (ht : c.trigger = .time t) (hd : Option (Fin 16)) :
    (startEffects n (recompute .demand (candidate n .show hd s))).pool.get e = some { c with
      state :=
        if t ≤ w.showTime then (if c.chase = true then some .fired else some .skipped) else some .armed } := by
  obtain ⟨-, -, once, -⟩ := law
  obtain ⟨_, _, _, _, frame⟩ := recompute_candidate_frame .demand n .show hd s
  generalize recompute .demand (candidate n .show hd s) = r at frame ⊢
  refine startCues_states (s := beforeCues n r) ?_ ?_ ?_ ?_ ?_ ht
  · rw [frame]
    exact word
  · rw [frame]
    exact (once n).1
  · rw [frame]
    exact calm
  · rw [frame]
    exact listed
  · rw [frame]
    exact used

/-! ### A word, a raise and an interval event -/

theorem modLane_modLane (l : Fin 14) (f g : Lane → Lane) (s : State) :
    (s.modLane l f).modLane l g = s.modLane l fun x => g (f x) := by
  rw [State.modLane, modLane_lanes, Tab.modify_modify]
  rfl

section
variable {n : Fin 12} {before : Alarms} {g : Gathered} {k : AlarmKind} {s : State}

theorem announce_none (h : (before.records.get k.ix).event g before.settings (silenceStep g before.settings before.silenceRun) k =
    .none) : announce n before g k s = s := by
  simp only [announce, h]

theorem announce_raise (h : (before.records.get k.ix).event g before.settings
    (silenceStep g before.settings before.silenceRun) k = .raise) :
    announce n before g k s =
      fireAlarm n k ((indicate n k s).notifyAlarm n k .raise (before.records.get k.ix).state) := by
  simp only [announce, h]

theorem announce_clear (h : (before.records.get k.ix).event g before.settings
    (silenceStep g before.settings before.silenceRun) k = .clear) :
    announce n before g k s = s.notifyAlarm n k .clear (before.records.get k.ix).state := by
  simp only [announce, h]

end

theorem takeWord_show {n : Fin 12} {w : SideWord} {s : State} (h : (s.screens.get n).state = .show) : takeWord n w s =
    (if w.cueCall ≠ (s.cues.get n).lastCall ∧ w.cueCall ≠ 0 then
      overList fire ((processTime n w.showTime s).triggered n (.call w.cueCall)) (processTime n w.showTime s)
    else processTime n w.showTime s).modCues n fun x => { x with lastCall := w.cueCall } := by
  simp only [takeWord, if_pos h]

theorem stepMeasurement_cues (s : State) : (stepMeasurement s).cues = s.cues ∧ (stepMeasurement s).pool = s.pool ∧
    (stepMeasurement s).booth = s.booth ∧ (stepMeasurement s).screens = s.screens ∧ (stepMeasurement s).alarms = s.alarms := by
  obtain ⟨_, _, _, _, stepped⟩ := stepMeasurement_frame s
  rw [stepped]
  exact ⟨rfl, rfl, rfl, rfl, rfl⟩

/-- After the judgements an interval event leaves the cues, the booth lines, the screens and the alarms. -/
theorem takeInterval_cues (s : State) : (takeInterval s).cues = (judgeInterval s).cues ∧
    (takeInterval s).pool = (judgeInterval s).pool ∧ (takeInterval s).booth = (judgeInterval s).booth ∧
    (takeInterval s).screens = (judgeInterval s).screens ∧ (takeInterval s).alarms = (judgeInterval s).alarms := by
  rw [takeInterval_eq]
  generalize judgeInterval s = j
  obtain ⟨a, based⟩ := stepBases_frame j
  rw [based]
  split
  · exact ⟨rfl, rfl, rfl, rfl, rfl⟩
  · exact stepMeasurement_cues { j with attenuations := a }

end Sys2Proof.Machine

open Sys2Proof Sys2Proof.Machine

/-- Settles O47: the firing of an entry, the passes over a time list, and the events that make them. -/
theorem cuesFireByTime : Obligations.CuesFireByTime := by
  unfold Obligations.CuesFireByTime
  refine ⟨fun e s => fire_evac, fun e c s calm used => fire_some calm used,
    fun n s => ⟨fun l => rfl, fun l => rfl, fun l k => rfl, fun v => rfl, rfl⟩,
    fun n g s => ⟨List.filter_sublist, fun e => mem_triggered⟩, ?_, fun time e s => rearms_iff time,
    fun jump low t time e c s used ht => ⟨?_, chaseEntry_time used ht time⟩, fun f s => rfl, fun f e l s => rfl,
    fun n w s => takeWord_quiet, ?_, fun n clock time s law calm h =>
      ⟨processTime_clock h, fun e c t listed used ht => processTime_states law calm h listed used ht⟩, ?_,
    fun n event s => rfl, fun n w s word => startCues_eq word, fun e c t time s used ht =>
      ⟨rearm_some used, skip_some used, ?_⟩, ?_, fun n k s => ⟨fun h => if_pos h, fun h => if_neg h⟩, ?_, fun slips n s => rfl,
    fun s due taken => ⟨_, exec_intervalEvent_due due taken, ?_⟩⟩
  · rintro n clock time s t list back rfl h rfl
    refine ⟨processTime_forward h, ?_⟩
    rintro back rfl
    exact processTime_backward h back
  · rw [advanceEntry_time used ht]
    simp only [Option.map_some, Option.getD_some, decide_eq_true_iff]
  · rintro n w s u h rfl
    refine ⟨fun same => ?_, fun changed called => ?_⟩
    · rw [takeWord_show h, if_neg fun e => same.elim e.1 e.2]
      rfl
    · rw [takeWord_show h, if_pos ⟨changed, called⟩]
      rfl
  · rintro n b since w s x locked good rfl rfl
    have block := fun last => laneBlock_goes_on (k := since) (last := last) locked good
    have accepted := fun last => acceptWord_some (laneScreen_programLane n) b.side last
      (s.modLane (programLane n) fun l => { l.write b.frames with skew := some (since % 48) })
    rw [modLane_modLane] at accepted
    exact ⟨⟨_, screenTakesWord_takes .., congrArg _ ((block false).trans (accepted false))⟩,
      _, screenTakesWord_takes .., congrArg _ ((block true).trans (accepted true))⟩
  · rw [advanceEntry_time used ht]
    simp only [Option.map_none, Option.getD_none, true_and]
    cases c.chase <;> simp
  · intro h screen n w s hn hr holder armed calm lane fits word law
    rw [← candidate_allot_taking _ _ _ (.start h screen) h, ← holder] at fits
    have started := startScreen_armed (h := h) (s := s.taking (.start h screen) h) armed (judgeStart_fits calm lane fits)
    refine ⟨_, takeRequest_accept hr ((onScreen_valid hn _ _).trans
      ((ofHolder_holder (s := s.taking _ h) holder _).trans started)), fun e c time listed used ht => ?_⟩
    have states := startEffects_states (s := s.taking (.start h screen) h) law word calm listed used ht
      ((s.taking (.start h screen) h).screens.get n).holder
    generalize startEffects n (recompute .demand (candidate n .show ((s.taking (.start h screen) h).screens.get n).holder
      (s.taking (.start h screen) h))) = u at states ⊢
    exact states
  · rintro n before a g k r s event rfl rfl he
    exact ⟨fun e => announce_none (he.symm.trans e), fun e => announce_raise (he.symm.trans e),
      fun e => announce_clear (he.symm.trans e)⟩
  · intro j hj
    have judged : j = judgeInterval s := hj
    rw [judged]
    exact takeInterval_cues s
end

section
/-! PROOF. The interval event (02 R38, R42, 05 R95 to R101, 04 R83, 10 R173). -/

namespace Sys2Proof.Machine

/-! ### The base currents -/

/-- A pass that changes each screen's attenuation record, by what the records do not change. -/
theorem overList_attenuations {f : Fin 12 → State → State} {g : Fin 12 → Attenuation → Attenuation} {s : State}
    (h : ∀ n a, f n { s with attenuations := a } = { s with attenuations := a.modify n (g n) }) {l : List (Fin 12)}
    (once : l.Nodup) (a : Tab Attenuation 12) : overList f l { s with attenuations := a } =
      { s with attenuations := a.update fun n x => if n ∈ l then g n x else x } := by
  induction l generalizing a with
  | nil =>
    refine congrArg (fun t => ({ s with attenuations := t } : State)) (Tab.ext_get fun n => ?_)
    rw [Tab.get_update, if_neg List.not_mem_nil]
  | cons m rest ih =>
    obtain ⟨fresh, once⟩ := List.nodup_cons.1 once
    have step : overList f (m :: rest) { s with attenuations := a } =
        overList f rest (f m { s with attenuations := a }) := rfl
    rw [step, h, ih once]
    refine congrArg (fun t => ({ s with attenuations := t } : State)) (Tab.ext_get fun n => ?_)
    rw [Tab.get_update, Tab.get_update, Tab.get_modify]
    by_cases here : m = n
    · subst here
      rw [if_neg fresh, if_pos rfl, if_pos List.mem_cons_self]
    · rw [if_neg here]
      exact if_congr ⟨List.mem_cons_of_mem m, fun e => (List.mem_cons.1 e).resolve_left (Ne.symm here)⟩ rfl rfl

theorem overScreens_attenuations {f : Fin 12 → State → State} {g : Fin 12 → Attenuation → Attenuation} {s : State}
    (h : ∀ n a, f n { s with attenuations := a } = { s with attenuations := a.modify n (g n) }) (n : Fin 12) :
    (overScreens f s).attenuations.get n = g n (s.attenuations.get n) := by
  have pass : overScreens f s = _ := overList_attenuations h (List.nodup_finRange 12) s.attenuations
  rw [pass, Tab.get_update, if_pos (List.mem_finRange n)]

/-- A base current at an interval event. -/
def steppedBase (target : Nat) (state : ShowState) (a : Attenuation) : Attenuation :=
  if a.current < target then { a with current := target }
  else if target < a.current ∧ state ≠ .evacuated then { a with current := a.current - 1 }
  else a

theorem stepBases_get (s : State) (n : Fin 12) : (overScreens stepBase s).attenuations.get n =
    steppedBase (s.baseTarget n).1 (s.screens.get n).state (s.attenuations.get n) :=
  overScreens_attenuations (g := fun n => steppedBase (s.baseTarget n).1 (s.screens.get n).state) (fun _ _ => rfl) n

theorem steppedBase_current (target : Nat) (state : ShowState) (a : Attenuation) : (steppedBase target state a).current =
    if a.current < target then target
    else if target < a.current ∧ state ≠ .evacuated then a.current - 1 else a.current := by
  unfold steppedBase
  split
  · rfl
  · split <;> rfl

/-! ### The close of the block and of the intervals -/

theorem ensureClosed_meter (s : State) (n : Fin 12) : ∃ a b c d, (ensureClosed s).meters.get n =
    { s.meters.get n with blockSum := a, blockLevel := b, blockSpl := c, intervalSum := d } := by
  cases closed : s.blockClosed with
  | true => exact ⟨_, _, _, _, by rw [ensureClosed_closed closed]⟩
  | false =>
    have meters : (closeBlock s).meters.get n = (s.meters.get n).closeBlock (s.energiesClosed.blockSum n) := by
      rw [show closeBlock s = addMeasured s.metersClosed from rfl, addMeasured_meters]
      exact Tab.get_update ..
    rw [ensureClosed_open closed]
    exact ⟨_, _, _, _, meters⟩

theorem ensureClosed_blockClosed (s : State) : (ensureClosed s).blockClosed = true := by
  cases h : s.blockClosed with
  | true => rw [ensureClosed_closed h, h]
  | false => rw [ensureClosed_open h]

/-- A meter that a segment has been added to keeps the rest. -/
theorem addSegment_rest (m : Meter) : ∃ a b c, m.addSegment = { m with segmentSum := a, segmentFill := b, ring := c } := by
  unfold Meter.addSegment
  split
  · exact ⟨_, _, m.ring, rfl⟩
  · exact ⟨_, _, _, rfl⟩

theorem closeInterval_figures (state : ShowState) (m : Meter) :
    (m.closeInterval state).intervalSum = 0 ∧ (m.closeInterval state).clips = 0 ∧
      (m.closeInterval state).lastClips = m.clips ∧ (m.closeInterval state).offset = m.offset ∧
      (m.closeInterval state).intervalLevel = lvl m.intervalSum - 60 ∧
      (m.closeInterval state).intervalSpl = splCode (lvl m.intervalSum - 60) m.offset ∧
      (m.closeInterval state).showMax =
        (if state.playing = true then max m.showMax (splCode (lvl m.intervalSum - 60) m.offset) else m.showMax) := by
  obtain ⟨_, _, _, added⟩ := addSegment_rest m
  refine ⟨rfl, rfl, rfl, ?_, rfl, rfl, rfl⟩
  unfold Meter.closeInterval
  dsimp only
  split
  · rw [added]
  · rfl

theorem closeInterval_window (state : ShowState) (m : Meter) :
    (m.closeInterval state).windowSum = (m.closeInterval state).ring.sum ∧
      (m.closeInterval state).windowLevel = lvl (m.closeInterval state).windowSum - 114 ∧
      (m.closeInterval state).windowSpl = splCode (m.closeInterval state).windowLevel m.offset := ⟨rfl, rfl, rfl⟩

theorem closeInterval_segment (state : ShowState) (m : Meter) :
    (state ≠ .show → (m.closeInterval state).segmentSum = m.segmentSum ∧
      (m.closeInterval state).segmentFill = m.segmentFill ∧ (m.closeInterval state).ring = m.ring) ∧
    (state = .show → m.segmentFill + 1 < 32 → (m.closeInterval state).segmentSum = m.segmentSum + m.intervalSum ∧
      (m.closeInterval state).segmentFill = m.segmentFill + 1 ∧ (m.closeInterval state).ring = m.ring) ∧
    (state = .show → 32 ≤ m.segmentFill + 1 → (m.closeInterval state).segmentSum = 0 ∧
      (m.closeInterval state).segmentFill = 0 ∧ (m.closeInterval state).ring =
        (if 16 ≤ m.ring.length then m.ring.drop 1 else m.ring) ++ [m.segmentSum + m.intervalSum]) := by
  unfold Meter.closeInterval Meter.addSegment
  dsimp only
  refine ⟨fun other => ?_, fun show_ few => ?_, fun show_ full => ?_⟩
  · rw [if_neg other]
    exact ⟨rfl, rfl, rfl⟩
  · rw [if_pos show_, if_pos few]
    exact ⟨rfl, rfl, rfl⟩
  · rw [if_pos show_, if_neg (Nat.not_lt.2 full)]
    exact ⟨rfl, rfl, rfl⟩

/-! ### The judgements -/

/-- What the judgements move. -/
theorem judgeAll_frame (slips : Fin 14 → Nat) (s : State) : ∃ a b c e q p, overScreens (judgeScreen slips) s =
    { s with alarms := a, booth := b, screens := c, pool := e, cues := q, ports := p } := by
  refine overScreens_induct (P := fun t => ∃ a b c e q p,
    t = { s with alarms := a, booth := b, screens := c, pool := e, cues := q, ports := p })
    ⟨s.alarms, s.booth, s.screens, s.pool, s.cues, s.ports, rfl⟩ ?_
  rintro n t ⟨_, _, _, _, _, _, rfl⟩
  obtain ⟨_, _, _, _, _, _, h⟩ := judgeScreen_frame slips n _
  exact ⟨_, _, _, _, _, _, h⟩

/-- The cues of a raise move levels alone, of the screens. -/
theorem judgeAll_screens (slips : Fin 14 → Nat) (s : State) (n : Fin 12) : (overScreens (judgeScreen slips) s).screens.get n =
    { s.screens.get n with level := ((overScreens (judgeScreen slips) s).screens.get n).level } := by
  refine overScreens_induct (P := fun t => t.screens.get n = { s.screens.get n with level := (t.screens.get n).level }) rfl
    fun m t ht => ?_
  refine ((judgeScreen_cueKept slips m t).screens n).trans ?_
  rw [show (t.modAlarms m (Alarms.judge (t.gather slips m))).screens.get n = t.screens.get n from rfl, ht]

/-- What an interval event has made of a state before the measurement steps. -/
theorem judgeInterval_frame (s : State) : ∃ t, judgeInterval s = t ∧
    t = { ensureClosed s with
      blockCount := 0, intervalTaken := true, meters := (closeIntervals (ensureClosed s)).meters
      lanes := s.lanes.map fun l => { l with intervalSlips := 0 }
      alarms := t.alarms, booth := t.booth, screens := t.screens, pool := t.pool, cues := t.cues, ports := t.ports } := by
  obtain ⟨_, _, _, _, _, _, h⟩ := judgeAll_frame s.slipsHanded (clearSlips (closedInterval s))
  refine ⟨_, rfl, ?_⟩
  rw [judgeInterval, h, ← (ensureClosed_keeps s).1]
  rfl

/-! ### The step of the measurement -/

section
variable {s t : State}

/-- The end of a phase goes by the context and the outputs. -/
theorem endPhase_congr (context : t.context = s.context) (outputs : t.outputs = s.outputs) :
    (endPhase t).context = (endPhase s).context ∧ (endPhase t).outputs = (endPhase s).outputs := by
  have targets := fun n g => State.targetOutputs_of_place (s := s) (t := t) (fun o => by rw [outputs]) n g
  unfold endPhase
  rw [context]
  dsimp only
  split
  · exact ⟨rfl, outputs⟩
  · split
    · rw [targets]
      unfold setTones
      dsimp only
      rw [outputs]
      exact ⟨rfl, rfl⟩
    · exact ⟨rfl, outputs⟩
  · exact ⟨rfl, outputs⟩
  · exact ⟨context, outputs⟩
  · exact ⟨context, outputs⟩

/-- The result of a measurement goes by the context, the outputs, the microphone's offset and the SPL offsets. -/
theorem endMeasurement_congr (context : t.context = s.context) (outputs : t.outputs = s.outputs)
    (mic : t.micOffset = s.micOffset) (offset : ∀ n, (t.meters.get n).offset = (s.meters.get n).offset) :
    (endMeasurement t).context = (endMeasurement s).context ∧ (endMeasurement t).outputs = (endMeasurement s).outputs ∧
      ∀ n, ((endMeasurement t).meters.get n).offset = ((endMeasurement s).meters.get n).offset := by
  have cleared : ∀ n, (clearTones n t).outputs = (clearTones n s).outputs := fun n => by
    unfold clearTones
    dsimp only
    rw [outputs]
  unfold endMeasurement
  rw [context, mic]
  dsimp only
  split
  · next n g _ _ =>
    split
    · exact ⟨rfl, cleared n, offset⟩
    · cases g with
      | output o =>
        refine ⟨rfl, ?_, offset⟩
        simp only [storeSensitivity, notify_outputs, modOutput_outputs]
        rw [cleared n]
      | reference =>
        refine ⟨rfl, cleared n, fun m => ?_⟩
        simp only [storeSensitivity, notify_meters, modMeter_meters, Tab.get_modify]
        split
        · rfl
        · exact offset m
  · exact ⟨rfl, outputs, offset⟩

/-- The steps of the measurement at an interval event. -/
theorem stepMeasurement_idle (h : s.context.inFlight = false) : stepMeasurement s = s := by
  simp only [stepMeasurement, h, Bool.not_false, if_true]

theorem stepMeasurement_counts (h : s.context.inFlight = true) (ends : s.context.ends = false) :
    stepMeasurement s = { s with context := { s.context with count := s.context.count + 1 } } := by
  simp only [stepMeasurement, h, ends, Bool.not_true, Bool.not_false, Bool.false_eq_true, if_false, if_true]

theorem stepMeasurement_phase (ends : s.context.ends = true) (phase : s.context.phase ≠ .measure) :
    stepMeasurement s = endPhase s := by
  have flies := (Bool.and_eq_true_iff.1 ends).1
  simp only [stepMeasurement, flies, ends, Bool.not_true, Bool.false_eq_true, if_false]

theorem stepMeasurement_result (ends : s.context.ends = true) (phase : s.context.phase = .measure) :
    stepMeasurement s = endMeasurement s := by
  have flies := (Bool.and_eq_true_iff.1 ends).1
  simp only [stepMeasurement, flies, ends, Bool.not_true, Bool.false_eq_true, if_false, phase]

end

/-- The state of an interval event before its measurement steps. -/
def basedInterval (s : State) : State := overScreens stepBase (judgeInterval s)

theorem basedInterval_frame (s : State) : ∃ t, basedInterval s = t ∧
    t = { ensureClosed s with
      blockCount := 0, intervalTaken := true, meters := (closeIntervals (ensureClosed s)).meters
      lanes := s.lanes.map fun l => { l with intervalSlips := 0 }
      alarms := t.alarms, booth := t.booth, screens := t.screens, pool := t.pool, cues := t.cues, ports := t.ports
      attenuations := t.attenuations } ∧
    t.ports = (judgeInterval s).ports ∧ t.screens = (judgeInterval s).screens := by
  obtain ⟨j, judged, frame⟩ := judgeInterval_frame s
  obtain ⟨a, based⟩ := stepBases_frame j
  refine ⟨_, rfl, ?_⟩
  rw [basedInterval, judged, based]
  refine ⟨?_, rfl, rfl⟩
  dsimp only
  rw [frame]

theorem takeInterval_stepped {s : State} (h : s.measureStepped = true) : takeInterval s = basedInterval s := by
  obtain ⟨t, eq, frame, -⟩ := basedInterval_frame s
  obtain ⟨_, _, _, _, _, _, closed⟩ := ensureClosed_frame s
  refine (takeInterval_eq s).trans (if_pos ?_)
  rw [show overScreens stepBase (judgeInterval s) = t from eq, frame, closed]
  exact h

theorem takeInterval_steps {s : State} (h : s.measureStepped = false) :
    takeInterval s = stepMeasurement (basedInterval s) := by
  obtain ⟨t, eq, frame, -⟩ := basedInterval_frame s
  obtain ⟨_, _, _, _, _, _, closed⟩ := ensureClosed_frame s
  refine (takeInterval_eq s).trans (if_neg ?_)
  rw [show overScreens stepBase (judgeInterval s) = t from eq, frame, closed]
  exact Bool.eq_false_iff.1 h

theorem closeIntervals_offset (s : State) (n : Fin 12) :
    ((closeIntervals s).meters.get n).offset = (s.meters.get n).offset := by
  obtain ⟨-, -, -, offset, -⟩ := closeInterval_figures (s.screens.get n).state (s.meters.get n)
  rw [closeIntervals, Tab.get_update]
  exact offset

/-- What the step of the measurement goes by: that of the closed block. -/
theorem basedInterval_measured (s : State) : (basedInterval s).context = (ensureClosed s).context ∧
    (basedInterval s).outputs = (ensureClosed s).outputs ∧ (basedInterval s).micOffset = (ensureClosed s).micOffset ∧
    ∀ n, ((basedInterval s).meters.get n).offset = ((ensureClosed s).meters.get n).offset := by
  obtain ⟨t, eq, frame, -⟩ := basedInterval_frame s
  rw [eq, frame]
  exact ⟨rfl, rfl, rfl, closeIntervals_offset (ensureClosed s)⟩

/-- The phase of a measurement and its count stand while a block closes. -/
theorem ensureClosed_ends (s : State) : (ensureClosed s).context.ends = s.context.ends ∧
    (ensureClosed s).context.inFlight = s.context.inFlight ∧ (ensureClosed s).context.phase = s.context.phase ∧
    (ensureClosed s).context.count = s.context.count := by
  obtain ⟨_, _, e⟩ := ensureClosed_context s
  rw [e]
  exact ⟨rfl, rfl, rfl, rfl⟩

theorem ensureClosed_offset (s : State) (n : Fin 12) : ((ensureClosed s).meters.get n).offset = (s.meters.get n).offset := by
  obtain ⟨_, _, _, _, e⟩ := ensureClosed_meter s n
  rw [e]

/-- An interval event in the terms of its parts: the based state, and what the measurement steps in it. -/
theorem takeInterval_kept (s : State) : ∃ t, takeInterval s = t ∧
    t = { basedInterval s with context := t.context, outputs := t.outputs, meters := t.meters, ports := t.ports } := by
  refine ⟨_, rfl, ?_⟩
  cases h : s.measureStepped with
  | true => rw [takeInterval_stepped h]
  | false =>
    obtain ⟨_, _, _, _, steps⟩ := stepMeasurement_frame (basedInterval s)
    rw [takeInterval_steps h, steps]

/-- The base currents an interval event sets. -/
theorem takeInterval_current (s : State) (n : Fin 12) : ((takeInterval s).attenuations.get n).current =
    if (s.attenuations.get n).current < ((takeInterval s).baseTarget n).1 then ((takeInterval s).baseTarget n).1
    else if ((takeInterval s).baseTarget n).1 < (s.attenuations.get n).current ∧ (s.screens.get n).state ≠ .evacuated then
      (s.attenuations.get n).current - 1
    else (s.attenuations.get n).current := by
  obtain ⟨t, eq, kept⟩ := takeInterval_kept s
  obtain ⟨j, judged, frame⟩ := judgeInterval_frame s
  obtain ⟨_, _, _, _, _, _, closed⟩ := ensureClosed_frame s
  have state : (j.screens.get n).state = (s.screens.get n).state := by
    have levels := judgeAll_screens s.slipsHanded (clearSlips (closedInterval s)) n
    have same : (clearSlips (closedInterval s)).screens = s.screens := by
      rw [show (clearSlips (closedInterval s)).screens = (ensureClosed s).screens from rfl, closed]
    rw [← judged, judgeInterval, levels, same]
  have before : j.attenuations = s.attenuations := by
    rw [frame, closed]
  rw [basedInterval, judged] at kept
  rw [eq, ← state, ← before]
  clear frame judged state before closed eq
  have current : t.attenuations.get n =
      steppedBase (j.baseTarget n).1 (j.screens.get n).state (j.attenuations.get n) := by
    have same := congrArg State.attenuations kept
    rw [show t.attenuations = (overScreens stepBase j).attenuations from same]
    exact stepBases_get ..
  have target : t.baseTarget n = j.baseTarget n := by
    obtain ⟨_, based⟩ := stepBases_frame j
    rw [based] at kept
    rw [kept]
    rfl
  rw [current, steppedBase_current, target]

/-- What the measurement steps at an interval event, in the terms of the closed block. -/
theorem takeInterval_measured (s : State) :
    ((s.measureStepped = true ∨ s.context.inFlight = false) →
      (takeInterval s).context = (ensureClosed s).context ∧ (takeInterval s).outputs = (ensureClosed s).outputs ∧
        (∀ n, ((takeInterval s).meters.get n).offset = (s.meters.get n).offset) ∧
        (takeInterval s).ports = (judgeInterval s).ports) ∧
    (s.measureStepped = false → s.context.inFlight = true → s.context.ends = false →
      (takeInterval s).context = { (ensureClosed s).context with count := s.context.count + 1 } ∧
        (takeInterval s).outputs = (ensureClosed s).outputs ∧
        (∀ n, ((takeInterval s).meters.get n).offset = (s.meters.get n).offset) ∧
        (takeInterval s).ports = (judgeInterval s).ports) ∧
    (s.measureStepped = false → s.context.ends = true → s.context.phase ≠ .measure →
      (takeInterval s).context = (endPhase (ensureClosed s)).context ∧
        (takeInterval s).outputs = (endPhase (ensureClosed s)).outputs ∧
        (∀ n, ((takeInterval s).meters.get n).offset = ((endPhase (ensureClosed s)).meters.get n).offset) ∧
        (takeInterval s).ports = (judgeInterval s).ports) ∧
    (s.measureStepped = false → s.context.ends = true → s.context.phase = .measure →
      takeInterval s = endMeasurement (basedInterval s) ∧
      (takeInterval s).context = (endMeasurement (ensureClosed s)).context ∧
        (takeInterval s).outputs = (endMeasurement (ensureClosed s)).outputs ∧
        (∀ n, ((takeInterval s).meters.get n).offset = ((endMeasurement (ensureClosed s)).meters.get n).offset)) := by
  obtain ⟨context, outputs, mic, offset⟩ := basedInterval_measured s
  obtain ⟨ends, flies, phase, count⟩ := ensureClosed_ends s
  obtain ⟨b, based, -, ports, -⟩ := basedInterval_frame s
  have steps := @takeInterval_steps s
  have stepped := @takeInterval_stepped s
  rw [based] at context outputs mic offset steps stepped
  rw [← context] at ends flies phase count
  have offsets := fun n => (offset n).trans (ensureClosed_offset s n)
  refine ⟨fun still => ?_, fun waits on before => ?_, fun waits due away => ?_, fun waits due here => ?_⟩
  · have stays : takeInterval s = b := by
      cases h : s.measureStepped with
      | true => exact stepped h
      | false => exact (steps h).trans (stepMeasurement_idle (flies.trans (still.resolve_left fun e => by rw [h] at e; cases e)))
    rw [stays]
    exact ⟨context, outputs, offsets, ports⟩
  · rw [steps waits, stepMeasurement_counts (flies.trans on) (ends.trans before)]
    refine ⟨?_, outputs, offsets, ports⟩
    dsimp only
    rw [count, context]
  · obtain ⟨c, o⟩ := endPhase_congr context outputs
    obtain ⟨_, _, frame⟩ := endPhase_frame b
    obtain ⟨_, _, closed⟩ := endPhase_frame (ensureClosed s)
    rw [steps waits, stepMeasurement_phase (ends.trans due) (by rw [phase]; exact away)]
    refine ⟨c, o, fun n => ?_, ?_⟩
    · rw [frame, closed]
      exact offset n
    · rw [frame]
      exact ports
  · obtain ⟨c, o, m⟩ := endMeasurement_congr context outputs mic offset
    rw [steps waits, stepMeasurement_result (ends.trans due) (phase.trans here), based]
    exact ⟨rfl, c, o, m⟩

/-- The notice of a measurement's result. -/
theorem endMeasurement_ports {s : State} {n : Fin 12} {g : Target} {b m o spl : Nat} {x : Int}
    (screen : s.context.screen = some n) (target : s.context.target = some g) (background : s.context.background = some b)
    (hm : m = lvl s.context.micSum - 72) (ho : o = lvl s.context.targetSum - 72)
    (hspl : (spl : Int) = max 0 (min (m + s.micOffset) 255)) (hx : x = max (-128) (min ((spl : Int) - o) 127)) :
    (endMeasurement s).ports = tell [.measure n g (if m < b + 20 then .noisy b m o else .ok b m o spl x)] s.ports := by
  have level : (clampInt 0 255 (m + s.micOffset)).toNat = spl := by
    rw [clampInt_eq_max_min (by decide), ← hspl]
    exact Int.toNat_natCast spl
  have sensitivity : clampInt (-128) 127 ((spl : Int) - o) = x := by
    rw [clampInt_eq_max_min (by decide)]
    exact hx.symm
  rw [endMeasurement_eq screen target background hm ho, level, sensitivity]
  split
  · rfl
  · cases g <;> rfl

theorem phaseDue_parts {s : State} : s.phaseDue = true ↔
    s.intervalDue = true ∧ s.measureStepped = false ∧ s.context.ends = true := by
  rw [State.phaseDue, Bool.and_eq_true_iff, Bool.and_eq_true_iff, Bool.not_eq_true', and_assoc]

/-- A screen's meter after an interval event: that of the close, but for an offset a measurement stores. -/
theorem takeInterval_closed (s : State) (n : Fin 12) : ∃ m x, m = (ensureClosed s).meters.get n ∧
    (takeInterval s).meters.get n = { m.closeInterval (s.screens.get n).state with offset := x } ∧
    m.offset = (s.meters.get n).offset ∧ m.clips = (s.meters.get n).clips ∧ m.showMax = (s.meters.get n).showMax := by
  obtain ⟨_, _, _, _, _, _, closed⟩ := ensureClosed_frame s
  obtain ⟨_, _, _, _, rest⟩ := ensureClosed_meter s n
  have close : (closeIntervals (ensureClosed s)).meters.get n =
      ((ensureClosed s).meters.get n).closeInterval (s.screens.get n).state := by
    rw [closeIntervals, Tab.get_update, show (ensureClosed s).screens = s.screens by rw [closed]]
  refine ⟨_, _, rfl, (takeInterval_meter s n).trans (by rw [close]), ?_, ?_, ?_⟩ <;> rw [rest]

theorem takeInterval_frame (s : State) : ∃ t, takeInterval s = t ∧
    t = { s with
      ports := t.ports, screens := t.screens, lanes := t.lanes, blockCount := 0, outputs := t.outputs
      attenuations := t.attenuations, meters := t.meters, micRunning := t.micRunning, micEnergy := t.micEnergy
      alarms := t.alarms, pool := t.pool, cues := t.cues, booth := t.booth, context := t.context
      blockClosed := true, intervalTaken := true } := by
  obtain ⟨t, after, kept⟩ := takeInterval_kept s
  obtain ⟨b, based, frame, -⟩ := basedInterval_frame s
  have shut := ensureClosed_blockClosed s
  obtain ⟨_, _, _, _, _, _, closed⟩ := ensureClosed_frame s
  rw [closed] at frame shut
  refine ⟨t, after, ?_⟩
  rw [based] at kept
  clear after based closed
  rw [kept]
  dsimp only
  rw [frame]
  dsimp only at shut ⊢
  rw [shut]

end Sys2Proof.Machine

open Sys2Proof Sys2Proof.Machine

/-- Settles O29: the close of the block and of the intervals, then the judgements, the base currents and the step of the
measurement. -/
theorem intervalEventCloses : Obligations.IntervalEventCloses := by
  unfold Obligations.IntervalEventCloses
  refine ⟨fun level offset => ?_, fun s => ⟨ensureClosed_closed, ensureClosed_open⟩, fun s => ⟨fun idle => ?_,
    fun due taken => ⟨_, exec_intervalEvent_due due taken, ?_⟩⟩⟩
  · rw [splCode, clampInt_eq_max_min (by decide)]
    omega
  · exact congrArg Host.Outcome.next (if_neg fun due => idle ((due_iff s).1 due))
  · obtain ⟨t, after, frame⟩ := takeInterval_frame s
    obtain ⟨still, counts, phase, result⟩ := takeInterval_measured s
    have interval := (due_iff s).2 ⟨due, taken⟩
    have alarms := takeInterval_alarms s
    have meter := takeInterval_closed s
    have current := takeInterval_current s
    have lanes := (takeInterval_keeps s).2
    obtain ⟨-, -, -, screens, -⟩ := takeInterval_cues s
    rw [after] at still counts phase result alarms meter current lanes screens ⊢
    refine ⟨congrArg State.blockCount frame, congrArg State.intervalTaken frame, congrArg State.blockClosed frame,
      fun l => ?_, fun n => ?_, fun n m here => ?_, alarms, current, fun stays => ?_, fun waits on before => ?_,
      fun due => ?_, ?_, frame, fun n => ?_⟩
    · obtain ⟨_, _, _, _, _, _, closed⟩ := ensureClosed_frame s
      rw [lanes, closed]
      exact Tab.get_map ..
    · obtain ⟨m, x, rfl, now, offset, clips, loudest⟩ := meter n
      obtain ⟨sum, clipped, last, -, level, spl, most⟩ :=
        closeInterval_figures (s.screens.get n).state ((ensureClosed s).meters.get n)
      rw [now, ← offset, ← clips, ← loudest]
      refine ⟨sum, clipped, last, level, spl, ?_⟩
      dsimp only
      rw [most, spl]
    · obtain ⟨_, x, rfl, now, offset, -⟩ := meter n
      subst here
      rw [now, ← offset]
      obtain ⟨other, few, full⟩ := closeInterval_segment (s.screens.get n).state ((ensureClosed s).meters.get n)
      exact ⟨other, few, full, closeInterval_window (s.screens.get n).state ((ensureClosed s).meters.get n)⟩
    · obtain ⟨c, o, m, -⟩ := still stays
      exact ⟨c, o, m⟩
    · have runs : s.context.ends = false := Bool.eq_false_iff.2 fun ends =>
        Bool.false_ne_true (before.symm.trans (phaseDue_parts.2 ⟨interval, waits, ends⟩))
      obtain ⟨c, o, m, -⟩ := counts waits on runs
      exact ⟨c, o, m⟩
    · obtain ⟨-, waits, ends⟩ := phaseDue_parts.1 due
      by_cases here : s.context.phase = .measure
      · have run := exec_measurementResult_due due here
        obtain ⟨-, c, o, m⟩ := result waits ends here
        generalize endMeasurement (ensureClosed s) = r at run c o m
        exact ⟨{ r with measureStepped := true }, fun away => absurd here away, fun _ => run, c, o, m⟩
      · have run := exec_measurePhaseEnd_due due here
        obtain ⟨c, o, m, -⟩ := phase waits ends here
        generalize endPhase (ensureClosed s) = r at run c o m
        exact ⟨{ r with measureStepped := true }, fun _ => run, fun e => absurd e here, c, o, m⟩
    · intro u j hu hj
      subst hu
      have judged : j = judgeInterval s := hj
      rw [← judged] at still counts phase
      refine ⟨fun quiet => ?_, fun n g b m o spl x due here screen target background hm ho hspl hx => ?_⟩
      · cases waits : s.measureStepped with
        | true => exact (still (.inl waits)).2.2.2
        | false =>
          cases on : s.context.inFlight with
          | false => exact (still (.inr on)).2.2.2
          | true =>
            cases ends : s.context.ends with
            | false => exact (counts waits on ends).2.2.2
            | true => exact (phase waits ends fun here => quiet ⟨phaseDue_parts.2 ⟨interval, waits, ends⟩, here⟩).2.2.2
      · obtain ⟨-, waits, ends⟩ := phaseDue_parts.1 due
        obtain ⟨ended, -⟩ := result waits ends here
        obtain ⟨b, based, moved, ports, -⟩ := basedInterval_frame s
        obtain ⟨context, -, mic, -⟩ := basedInterval_measured s
        obtain ⟨_, _, _, _, _, _, closed⟩ := ensureClosed_frame s
        obtain ⟨_, _, kept⟩ := ensureClosed_context s
        rw [judged, ← ports, ended, based]
        rw [based] at context mic
        have standing : b.context.screen = s.context.screen ∧ b.context.target = s.context.target ∧
            b.context.background = s.context.background := by
          rw [context, kept]
          exact ⟨rfl, rfl, rfl⟩
        obtain ⟨sameScreen, sameTarget, sameBackground⟩ := standing
        refine endMeasurement_ports (sameScreen.trans screen) (sameTarget.trans target)
          (sameBackground.trans background) (by rw [context]; exact hm) (by rw [context]; exact ho) ?_ hx
        rw [mic, show (ensureClosed s).micOffset = s.micOffset by rw [closed]]
        exact hspl
    · have levels := judgeAll_screens s.slipsHanded (clearSlips (closedInterval s)) n
      obtain ⟨_, _, _, _, _, _, closed⟩ := ensureClosed_frame s
      have same : (clearSlips (closedInterval s)).screens = s.screens := by
        rw [show (clearSlips (closedInterval s)).screens = (ensureClosed s).screens from rfl, closed]
      rw [same] at levels
      rw [screens]
      exact levels
end

section
/-! PROOF. What one house block makes of every output, said once: the state its sound runs in, the plan of each screen,
and each output's run (02 R42, 03 R62 to R65, 04 R73 to R83). -/

namespace Sys2Proof.Machine

/-! ### The base currents before the sound -/

/-- A base current that a target above it has raised. -/
def raisedBase (target : Nat) (a : Attenuation) : Attenuation :=
  if a.current < target then { a with current := target } else a

theorem raisedBase_eq (target : Nat) (a : Attenuation) : raisedBase target a = { a with current := max a.current target } := by
  unfold raisedBase
  split
  · next h => rw [Nat.max_eq_right h.le]
  · next h => rw [Nat.max_eq_left (Nat.not_lt.1 h)]

theorem raiseBases_get (s : State) (n : Fin 12) : (overScreens raiseBase s).attenuations.get n =
    { s.attenuations.get n with current := max (s.attenuations.get n).current (s.baseTarget n).1 } :=
  (overScreens_attenuations (g := fun n => raisedBase (s.baseTarget n).1) (fun _ _ => rfl) n).trans (raisedBase_eq _ _)

/-! ### The parts of the sound -/

section
variable (periods : Nat) (flags : Tab Bool 192) (old s : State)

/-- The screens' plans for the sound in s of a house block taken at old. -/
def soundPlan : Tab Plan 12 := .ofFn fun n => old.plan (s.lanes.map Lane.handed) n

/-- The tone of the block, and beyond its 48th sample. -/
def soundTone : List Int := toneOf s.toneGain (noiseSamples Config.blockSamples s.noise).1

def lateTone : List Int :=
  toneOf s.toneGain (noiseSamples (periods - Config.blockSamples) (noiseSamples Config.blockSamples s.noise).2).1

/-- One output's run. -/
def soundRan (o : Fin 192) : Ran :=
  old.runOne (overScreens raiseBase s) (soundPlan old s) (soundTone s) (lateTone periods s) flags o

/-- The clips of a screen's block: of its feeds and folds, of its paging samples and of its outputs' paths. -/
def soundClips (n : Fin 12) : Nat :=
  ((soundPlan old s).get n).program.clips + ((soundPlan old s).get n).pagingClips +
    ((ranOn (.ofFn (soundRan periods flags old s)) n).map Ran.clips).sum

theorem runSound_eq : runSound periods flags old s =
    { s with
      lanes := s.lanes.map Lane.afterRead
      noise := (noiseSamples (periods - Config.blockSamples) (noiseSamples Config.blockSamples s.noise).2).2
      blockPeriods := max Config.blockSamples periods
      lateDraws := s.lateDraws + 1
      outputs := (Tab.ofFn (soundRan periods flags old s)).map Ran.output
      micRunning := s.micRunning + blockEnergy (slot ((s.lanes.map Lane.handed).get measurementLane) 1)
      meters := s.meters.update fun n m => m.addClips (soundClips periods flags old s n)
      routes := s.routes.update fun n x => { x with figures := ((soundPlan old s).get n).figures }
      attenuations := (overScreens raiseBase s).attenuations.update fun n a =>
        { a with
          figures := (overScreens raiseBase s).gainFigures (old.screens.get n).level
            ((ranOn (.ofFn (soundRan periods flags old s)) n).filter Ran.muted).length n }
      returnWords := .ofFn fun n => old.returnWord ((overScreens raiseBase s).applied n) n } := by
  obtain ⟨a, h⟩ := raiseBases_frame s
  unfold runSound soundClips soundRan soundTone lateTone
  dsimp only
  rw [h]
  rfl

variable {periods} {flags} {old} {s}

theorem soundPlan_get (n : Fin 12) : (soundPlan old s).get n = old.plan (s.lanes.map Lane.handed) n := Tab.get_ofFn ..

theorem raiseBases_kept : (overScreens raiseBase s).outputs = s.outputs ∧ (overScreens raiseBase s).lateDraws = s.lateDraws ∧
    (overScreens raiseBase s).screens = s.screens := by
  obtain ⟨a, h⟩ := raiseBases_frame s
  rw [h]
  exact ⟨rfl, rfl, rfl⟩

/-- What an output carries for the block. -/
def soundSelected (flags : Tab Bool 192) (old s : State) (o : Fin 192) : Selected :=
  old.select (soundPlan old s) (soundTone s) (flags.get o) (s.outputs.get o)

theorem State.select_unmapped {u : State} {plan : Tab Plan 12} {tone : List Int} {flag : Bool} {x : Output}
    (h : x.place = none) : u.select plan tone flag x = .silence .unmapped := by
  unfold State.select
  rw [h]

theorem soundRan_unmapped {o : Fin 192} (h : (s.outputs.get o).place = none) : soundRan periods flags old s o =
    runOutput (soundSelected flags old s o)
      (lateSamples (lateTone periods s) s.lateDraws o (soundSelected flags old s o).kind) 0 80 0 false (s.outputs.get o) := by
  obtain ⟨outputs, draws, -⟩ := raiseBases_kept (s := s)
  unfold soundRan State.runOne
  dsimp only
  rw [outputs, draws, h]
  rfl

theorem soundRan_mapped {o : Fin 192} {n : Fin 12} {r : Role} (h : (s.outputs.get o).place = some (n, r)) :
    soundRan periods flags old s o = runOutput (soundSelected flags old s o)
      (lateSamples (lateTone periods s) s.lateDraws o (soundSelected flags old s o).kind)
      (if (s.outputs.get o).inService = true then (((soundPlan old s).get n).figures.roles.get r.ix).comp else 0)
      (old.screens.get n).level ((overScreens raiseBase s).applied n) (old.pilotAdded (s.outputs.get o)) (s.outputs.get o) := by
  obtain ⟨outputs, draws, -⟩ := raiseBases_kept (s := s)
  unfold soundRan State.runOne
  dsimp only
  rw [outputs, draws, h]
  rfl

/-- An output's run, whether it is mapped or not. -/
theorem soundRan_runs (periods : Nat) (flags : Tab Bool 192) (old s : State) (o : Fin 192) :
    ∃ comp level applied pilot, soundRan periods flags old s o =
      runOutput (soundSelected flags old s o)
        (lateSamples (lateTone periods s) s.lateDraws o (soundSelected flags old s o).kind) comp level applied pilot
        (s.outputs.get o) := by
  cases place : (s.outputs.get o).place with
  | none => exact ⟨_, _, _, _, soundRan_unmapped place⟩
  | some p => exact ⟨_, _, _, _, soundRan_mapped place⟩

theorem runSound_outputs (o : Fin 192) :
    (runSound periods flags old s).outputs.get o = (soundRan periods flags old s o).output := by
  rw [runSound_eq]
  dsimp only
  rw [Tab.get_map, Tab.get_ofFn]

theorem runSound_meters (n : Fin 12) : (runSound periods flags old s).meters.get n =
    { s.meters.get n with clips := min 65535 ((s.meters.get n).clips + soundClips periods flags old s n) } := by
  rw [runSound_eq]
  exact Tab.get_update ..

theorem runSound_applied (n : Fin 12) : (runSound periods flags old s).applied n = (overScreens raiseBase s).applied n := by
  rw [runSound_eq, State.applied]
  dsimp only
  rw [Tab.get_update, State.applied, raiseBases_kept.2.2]

end

/-! ### The states of a house block -/

/-- The state of a house block before the close of the block before it. -/
theorem beforeClose_frame (inp : BlockInputs) (s : State) : ∃ x,
    tickSelftest inp.fault0 inp.fault1 (beforeSelftest inp s) = x ∧
    x = { s with
      screens := x.screens, booth := x.booth, noise := x.noise, selftest := x.selftest, badPages := x.badPages
      ports := x.ports } ∧
    x.screens = s.screens.map Screen.houseFade ∧ x.noise = (passReset inp.sinceReset s).noise ∧
    x.booth = (tickLines s).booth := by
  obtain ⟨_, _, _, h⟩ := tickSelftest_frame inp.fault0 inp.fault1 (beforeSelftest inp s)
  obtain ⟨z, reset⟩ := passReset_frame inp.sinceReset s
  refine ⟨_, rfl, ?_⟩
  rw [h, beforeSelftest, reset]
  exact ⟨rfl, rfl, rfl, rfl⟩

/-- The state of a house block at its close. -/
theorem atHouseBlock_frame (inp : BlockInputs) (s : State) : ∃ u, atHouseBlock inp s = u ∧
    u = { s with
      screens := u.screens, booth := u.booth, noise := u.noise, selftest := u.selftest, badPages := u.badPages
      ports := u.ports, outputs := u.outputs, micEnergy := u.micEnergy, micRunning := u.micRunning, meters := u.meters
      context := u.context, blockClosed := true } := by
  obtain ⟨x, before, frame, -⟩ := beforeClose_frame inp s
  have shut := ensureClosed_blockClosed x
  obtain ⟨_, _, _, _, _, _, closed⟩ := ensureClosed_frame x
  refine ⟨_, rfl, ?_⟩
  rw [atHouseBlock_eq, before]
  rw [closed] at shut ⊢
  dsimp only at shut ⊢
  rw [shut, frame]

/-- What the count of a house block moves. -/
theorem countBlock_frame (s : State) : ∃ t, countBlock s = t ∧
    t = { s with
      ports := t.ports, screens := t.screens, lanes := t.lanes, blockCount := t.blockCount, outputs := t.outputs
      attenuations := t.attenuations, meters := t.meters, micRunning := t.micRunning, micEnergy := t.micEnergy
      alarms := t.alarms, pool := t.pool, cues := t.cues, booth := t.booth, context := t.context
      blockClosed := t.blockClosed, intervalTaken := t.intervalTaken } := by
  refine ⟨_, rfl, ?_⟩
  unfold countBlock
  split
  · rfl
  · split
    · obtain ⟨t, after, frame⟩ := takeInterval_frame s
      rw [after, frame]
    · rfl

/-- The sound of a house block leaves the outputs but for their tone flags. -/
theorem houseBlock_output (inp : BlockInputs) (s : State) (o : Fin 192) : (houseBlock inp s).outputs.get o =
    { (soundRan inp.periods (flagsRead inp s) (atHouseBlock inp s) (beforeSound inp s) o).output with
      toneFlag := ((houseBlock inp s).outputs.get o).toneFlag } :=
  ((houseBlock_keeps inp s).1 o).trans (by rw [afterSound, runSound_outputs])

/-- The outputs of a house block are mapped, and in service, as they were at its close. -/
theorem beforeSound_output (inp : BlockInputs) (s : State) (o : Fin 192) :
    ((beforeSound inp s).outputs.get o).place = ((atHouseBlock inp s).outputs.get o).place ∧
    ((beforeSound inp s).outputs.get o).sense = ((atHouseBlock inp s).outputs.get o).sense := by
  obtain ⟨-, -, -, closed⟩ := atHouseBlock_keeps inp s
  obtain ⟨-, counted⟩ := beforeSound_keeps inp s
  obtain ⟨e, -⟩ := counted o _ _ rfl rfl
  rw [e, closed o]
  exact ⟨rfl, rfl⟩

theorem runOutput_place (sel : Selected) (late : List Int) (comp level applied : Nat) (pilot : Bool) (x : Output) :
    (runOutput sel late comp level applied pilot x).output.place = x.place ∧
    (runOutput sel late comp level applied pilot x).output.sense = x.sense ∧
    (runOutput sel late comp level applied pilot x).output.trim = x.trim := by
  obtain ⟨_, _, _, _, _, _, e⟩ := runOutput_frame sel late comp level applied pilot x
  rw [e]
  exact ⟨rfl, rfl, rfl⟩

/-- An output's figures after a house block are those of its run. -/
theorem houseBlock_figures (inp : BlockInputs) (s : State) (o : Fin 192) :
    ((houseBlock inp s).outputs.get o).figures =
      (soundRan inp.periods (flagsRead inp s) (atHouseBlock inp s) (beforeSound inp s) o).output.figures := by
  rw [houseBlock_output]

theorem exec_houseBlock (inp : BlockInputs) (s : State) : exec (.houseBlock inp) s = .next (houseBlock inp s) := rfl

end Sys2Proof.Machine
end

section
/-! PROOF. Compensation and the net step (03 R61, 04 R76). -/

namespace Sys2Proof.Machine

/-! ### The compensation step -/

/-- A step c + 1 is in the count of compStep exactly when it is at most 20 log10(n / k), rounded to nearest. -/
theorem compStep_counts {n k : Nat} (hk : 0 < k) (hn : 0 < n) (c : Nat) :
    10 ^ (2 * c + 1) * k ^ 40 ≤ n ^ 40 ↔ ((c + 1 : Nat) : Int) ≤ ⌊20 * Real.logb 10 ((n : ℝ) / k) + 1 / 2⌋ := by
  have k_pos : (0 : ℝ) < (k : ℝ) ^ 40 := by positivity
  have ratio_pos : (0 : ℝ) < ((n : ℝ) / k) ^ 40 := by positivity
  calc 10 ^ (2 * c + 1) * k ^ 40 ≤ n ^ 40
      ↔ (10 : ℝ) ^ (2 * c + 1) * (k : ℝ) ^ 40 ≤ (n : ℝ) ^ 40 := by exact_mod_cast Iff.rfl
    _ ↔ (10 : ℝ) ^ ((2 * c + 1 : Nat) : ℝ) ≤ ((n : ℝ) / k) ^ 40 := by
        rw [div_pow, le_div_iff₀ k_pos, Real.rpow_natCast]
    _ ↔ ((2 * c + 1 : Nat) : ℝ) ≤ 40 * Real.logb 10 ((n : ℝ) / k) := by
        rw [← Real.le_logb_iff_rpow_le (by norm_num) ratio_pos, Real.logb_pow]
        norm_num
    _ ↔ ((c + 1 : Nat) : Int) ≤ ⌊20 * Real.logb 10 ((n : ℝ) / k) + 1 / 2⌋ := by
        rw [Int.le_floor]
        push_cast
        constructor <;> intro h <;> linarith

/-- The numbers below m that are below K are as many as the lesser of the two. -/
theorem length_filter_range_lt (m K : Nat) : ((List.range m).filter fun c => decide (c < K)).length = min m K := by
  induction m with
  | zero => rw [Nat.zero_min, List.range_zero, List.filter_nil, List.length_nil]
  | succ m ih =>
    rw [List.range_succ, List.filter_append, List.length_append, ih, List.filter_singleton]
    by_cases h : m < K
    · simp only [h, decide_true, cond_true, List.length_singleton]
      omega
    · simp only [h, decide_false, cond_false, List.length_nil]
      omega

theorem compStep_eq {n k : Nat} (hk : 0 < k) (hn : k < n) :
    (compStep n k : Int) = min 12 ⌊20 * Real.logb 10 ((n : ℝ) / k) + 1 / 2⌋ := by
  have pos : 0 < Real.logb 10 ((n : ℝ) / k) :=
    Real.logb_pos (by norm_num) ((one_lt_div (by exact_mod_cast hk)).2 (by exact_mod_cast hn))
  have floor_nonneg : 0 ≤ ⌊20 * Real.logb 10 ((n : ℝ) / k) + 1 / 2⌋ := Int.floor_nonneg.2 (by linarith)
  have counts := compStep_counts hk (Nat.zero_lt_of_lt hn)
  obtain ⟨K, hK⟩ := Int.eq_ofNat_of_zero_le floor_nonneg
  rw [hK] at counts ⊢
  have below : ∀ c, decide (10 ^ (2 * c + 1) * k ^ 40 ≤ n ^ 40) = decide (c < K) := fun c =>
    decide_eq_decide.2 ((counts c).trans (by rw [Int.ofNat_le]; exact Nat.succ_le_iff))
  rw [compStep, List.filter_congr fun c _ => below c, length_filter_range_lt]
  rw [Nat.cast_min]
  rfl

theorem compStep_le (n k : Nat) : compStep n k ≤ 12 :=
  (List.length_filter_le _ _).trans (List.length_range).le

/-! ### Roles -/

theorem Role.ofIx_ix (r : Role) : Role.ofIx r.ix = r := by cases r <;> rfl

theorem Role.ix_ofIx (i : Fin 12) : (Role.ofIx i).ix = i := by
  revert i
  decide

/-- The figures of a plan's role are those of the state it is made in. -/
theorem State.plan_role (s : State) (handed : Tab Audio 14) (n : Fin 12) (r : Role) :
    (s.plan handed n).figures.roles.get r.ix = s.roleFigures n r := by
  rw [State.plan_figures, State.routeFigures]
  dsimp only
  rw [Tab.get_ofFn, Role.ofIx_ix]

/-- The figures of a role go by the places and the health of the outputs. -/
theorem State.roleFigures_congr {s t : State}
    (h : ∀ o, (t.outputs.get o).place = (s.outputs.get o).place ∧ (t.outputs.get o).sense = (s.outputs.get o).sense)
    (n : Fin 12) (r : Role) : t.roleFigures n r = s.roleFigures n r := by
  have place := fun o => (h o).1
  have service : ∀ o, (t.outputs.get o).inService = (s.outputs.get o).inService := fun o => by
    rw [Output.inService, (h o).2, Output.inService]
  unfold State.roleFigures State.outputsIn
  simp only [place, service]

/-- The compensation of a role that lacks outputs in service: without one in service it has none either. -/
theorem State.roleFigures_comp {s : State} {o : Fin 192} {n : Fin 12} {r : Role}
    (place : (s.outputs.get o).place = some (n, r)) :
    (if (s.outputs.get o).inService = true then (s.roleFigures n r).comp else 0) =
      if (s.outputs.get o).sense.health.inService = true ∧ (s.roleFigures n r).inService < (s.roleFigures n r).mapped then
        compStep (s.roleFigures n r).mapped (s.roleFigures n r).inService
      else 0 := by
  by_cases works : (s.outputs.get o).inService = true
  · have counted : 0 < (s.roleFigures n r).inService :=
      List.length_pos_of_mem (List.mem_filter.2 ⟨List.mem_filter.2 ⟨List.mem_finRange o, decide_eq_true place⟩, works⟩)
    have comp : (s.roleFigures n r).comp =
        if (0 < (s.roleFigures n r).inService && (s.roleFigures n r).inService < (s.roleFigures n r).mapped) = true then
          compStep (s.roleFigures n r).mapped (s.roleFigures n r).inService
        else 0 := rfl
    rw [if_pos works, comp]
    refine if_congr ?_ rfl rfl
    rw [Bool.and_eq_true_iff, decide_eq_true_iff, decide_eq_true_iff]
    exact and_congr_left' (iff_of_true counted works)
  · rw [if_neg works, if_neg fun both => works both.1]

theorem State.roleFigures_comp_le (s : State) (n : Fin 12) (r : Role) : (s.roleFigures n r).comp ≤ 12 := by
  unfold State.roleFigures
  dsimp only
  split
  · exact compStep_le _ _
  · exact Nat.zero_le _

/-! ### The net step -/

theorem netStep_eq (x : Output) (kind : SourceKind) (comp level applied : Nat) :
    netStep x kind comp level applied = max (-255) (min 24 (netSum x kind comp level applied)) := by
  rw [netStep, clampInt_eq_max_min (by decide), min_comm]

theorem netSum_mapped {x : Output} {n : Fin 12} {r : Role} (place : x.place = some (n, r)) (kind : SourceKind)
    (comp level applied : Nat) : netSum x kind comp level applied =
      if kind = .paging then x.trim else x.trim + comp + ((level : Int) - 80) - applied := by
  cases kind <;> simp only [netSum, place, reduceCtorEq, if_true, if_false]

theorem netSum_unmapped {x : Output} (place : x.place = none) (kind : SourceKind) (comp level applied : Nat) :
    netSum x kind comp level applied = x.trim := by
  cases kind <;> simp only [netSum, place]

theorem mutes_iff (kind : SourceKind) (step : Int) (level : Nat) :
    mutes kind step level = true ↔ step = -255 ∨ level = 0 ∧ (kind = .program ∨ kind = .tone) := by
  unfold mutes
  rw [Bool.or_eq_true_iff, decide_eq_true_iff]
  cases kind <;> simp

/-- A path's clearing keeps the record that the net step goes by. -/
theorem netStep_cleared (x : Output) (kind : SourceKind) (comp level applied : Nat) :
    netStep x.clearPath kind comp level applied = netStep x kind comp level applied := by
  cases kind <;> rfl

/-- The figures of a run. -/
theorem runOutput_figures (sel : Selected) (late : List Int) (comp level applied : Nat) (pilot : Bool) (x : Output) :
    (runOutput sel late comp level applied pilot x).output.figures =
      { kind := sel.kind, reason := sel.reason, comp := comp
        step := if netStep x sel.kind comp level applied = -255 ∨ level = 0 ∧ (sel.kind = .program ∨ sel.kind = .tone) then none
          else some (netStep x sel.kind comp level applied)
        pilot := pilot } := by
  have same : netStep (if clearsPath sel.reason = true then x.clearPath else x) sel.kind comp level applied =
      netStep x sel.kind comp level applied := by
    split
    · exact netStep_cleared ..
    · rfl
  unfold runOutput
  dsimp only
  rw [same]
  exact congrArg (fun used => ({ kind := sel.kind, reason := sel.reason, comp, step := used, pilot } : OutputFigures))
    (if_congr (mutes_iff ..) rfl rfl)

/-- The net step of a run that is not muted. -/
theorem runOutput_step {sel : Selected} {late : List Int} {comp level applied : Nat} {pilot : Bool} {x : Output} {g : Int}
    (h : (runOutput sel late comp level applied pilot x).output.figures.step = some g) : -255 < g ∧ g ≤ 24 := by
  rw [runOutput_figures] at h
  dsimp only at h
  split at h
  · cases h
  · next loud =>
    cases h
    have away : netStep x sel.kind comp level applied ≠ -255 := fun e => loud (.inl e)
    rw [netStep_eq] at away ⊢
    omega

/-- An output after a house block stands where it stood, and works as it worked, when the sound began. -/
theorem houseBlock_mapped (inp : BlockInputs) (s : State) (o : Fin 192) :
    ((houseBlock inp s).outputs.get o).place = ((beforeSound inp s).outputs.get o).place ∧
    ((houseBlock inp s).outputs.get o).sense = ((beforeSound inp s).outputs.get o).sense ∧
    ((houseBlock inp s).outputs.get o).trim = ((beforeSound inp s).outputs.get o).trim := by
  obtain ⟨_, _, _, _, run⟩ :=
    soundRan_runs inp.periods (flagsRead inp s) (atHouseBlock inp s) (beforeSound inp s) o
  rw [houseBlock_output, run]
  dsimp only
  exact runOutput_place ..

end Sys2Proof.Machine

open Sys2Proof Sys2Proof.Machine

/-- Settles O33: the count of compStep is the rounded logarithm, and an output's figures are those of its run. -/
theorem compensationAndNetStep : Obligations.CompensationAndNetStep := by
  unfold Obligations.CompensationAndNetStep
  refine ⟨fun n k hk hn => compStep_eq hk hn, compStep_le, by decide +kernel, fun inp s => ⟨_, exec_houseBlock inp s, ?_⟩⟩
  rintro u a rfl rfl o
  obtain ⟨place, sense, trim⟩ := houseBlock_mapped inp s o
  have figures := houseBlock_figures inp s o
  have roles : ∀ n r, (houseBlock inp s).roleFigures n r = (atHouseBlock inp s).roleFigures n r :=
    State.roleFigures_congr fun o => ⟨(houseBlock_mapped inp s o).1.trans (beforeSound_output inp s o).1,
      (houseBlock_mapped inp s o).2.1.trans (beforeSound_output inp s o).2⟩
  obtain ⟨_, _, _, _, run⟩ :=
    soundRan_runs inp.periods (flagsRead inp s) (atHouseBlock inp s) (beforeSound inp s) o
  have step : ∀ g, ((houseBlock inp s).outputs.get o).figures.step = some g → -255 < g ∧ g ≤ 24 := fun g hg =>
    runOutput_step (by rw [← run, ← figures]; exact hg)
  clear run
  rw [place, sense, trim]
  generalize ((houseBlock inp s).outputs.get o).figures = f at figures step
  cases here : ((beforeSound inp s).outputs.get o).place with
  | none =>
    rw [soundRan_unmapped here, runOutput_figures] at figures
    have kind : (soundSelected (flagsRead inp s) (atHouseBlock inp s) (beforeSound inp s) o).kind = .silence := by
      rw [soundSelected, State.select_unmapped here]
      rfl
    rw [kind, netStep_eq, netSum_unmapped here] at figures
    subst figures
    refine ⟨Nat.zero_le _, step, fun _ => ⟨rfl, if_congr ?_ rfl rfl⟩, fun _ _ e => by cases e⟩
    simp only [reduceCtorEq, or_self, and_false, or_false]
  | some p =>
    obtain ⟨n, r⟩ := p
    have mapped := (beforeSound_output inp s o).1.symm.trans here
    have inService : ((beforeSound inp s).outputs.get o).inService = ((atHouseBlock inp s).outputs.get o).inService := by
      rw [Output.inService, (beforeSound_output inp s o).2, Output.inService]
    have comp := State.roleFigures_comp mapped
    have applied : (((overScreens raiseBase (beforeSound inp s)).applied n : Nat) : Int) =
        ((afterSound inp s).attenuations.get n).current + ((afterSound inp s).screens.get n).fadeAtt :=
      (congrArg Nat.cast (runSound_applied n).symm).trans (Nat.cast_add _ _)
    rw [soundRan_mapped here, runOutput_figures, soundPlan_get, State.plan_role, netStep_eq, netSum_mapped here, applied,
      inService] at figures
    subst figures
    refine ⟨?_, step, (fun e => by cases e), ?_⟩
    · dsimp only
      split
      · exact State.roleFigures_comp_le _ _ _
      · exact Nat.zero_le _
    · rintro _ _ ⟨⟩
      rw [roles, (beforeSound_output inp s o).2]
      exact ⟨comp, rfl⟩
end

section
/-! PROOF. Source selection (03 R56 to R65). -/

namespace Sys2Proof.Machine

/-! ### Selection, case by case -/

section
variable {u : State} {plan : Tab Plan 12} {tone : List Int} {flag : Bool} {x : Output} {n : Fin 12} {r : Role}

theorem State.onRoute_iff : u.onRoute n = true ↔ u.evac = true ∧ (u.screens.get n).state ≠ .offline := by
  rw [State.onRoute, Bool.and_eq_true_iff, decide_eq_true_iff]

theorem select_out (place : x.place = some (n, r)) (out : x.inService = false) :
    u.select plan tone flag x = .silence .outOfService := by
  simp only [State.select, place, out, Bool.not_false, if_true]

theorem select_route (place : x.place = some (n, r)) (works : x.inService = true) (route : u.onRoute n = true) :
    u.select plan tone flag x =
      if (plan.get n).figures.pagingRoles.contains r = true then
        { kind := .paging, reason := none, samples := (plan.get n).paging }
      else .silence .evacOther := by
  simp only [State.select, place, works, route, Bool.not_true, Bool.false_eq_true, if_false, if_true]

/-- The program of a screen that shows, or why it is silent. -/
def State.programSelected (u : State) (plan : Tab Plan 12) (n : Fin 12) (r : Role) : Selected :=
  if (u.grants.get n).status = .suspended then .silence .suspended
  else if (u.lanes.get (programLane n)).delivering = false then .silence .lane
  else { kind := .program, reason := none, samples := (plan.get n).program.feeds.get r.ix }

/-- The tone of a screen that is calibrated, or why it is silent. -/
def State.toneSelected (u : State) (tone : List Int) (flag : Bool) (n : Fin 12) : Selected :=
  if (u.grants.get n).status = .suspended then .silence .suspended
  else if flag = true then { kind := .tone, reason := none, samples := tone }
  else .silence .noTone

theorem select_state (place : x.place = some (n, r)) (works : x.inService = true) (route : u.onRoute n = false) :
    u.select plan tone flag x =
      match (u.screens.get n).state with
      | .show => u.programSelected plan n r
      | .ending => u.programSelected plan n r
      | .paused => .silence .paused
      | .calibrating => u.toneSelected tone flag n
      | .offline => .silence .noProgram
      | .dark => .silence .noProgram
      | .armed => .silence .noProgram
      | .evacuated => .silence .noProgram := by
  simp only [State.select, place, works, route, Bool.not_true, Bool.false_eq_true, if_false, State.programSelected,
    State.toneSelected, decide_eq_true_eq, Bool.not_eq_true'] <;> rfl

end

theorem State.programSelected_cases (u : State) (plan : Tab Plan 12) (n : Fin 12) (r : Role) :
    ((u.grants.get n).status = .suspended →
      (u.programSelected plan n r).kind = .silence ∧ (u.programSelected plan n r).reason = some .suspended) ∧
    ((u.grants.get n).status ≠ .suspended → (u.lanes.get (programLane n)).delivering = false →
      (u.programSelected plan n r).kind = .silence ∧ (u.programSelected plan n r).reason = some .lane) ∧
    ((u.grants.get n).status ≠ .suspended → (u.lanes.get (programLane n)).delivering = true →
      (u.programSelected plan n r).kind = .program) := by
  unfold State.programSelected
  refine ⟨fun suspended => ?_, fun granted out => ?_, fun granted delivers => ?_⟩
  · rw [if_pos suspended]
    exact ⟨rfl, rfl⟩
  · rw [if_neg granted, if_pos out]
    exact ⟨rfl, rfl⟩
  · rw [if_neg granted, if_neg (by rw [delivers]; exact Bool.noConfusion)]

theorem State.toneSelected_cases (u : State) (tone : List Int) (flag : Bool) (n : Fin 12) :
    ((u.grants.get n).status = .suspended →
      (u.toneSelected tone flag n).kind = .silence ∧ (u.toneSelected tone flag n).reason = some .suspended) ∧
    ((u.grants.get n).status ≠ .suspended → flag = true → (u.toneSelected tone flag n).kind = .tone) ∧
    ((u.grants.get n).status ≠ .suspended → flag = false →
      (u.toneSelected tone flag n).kind = .silence ∧ (u.toneSelected tone flag n).reason = some .noTone) := by
  unfold State.toneSelected
  refine ⟨fun suspended => ?_, fun granted on => ?_, fun granted off => ?_⟩
  · rw [if_pos suspended]
    exact ⟨rfl, rfl⟩
  · rw [if_neg granted, if_pos on]
  · rw [if_neg granted, if_neg (by rw [off]; exact Bool.noConfusion)]
    exact ⟨rfl, rfl⟩

/-- The samples of a selection on screen n and role r are those of its kind; program is carried where the screen plays. -/
def Selected.rightly (sel : Selected) (u : State) (plan : Tab Plan 12) (tone : List Int) (x : Output) (n : Fin 12) (r : Role) :
    Prop :=
  (sel.kind = .silence → sel.samples = List.replicate 48 0) ∧ (sel.kind = .tone → sel.samples = tone) ∧
  (sel.kind = .paging → sel.samples = (plan.get n).paging) ∧
  (sel.kind = .program → x.inService = true ∧ u.playsProgram n = true ∧
    sel.samples = (plan.get n).program.feeds.get r.ix)

section
variable {u : State} {plan : Tab Plan 12} {tone : List Int} {flag : Bool} {x : Output} {n : Fin 12} {r : Role}

theorem Selected.rightly_silence (why : SilenceReason) : (Selected.silence why).rightly u plan tone x n r :=
  ⟨fun _ => rfl, nofun, nofun, nofun⟩

theorem State.programSelected_rightly (works : x.inService = true) (route : u.onRoute n = false)
    (plays : (u.screens.get n).state = .show ∨ (u.screens.get n).state = .ending) :
    (u.programSelected plan n r).rightly u plan tone x n r := by
  unfold State.programSelected
  split
  · exact Selected.rightly_silence _
  · next granted =>
    split
    · exact Selected.rightly_silence _
    · next delivers =>
      have playing : u.playsProgram n = true := by
        rcases plays with e | e <;> simp [State.playsProgram, e, granted, delivers, route]
      exact ⟨nofun, nofun, nofun, fun _ => ⟨works, playing, rfl⟩⟩

theorem State.toneSelected_rightly : (u.toneSelected tone flag n).rightly u plan tone x n r := by
  unfold State.toneSelected
  split
  · exact Selected.rightly_silence _
  · split
    · exact ⟨nofun, fun _ => rfl, nofun, nofun⟩
    · exact Selected.rightly_silence _

theorem select_rightly (place : x.place = some (n, r)) : (u.select plan tone flag x).rightly u plan tone x n r := by
  cases works : x.inService with
  | false =>
    rw [select_out place works]
    exact Selected.rightly_silence _
  | true =>
    cases route : u.onRoute n with
    | true =>
      rw [select_route place works route]
      split
      · exact ⟨nofun, nofun, fun _ => rfl, nofun⟩
      · exact Selected.rightly_silence _
    | false =>
      rw [select_state place works route]
      have program := State.programSelected_rightly (plan := plan) (tone := tone) (r := r) works route
      cases state : (u.screens.get n).state with
      | ending => exact program (.inr state)
      | calibrating => exact State.toneSelected_rightly
      | offline | dark | armed | paused | evacuated => exact Selected.rightly_silence _
      | _ => exact program (.inl state)

end

/-! ### Roles in service, and the roles that carry paging -/

section
variable {u : State} {n : Fin 12} {r : Role}

theorem mem_outputsIn {o : Fin 192} : o ∈ u.outputsIn n r ↔ (u.outputs.get o).place = some (n, r) := by
  rw [State.outputsIn, List.mem_filter, decide_eq_true_iff]
  exact and_iff_right (List.mem_finRange o)

theorem roleFigures_works : 0 < (u.roleFigures n r).inService ↔
    ∃ o, (u.outputs.get o).place = some (n, r) ∧ (u.outputs.get o).inService = true := by
  have figure : (u.roleFigures n r).inService = ((u.outputsIn n r).filter fun o => (u.outputs.get o).inService).length := rfl
  rw [figure, List.length_pos_iff_exists_mem]
  exact exists_congr fun o => List.mem_filter.trans (and_congr_left' mem_outputsIn)

theorem roleFigures_service : ((u.roleFigures n r).service = .unmapped ↔ (u.roleFigures n r).mapped = 0) ∧
    ((u.roleFigures n r).service = .inService ↔ 0 < (u.roleFigures n r).inService) ∧
    ((u.roleFigures n r).service = .out ↔ 0 < (u.roleFigures n r).mapped ∧ (u.roleFigures n r).inService = 0) := by
  have few : (u.roleFigures n r).inService ≤ (u.roleFigures n r).mapped := List.length_filter_le _ _
  have service : (u.roleFigures n r).service =
      if (u.roleFigures n r).mapped = 0 then .unmapped else if (u.roleFigures n r).inService = 0 then .out else .inService := rfl
  rw [service]
  split
  · next unmapped =>
    have idle : (u.roleFigures n r).inService = 0 := Nat.le_zero.1 (unmapped ▸ few)
    simp [unmapped, idle]
  · split
    · next mapped idle => simp [mapped, idle, Nat.pos_of_ne_zero mapped]
    · next mapped works => simp [mapped, works, Nat.pos_of_ne_zero works]

/-- The roles that carry paging on a screen on the route. -/
theorem mem_pagingRoles (works : 0 < (u.roleFigures n r).inService) (handed : Tab Audio 14) (route : u.onRoute n = true) :
    (u.plan handed n).figures.pagingRoles.contains r = true ↔
      r = .c ∨ (r = .l ∨ r = .r) ∧ ∀ o, (u.outputs.get o).place = some (n, .c) → (u.outputs.get o).inService = false := by
  have roles : (u.plan handed n).figures.pagingRoles = pagingRoles (u.plan handed n).figures.roles := if_pos route
  have center : (∀ o, (u.outputs.get o).place = some (n, .c) → (u.outputs.get o).inService = false) ↔
      ¬0 < (u.roleFigures n .c).inService := by
    rw [roleFigures_works, not_exists]
    exact forall_congr' fun o => by rw [not_and, Bool.not_eq_true]
  rw [roles, pagingRoles, State.plan_role, center, List.contains_iff_mem]
  split
  · next centered => simp only [List.mem_singleton, centered, not_true_eq_false, and_false, or_false]
  · next absent =>
    have away : r ≠ .c := fun e => absent (e ▸ works)
    rw [List.mem_filter, State.plan_role, decide_eq_true_iff, List.mem_cons, List.mem_singleton]
    simp only [away, absent, works, and_true, false_or, not_false_eq_true]

end

/-! ### Feeds and folds -/

theorem mem_foldsInto (roles : Tab RoleFigures 12) (r x : Role) (g : Int) :
    (x, g) ∈ foldsInto roles r ↔ (roles.get x.ix).service = .out ∧ (r, g) ∈ foldTargets x := by
  have every : ∀ y : Role, y ∈ Role.all := fun y => by cases y <;> decide
  rw [foldsInto, List.mem_flatMap]
  constructor
  · rintro ⟨y, -, h⟩
    split at h
    · next out =>
      obtain ⟨⟨z, _⟩, hz, e⟩ := List.mem_map.1 h
      obtain ⟨rfl, rfl⟩ := Prod.mk.inj e
      obtain ⟨member, target⟩ := List.mem_filter.1 hz
      have same : z = r := of_decide_eq_true target
      exact ⟨out, same ▸ member⟩
    · cases h
  · rintro ⟨out, member⟩
    refine ⟨x, every x, ?_⟩
    rw [if_pos out]
    exact List.mem_map.2 ⟨(r, g), List.mem_filter.2 ⟨member, decide_eq_true rfl⟩, rfl⟩

theorem foldsInto_nodup (roles : Tab RoleFigures 12) (r : Role) : (foldsInto roles r).Nodup := by
  have targets : ∀ x, (foldTargets x).Nodup := fun x => by cases x <;> decide
  have pair : ∀ {x : Role} {a : Role × Int}, a ∈ (if (roles.get x.ix).service = .out then
      ((foldTargets x).filter fun y => decide (y.1 = r)).map fun y => (x, y.2) else []) → a.1 = x := by
    intro x a h
    split at h
    · obtain ⟨_, _, e⟩ := List.mem_map.1 h
      rw [← e]
    · cases h
  rw [foldsInto, List.nodup_flatMap]
  refine ⟨fun x _ => ?_, ?_⟩
  · split
    · refine ((targets x).filter _).map_on fun a ha b hb e => Prod.ext ?_ (Prod.mk.inj e).2
      have left : a.1 = r := of_decide_eq_true (List.mem_filter.1 ha).2
      have right : b.1 = r := of_decide_eq_true (List.mem_filter.1 hb).2
      exact left.trans right.symm
    · exact List.nodup_nil
  · have all : Role.all.Nodup := by decide
    refine all.imp_of_mem fun _ _ apart => ?_
    exact fun a ha hb => apart ((pair ha).symm.trans (pair hb))

/-- The sum of the folding feeds, sample by sample. -/
theorem foldl_zipWith_getD {unfolded : Tab (List Int) 12} {folds : List (Role × Int)} {k : Nat}
    (h : ∀ y ∈ folds, (unfolded.get y.1.ix).length = k) {acc : List Int} (ha : acc.length = k) :
    (folds.foldl (fun acc x => List.zipWith (fun a v => a + v * (gainFactor x.2 : Int)) acc (unfolded.get x.1.ix)) acc).length = k ∧
    ∀ j, j < k →
      (folds.foldl (fun acc x => List.zipWith (fun a v => a + v * (gainFactor x.2 : Int)) acc (unfolded.get x.1.ix)) acc).getD j 0 =
        acc.getD j 0 + (folds.map fun y => (unfolded.get y.1.ix).getD j 0 * (gainFactor y.2 : Int)).sum := by
  induction folds generalizing acc with
  | nil => exact ⟨ha, fun j _ => (Int.add_zero _).symm⟩
  | cons y rest ih =>
    have long := h y List.mem_cons_self
    have next : (List.zipWith (fun a v => a + v * (gainFactor y.2 : Int)) acc (unfolded.get y.1.ix)).length = k := by
      rw [List.length_zipWith, ha, long, Nat.min_self]
    obtain ⟨length, sums⟩ := ih (fun z hz => h z (List.mem_cons_of_mem y hz)) next
    refine ⟨length, fun j hj => ?_⟩
    rw [List.foldl_cons, sums j hj, List.map_cons, List.sum_cons, ← Int.add_assoc,
      List.getD_eq_getElem _ _ (next ▸ hj), List.getElem_zipWith, List.getD_eq_getElem _ _ (ha ▸ hj),
      List.getD_eq_getElem _ _ (long ▸ hj)]

theorem foldExact_getD {unfolded : Tab (List Int) 12} {folds : List (Role × Int)} {r : Role} {k : Nat}
    (hr : (unfolded.get r.ix).length = k) (h : ∀ y ∈ folds, (unfolded.get y.1.ix).length = k) :
    (foldExact unfolded folds r).length = k ∧
    ∀ j, j < k → (foldExact unfolded folds r).getD j 0 = (unfolded.get r.ix).getD j 0 +
      roundShift ((folds.map fun y => (unfolded.get y.1.ix).getD j 0 * (gainFactor y.2 : Int)).sum) 20 := by
  have start : ((unfolded.get r.ix).map fun _ => (0 : Int)).length = k := (List.length_map _).trans hr
  obtain ⟨length, sums⟩ := foldl_zipWith_getD h start
  unfold foldExact
  dsimp only
  split
  · next none_ =>
    rw [List.isEmpty_iff.1 none_]
    exact ⟨hr, fun j _ => (Int.add_zero _).symm⟩
  · have sum : (foldSum unfolded folds (unfolded.get r.ix)).length = k := length
    refine ⟨by rw [List.length_zipWith, hr, sum, Nat.min_self], fun j hj => ?_⟩
    have at_j : (foldSum unfolded folds (unfolded.get r.ix)).getD j 0 = _ := sums j hj
    have zero : ((unfolded.get r.ix).map fun _ => (0 : Int)).getD j 0 = 0 := by
      rw [List.getD_eq_getElem _ _ (start ▸ hj), List.getElem_map]
    rw [List.getD_eq_getElem _ _ (by rw [List.length_zipWith, hr, sum, Nat.min_self]; exact hj), List.getElem_zipWith,
      ← List.getD_eq_getElem (d := 0), ← List.getD_eq_getElem (d := 0), at_j, zero, Int.zero_add]

/-- The feeds of a screen that makes its program: from the sources of the layout, folded, saturated. -/
theorem makeFeeds_get {layout : Layout} {roles : Tab RoleFigures 12} {a : Audio} {unfolded : Tab (List Int) 12}
    (h : ∀ x : Role, unfolded.get x.ix = if (roles.get x.ix).mapped = 0 then []
      else (sourceFeed ((layout.map fun y => y.get x.ix).getD .none) a).map sat24) (r : Role)
    (works : (roles.get r.ix).service = .inService) :
    (makeFeeds layout roles a).feeds.get r.ix = (foldExact unfolded (foldsInto roles r) r).map sat24 := by
  have same : unfolded = (Tab.ofFn fun i =>
      if (roles.get i).mapped = 0 then [] else sourceFeed (sourceOf layout i) a).map fun xs => xs.map sat24 := by
    refine Tab.ext_get fun i => ?_
    rw [Tab.get_map, Tab.get_ofFn, ← Role.ix_ofIx i, h]
    split
    · rfl
    · cases layout <;> rfl
  unfold makeFeeds
  dsimp only
  rw [Tab.get_map, Tab.get_ofFn, if_pos works, Role.ofIx_ix, same]

/-- The program of a screen that plays, with outputs in service. -/
theorem State.plan_program {u : State} {handed : Tab Audio 14} {n : Fin 12} {r : Role} (plays : u.playsProgram n = true)
    (works : 0 < (u.roleFigures n r).inService) : (u.plan handed n).program =
      makeFeeds (u.layoutRecord (u.layoutInUse n)) (.ofFn fun i => u.roleFigures n (Role.ofIx i)) (handed.get (programLane n)) := by
  have some_ : ((u.routeFigures n).roles.items.any fun r => decide (0 < r.inService)) = true := by
    rw [List.any_eq_true]
    refine ⟨u.roleFigures n r, ?_, decide_eq_true works⟩
    rw [Tab.items_eq, List.mem_map]
    exact ⟨r.ix, List.mem_finRange _, State.plan_role u handed n r⟩
  unfold State.plan
  dsimp only
  rw [plays, some_]
  rfl

/-! ### A silent path -/

theorem runSection_silent (c : Section) (k : Nat) :
    runSection c History.zero (List.replicate k 0) = (List.replicate k 0, History.zero, 0) := by
  have zero : sectionExact c History.zero 0 = 0 := by
    simp only [sectionExact, History.zero, Int.mul_zero, Int.add_zero, Int.sub_zero, Int.zero_add]
    decide
  induction k with
  | zero => rfl
  | succ k ih =>
    rw [List.replicate_succ, runSection, zero, show sat24 0 = 0 from rfl, show History.zero.shift 0 0 = History.zero from rfl, ih]
    rfl

theorem runSections_silent (sections : List PathSection) (k : Nat) :
    (runSections (sections.map fun p => { p with hist := History.zero }) (List.replicate k 0)).1 = List.replicate k 0 := by
  induction sections with
  | nil => rfl
  | cons p rest ih =>
    rw [List.map_cons, runSections]
    dsimp only
    rw [runSection_silent]
    exact ih

/-- A cleared path passes silence. -/
theorem runPath_silent (step : Option Int) (k : Nat) (x : Output) :
    (x.clearPath.runPath step (List.replicate k 0)).taps = List.replicate k 0 := by
  have polar : (List.replicate k 0).map (polarity x.inverted) = List.replicate k 0 := by
    rw [List.map_replicate]
    cases x.inverted <;> rfl
  have line : (x.line.map fun _ => (0 : Int)) ++ List.replicate k 0 = List.replicate (x.line.length + k) 0 := by
    rw [List.map_const', List.replicate_append_replicate]
  have delayed : (runDelay (x.line.map fun _ => (0 : Int)) (List.replicate k 0)).1 = List.replicate k 0 := by
    rw [runDelay, line, List.length_replicate, List.take_replicate, Nat.min_eq_left (Nat.le_add_left _ _)]
  have quiet : ∀ f : Nat, sat24 (scaled 0 f) = 0 := fun f => by
    rw [scaled, Int.zero_mul]
    rfl
  unfold Output.runPath Output.clearPath
  dsimp only
  rw [polar, runSections_silent, delayed]
  cases step with
  | none => exact List.map_replicate
  | some g =>
    rw [runGain_some]
    exact List.map_replicate.trans (by rw [quiet])

/-- An unmapped output drives zeros. -/
theorem runOutput_unmapped (late : List Int) (comp level applied : Nat) (x : Output) (h : ∀ y ∈ late, y = 0) :
    (runOutput (.silence .unmapped) late comp level applied false x).output.drive = List.replicate 48 0 := by
  have zeros : (Selected.silence .unmapped).samples ++ late = List.replicate (48 + late.length) 0 := by
    rw [List.eq_replicate_of_mem h, List.length_replicate, List.replicate_add]
    rfl
  unfold runOutput
  dsimp only
  rw [if_pos (show clearsPath (Selected.silence .unmapped).reason = true from rfl), zeros, runPath_silent]
  exact List.take_replicate.trans (congrArg (List.replicate · 0) (Nat.min_eq_left (Nat.le_add_right 48 _)))

end Sys2Proof.Machine

open Sys2Proof Sys2Proof.Machine

/-- Settles O32: the cases of selection, and the feeds of a plan. -/
theorem sourceSelection : Obligations.SourceSelection := by
  unfold Obligations.SourceSelection
  refine ⟨fun inp s => ⟨_, exec_houseBlock inp s, ?_⟩, fun u handed plan tone flag o sel hplan hsel => ?_, fun u n => ?_,
    fun u n x outs houts => ?_, fun _ => rfl, fun _ _ => rfl, mem_foldsInto, foldsInto_nodup, by decide, rfl,
    fun unfolded folds r k hr h => foldExact_getD hr h, fun _ => rfl⟩
  · rintro u rfl o
    have stands := (houseBlock_mapped inp s o).1
    have figures := houseBlock_figures inp s o
    obtain ⟨place, sense⟩ := beforeSound_output inp s o
    obtain ⟨_, _, _, _, run⟩ :=
      soundRan_runs inp.periods (flagsRead inp s) (atHouseBlock inp s) (beforeSound inp s) o
    rw [run, runOutput_figures] at figures
    have works : ((beforeSound inp s).outputs.get o).inService = ((atHouseBlock inp s).outputs.get o).sense.health.inService := by
      rw [Output.inService, sense]
    refine ⟨stands.trans place, fun unmapped => ?_, fun first => ?_, fun later => ?_, fun n r here => ?_⟩
    · have away := place.trans unmapped
      have silent : soundSelected (flagsRead inp s) (atHouseBlock inp s) (beforeSound inp s) o = .silence .unmapped :=
        State.select_unmapped away
      have drive : ((houseBlock inp s).outputs.get o).drive = List.replicate 48 0 := by
        rw [houseBlock_output, soundRan_unmapped away, silent]
        exact runOutput_unmapped _ _ _ _ _ fun y hy => by
          obtain ⟨_, _, e⟩ := List.mem_map.1 hy
          exact e.symm
      rw [figures, silent]
      exact ⟨rfl, rfl, drive⟩
    · rw [flagsRead, if_pos first]
      exact Tab.get_map ..
    · rw [flagsRead, if_neg (by rw [later]; exact Bool.false_ne_true)]
      exact Tab.get_map ..
    · have mapped := place.trans here
      rw [figures]
      dsimp only
      unfold soundSelected
      have paged := fun h => mem_pagingRoles (u := atHouseBlock inp s) (n := n) (r := r) h
        ((beforeSound inp s).lanes.map Lane.handed)
      generalize (flagsRead inp s).get o = flag
      rw [← soundPlan_get] at paged
      generalize soundPlan (atHouseBlock inp s) (beforeSound inp s) = plan at paged ⊢
      generalize soundTone (beforeSound inp s) = tone
      rw [← works]
      have serve := fun w => roleFigures_works.2 ⟨o, here, works.symm.trans w⟩
      generalize (beforeSound inp s).outputs.get o = x at mapped serve
      generalize atHouseBlock inp s = u at paged serve
      refine ⟨fun out => ?_, fun serves evac online => ?_, fun serves away => ?_⟩
      · rw [select_out mapped out]
        exact ⟨rfl, rfl⟩
      · have route := State.onRoute_iff.2 ⟨evac, online⟩
        have carries := paged (serve serves) route
        rw [select_route mapped serves route]
        split
        · next yes => exact ⟨.inl rfl, iff_of_true rfl (carries.1 yes)⟩
        · next no => exact ⟨.inr ⟨rfl, rfl⟩, iff_of_false nofun fun h => no (carries.2 h)⟩
      · have route : u.onRoute n = false := Bool.eq_false_iff.2 fun on => by
          obtain ⟨evac, online⟩ := State.onRoute_iff.1 on
          exact away.elim (fun e => Bool.false_ne_true (e.symm.trans evac)) online
        rw [select_state mapped serves route]
        refine ⟨fun quiet => ?_, fun state => ?_, fun playing => ?_, fun state => ?_⟩
        · rcases quiet with state | state | state | state <;> rw [state] <;> exact ⟨rfl, rfl⟩
        · rw [state]
          exact ⟨rfl, rfl⟩
        · rcases playing with state | state <;> rw [state] <;> exact u.programSelected_cases plan n r
        · rw [state]
          exact u.toneSelected_cases tone flag n
  · subst hsel
    refine ⟨?_, ?_, fun unmapped => by rw [State.select_unmapped unmapped]; rfl, fun n r place => ?_⟩
    · cases place : (u.outputs.get o).place with
      | none => rw [State.select_unmapped place]; exact fun _ => rfl
      | some p => exact (select_rightly place).1
    · cases place : (u.outputs.get o).place with
      | none => rw [State.select_unmapped place]; exact nofun
      | some p => exact (select_rightly place).2.1
    · obtain ⟨-, -, paging, program⟩ := select_rightly (u := u) (plan := plan) (tone := tone) (flag := flag) place
      refine ⟨paging, fun record unfolded kind hrecord feeds => ?_⟩
      obtain ⟨works, plays, samples⟩ := program kind
      have served := roleFigures_works.2 ⟨o, place, works⟩
      subst hrecord
      rw [samples, hplan, State.plan_program plays served]
      exact makeFeeds_get (fun x => by rw [feeds, Tab.get_ofFn, Role.ofIx_ix]) r
        (by rw [Tab.get_ofFn, Role.ofIx_ix]; exact roleFigures_service.2.1.2 served)
  · refine ⟨fun c lane held => ?_, fun default_ => ?_, fun code => ?_⟩
    · simp only [State.layoutInUse, lane, held]
    · unfold State.layoutInUse
      split
      · next lane held => simp [lane, held] at default_
      · rfl
    · by_cases h : code < 16
      · simp only [State.layoutRecord, ident0, h, dite_true]
      · simp only [State.layoutRecord, ident0, h, dite_false]
  · subst houts
    exact ⟨fun o => mem_outputsIn, (List.nodup_finRange 192).filter _, rfl, rfl, roleFigures_service⟩
end

section
/-! PROOF. The path of an output over a block, and the clips of a screen (04 R73 to R82, 05 R91, R101, 07 R125, R126). -/

namespace Sys2Proof.Machine

/-! ### One output's run -/

theorem sat24_eq (x : Int) : sat24 x = max (-8388608) (min x 8388607) := by
  unfold sat24
  split_ifs <;> omega

theorem saturates_iff (x : Int) : saturates x = true ↔ sat24 x ≠ x := by
  rw [sat24_eq, saturates, Bool.or_eq_true_iff, decide_eq_true_iff, decide_eq_true_iff]
  omega

theorem toNat_eq_ite (b : Bool) : b.toNat = if b = true then 1 else 0 := by cases b <;> rfl

theorem runDelay_append (line xs : List Int) : (runDelay line xs).1 ++ (runDelay line xs).2 = line ++ xs :=
  List.take_append_drop ..

theorem clearsPath_iff (why : Option SilenceReason) : clearsPath why = true ↔
    why = some .unmapped ∨ why = some .outOfService ∨ why = some .suspended := by
  cases why with
  | none => simp [clearsPath]
  | some w => cases w <;> simp [clearsPath]

/-- The tap samples of a path and the clips of its gain stage. -/
theorem runGain_eq (step : Option Int) (xs : List Int) :
    (runGain step xs).1 = (match step with
      | some g => xs.map fun y => sat24 (scaled y (gainFactor g))
      | none => xs.map fun _ => 0) ∧
    (runGain step xs).2 = (match step with
      | some g => (xs.filter fun y => saturates (scaled y (gainFactor g))).length
      | none => 0) := by
  cases step with
  | none => exact ⟨rfl, rfl⟩
  | some g =>
    rw [runGain_some]
    exact ⟨rfl, rfl⟩

/-- The output whose path a run goes through: cleared first, where its silence asks for it. -/
def clearedFor (sel : Selected) (x : Output) : Output := if clearsPath sel.reason = true then x.clearPath else x

theorem clearedFor_kept (sel : Selected) (x : Output) : (clearedFor sel x).inverted = x.inverted ∧
    (clearedFor sel x).running = x.running ∧ (clearedFor sel x).screen = x.screen := by
  unfold clearedFor
  split <;> exact ⟨rfl, rfl, rfl⟩

/-- A run in its parts. -/
theorem runOutput_parts (sel : Selected) (late : List Int) (comp level applied : Nat) (pilot : Bool) (x : Output) :
    ∃ used r, r = (clearedFor sel x).runPath used (sel.samples ++ late) ∧
      runOutput sel late comp level applied pilot x =
        { output :=
            { clearedFor sel x with
              path := r.path, line := r.line, running := x.running + blockEnergy (r.taps.take sel.samples.length)
              blockScreen := x.screen, drive := (driveOf pilot r.taps).take sel.samples.length
              late := (driveOf pilot r.taps).drop sel.samples.length
              figures := { kind := sel.kind, reason := sel.reason, comp, step := used, pilot } }
          clips := r.clips, muted := used.isNone } := by
  obtain ⟨-, running, screen⟩ := clearedFor_kept sel x
  refine ⟨if mutes sel.kind (netStep (clearedFor sel x) sel.kind comp level applied) level then none
    else some (netStep (clearedFor sel x) sel.kind comp level applied), _, rfl, ?_⟩
  rw [← running, ← screen]
  rfl

/-! ### The clips of a screen's plan -/

section
variable {u : State} {n : Fin 12}

theorem State.playsProgram_iff : u.playsProgram n = true ↔
    ((u.screens.get n).state = .show ∨ (u.screens.get n).state = .ending) ∧ u.evac = false ∧
      (u.grants.get n).status ≠ .suspended ∧ (u.lanes.get (programLane n)).delivering = true := by
  unfold State.playsProgram State.onRoute
  cases (u.screens.get n).state <;> simp <;> tauto

theorem Output.screen_eq_some {x : Output} : x.screen = some n ↔ ∃ r, x.place = some (n, r) := by
  rw [Output.screen, Option.map_eq_some_iff]
  constructor
  · rintro ⟨⟨_, r⟩, place, rfl⟩
    exact ⟨r, place⟩
  · rintro ⟨r, place⟩
    exact ⟨(n, r), place, rfl⟩

/-- Some output of a screen is in service exactly when some role has one in service. -/
theorem anyRole_works : ((u.routeFigures n).roles.items.any fun r => decide (0 < r.inService)) = true ↔
    ∃ o, (u.outputs.get o).screen = some n ∧ (u.outputs.get o).sense.health.inService = true := by
  have role : ∀ x, (u.routeFigures n).roles.get x = u.roleFigures n (Role.ofIx x) := fun x => Tab.get_ofFn ..
  rw [List.any_eq_true]
  constructor
  · rintro ⟨f, member, works⟩
    rw [Tab.items_eq, List.mem_map] at member
    obtain ⟨i, -, rfl⟩ := member
    rw [role] at works
    obtain ⟨o, place, serves⟩ := roleFigures_works.1 (of_decide_eq_true works)
    exact ⟨o, Output.screen_eq_some.2 ⟨_, place⟩, serves⟩
  · rintro ⟨o, screen, serves⟩
    obtain ⟨r, place⟩ := Output.screen_eq_some.1 screen
    refine ⟨u.roleFigures n r, ?_, decide_eq_true (roleFigures_works.2 ⟨o, place, serves⟩)⟩
    rw [Tab.items_eq, List.mem_map]
    exact ⟨r.ix, List.mem_finRange _, State.plan_role u (.fill 14 []) n r⟩

/-- What is summed over the role positions is summed over the roles. -/
theorem sum_items_roles {α : Type} (t : Tab α 12) (f : α → Nat) :
    (t.items.map f).sum = (Role.all.map fun x => f (t.get x.ix)).sum := by
  have positions : List.finRange 12 = Role.all.map Role.ix := by decide
  rw [Tab.items_eq, positions, List.map_map, List.map_map]
  rfl

/-- The clips of the feeds and the folds of a screen that makes its program. -/
theorem makeFeeds_clips {layout : Layout} {roles : Tab RoleFigures 12} {a : Audio} {unfolded : Tab (List Int) 12}
    {feed : Role → List Int} (hfeed : ∀ x : Role, feed x = if (roles.get x.ix).mapped = 0 then []
      else sourceFeed ((layout.map fun y => y.get x.ix).getD .none) a)
    (h : ∀ x : Role, unfolded.get x.ix = (feed x).map sat24) : (makeFeeds layout roles a).clips =
      (Role.all.map fun x => ((feed x).filter saturates).length).sum +
      (Role.all.map fun x => if (roles.get x.ix).service = .inService then
        ((foldExact unfolded (foldsInto roles x) x).filter saturates).length else 0).sum := by
  have exact_ : ∀ x : Role, (if (roles.get x.ix).mapped = 0 then [] else sourceFeed (sourceOf layout x.ix) a) = feed x :=
    fun x => by
      rw [hfeed]
      cases layout <;> rfl
  have same : unfolded = (Tab.ofFn fun i =>
      if (roles.get i).mapped = 0 then [] else sourceFeed (sourceOf layout i) a).map fun xs => xs.map sat24 := by
    refine Tab.ext_get fun i => ?_
    rw [Tab.get_map, Tab.get_ofFn, ← Role.ix_ofIx i, h, exact_]
  have fold : ∀ x : Role, clipsOf (if (roles.get x.ix).service = .inService then
      foldExact unfolded (foldsInto roles (Role.ofIx x.ix)) (Role.ofIx x.ix) else []) =
      if (roles.get x.ix).service = .inService then
        ((foldExact unfolded (foldsInto roles x) x).filter saturates).length else 0 := fun x => by
    rw [Role.ofIx_ix]
    split <;> rfl
  unfold makeFeeds
  dsimp only
  rw [sum_items_roles, sum_items_roles, ← same]
  simp only [Tab.get_ofFn, exact_, fold]
  rfl

/-- A screen that does not play, or has no output in service, makes no program. -/
theorem State.plan_silent {handed : Tab Audio 14}
    (h : ¬(u.playsProgram n = true ∧ ((u.routeFigures n).roles.items.any fun r => decide (0 < r.inService)) = true)) :
    (u.plan handed n).program = Feeds.none :=
  if_neg fun both => h (Bool.and_eq_true_iff.1 both)

/-- The clips of a screen's paging samples. -/
theorem State.plan_pagingClips {handed : Tab Audio 14} {roles : List Role}
    (h : roles = [Role.l, .c, .r].filter fun x => decide (0 < (u.roleFigures n x).inService)) :
    (u.plan handed n).pagingClips =
      if u.evac = true ∧ (u.screens.get n).state ≠ .offline ∧ roles ≠ [] then
        ((slot (handed.get 12) 1).filter fun x =>
          saturates (scaled x (gainFactor (if Role.c ∈ roles then u.pagingStep else u.pagingStep - 6)))).length
      else 0 := by
  have role := fun x => State.plan_role u handed n x
  have center : Role.c ∈ roles ↔ 0 < (u.roleFigures n .c).inService := by
    rw [h, List.mem_filter, decide_eq_true_iff]
    exact and_iff_right (by decide)
  have step : pagingStepOf (u.plan handed n).figures.roles u.pagingStep =
      if Role.c ∈ roles then u.pagingStep else u.pagingStep - 6 := by
    rw [pagingStepOf, role]
    exact if_congr center.symm rfl rfl
  have carried : pagingRoles (u.plan handed n).figures.roles ≠ [] ↔ roles ≠ [] := by
    rw [pagingRoles, role, h]
    by_cases c : 0 < (u.roleFigures n .c).inService
    · rw [if_pos c]
      exact iff_of_true (List.cons_ne_nil _ _) (List.ne_nil_of_mem (List.mem_filter.2 ⟨by decide, decide_eq_true c⟩))
    · simp [Nat.eq_zero_of_not_pos c, role]
  have pages : (!(u.plan handed n).figures.pagingRoles.isEmpty) = true ↔
      u.evac = true ∧ (u.screens.get n).state ≠ .offline ∧ roles ≠ [] := by
    rw [← and_assoc, ← State.onRoute_iff, ← carried, Bool.not_eq_true', List.isEmpty_eq_false_iff,
      show (u.plan handed n).figures.pagingRoles =
        if u.onRoute n then pagingRoles (u.plan handed n).figures.roles else [] from rfl]
    cases u.onRoute n <;> simp
  have clips : (u.plan handed n).pagingClips = clipsOf
      (if (!(u.plan handed n).figures.pagingRoles.isEmpty) = true then (slot (handed.get pagingLane) 1).map fun x =>
        scaled x (gainFactor (pagingStepOf (u.plan handed n).figures.roles u.pagingStep)) else []) := rfl
  rw [clips, step, apply_ite clipsOf]
  refine if_congr pages ?_ rfl
  rw [clipsOf, List.filter_map, List.length_map]
  rfl

end

/-! ### The sound of a house block -/

theorem beforeSound_tones (inp : BlockInputs) (s : State) : (beforeSound inp s).noise = (atHouseBlock inp s).noise ∧
    (beforeSound inp s).toneGain = s.toneGain := by
  obtain ⟨u, close, frame⟩ := atHouseBlock_frame inp s
  obtain ⟨v, count, counted⟩ := countBlock_frame u
  unfold beforeSound
  rw [close, count, counted, frame]
  exact ⟨rfl, rfl⟩

theorem soundTone_eq (inp : BlockInputs) (s : State) : soundTone (beforeSound inp s) =
    (noiseSamples 48 (atHouseBlock inp s).noise).1.map fun x => sat24 (scaled x (gainFactor s.toneGain)) := by
  obtain ⟨noise, gain⟩ := beforeSound_tones inp s
  rw [soundTone, noise, gain]
  rfl

theorem lateTone_eq (inp : BlockInputs) (s : State) : lateTone inp.periods (beforeSound inp s) =
    (noiseSamples (inp.periods - 48) (noiseSamples 48 (atHouseBlock inp s).noise).2).1.map fun x =>
      sat24 (scaled x (gainFactor s.toneGain)) := by
  obtain ⟨noise, gain⟩ := beforeSound_tones inp s
  rw [lateTone, noise, gain]
  rfl

theorem lateTone_length (periods : Nat) (s : State) : (lateTone periods s).length = periods - 48 :=
  (List.length_map _).trans (noiseSamples_length _ _)

theorem lateTone_sample (periods : Nat) (s : State) : ∀ y ∈ lateTone periods s, -8388608 ≤ y ∧ y ≤ 8388607 := by
  intro y h
  obtain ⟨x, -, rfl⟩ := List.mem_map.1 h
  exact sat24_sample _

/-- The pilot of an output in words. -/
theorem pilotAdded_iff {u : State} {x : Output} : u.pilotAdded x = true ↔
    x.sense.health ≠ .excluded ∧ x.sense.health ≠ .failedShort ∧
      ∃ n r, x.place = some (n, r) ∧ (u.screens.get n).state ≠ .calibrating := by
  unfold State.pilotAdded
  cases screen : x.screen with
  | none =>
    have unmapped : x.place = none := Option.map_eq_none_iff.1 screen
    simp [unmapped]
  | some n =>
    obtain ⟨r, place⟩ := Output.screen_eq_some.1 screen
    simp [place, and_assoc]

theorem finishFade_meters (n : Fin 12) (s : State) : (finishFade n s).meters = s.meters := by
  unfold finishFade
  split
  · obtain ⟨t, after, frame, -⟩ := completeFade_leaves n s
    have meters := congrArg State.meters frame
    rw [after]
    exact meters
  · rfl

theorem readSupply_meters (a b : Bool) (s : State) : (readSupply a b s).meters = s.meters := by
  unfold readSupply
  dsimp only
  split
  · rfl
  · rw [notify_meters]
    obtain ⟨_, _, _, _, h⟩ := recompute_frame .supply
      { s with budget := { s.budget with supply1 := a, supply2 := b, supply := supplyOf a b } }
    rw [h]

/-- A run keeps the tone flag. -/
theorem soundRan_toneFlag (periods : Nat) (flags : Tab Bool 192) (old s : State) (o : Fin 192) :
    (soundRan periods flags old s o).output.toneFlag = (s.outputs.get o).toneFlag := by
  obtain ⟨comp, level, applied, pilot, run⟩ := soundRan_runs periods flags old s o
  obtain ⟨_, _, _, _, _, _, frame⟩ := runOutput_frame (soundSelected flags old s o)
    (lateSamples (lateTone periods s) s.lateDraws o (soundSelected flags old s o).kind) comp level applied pilot
    (s.outputs.get o)
  rw [run, frame]

/-- The clips of a screen's outputs, output by output. -/
theorem ranOn_clips (f : Fin 192 → Ran) (n : Fin 12) : ((ranOn (.ofFn f) n).map Ran.clips).sum =
    (((List.finRange 192).filter fun o => decide ((f o).output.screen = some n)).map fun o => (f o).clips).sum := by
  have items : (Tab.ofFn f).items = (List.finRange 192).map f := by
    rw [Tab.items_eq]
    exact List.map_congr_left fun o _ => Tab.get_ofFn ..
  rw [ranOn, items, List.filter_map, List.map_map]
  rfl

/-- Nothing after the sound moves a meter. -/
theorem houseBlock_meters (inp : BlockInputs) (s : State) : (houseBlock inp s).meters = (afterSound inp s).meters := by
  have supply := readSupply_meters inp.supply1 inp.supply2 (afterSound inp s)
  have fades : ∀ u : State, (overScreens finishFade u).meters = u.meters := fun u =>
    overScreens_induct (P := fun t => t.meters = u.meters) rfl fun n t h => (finishFade_meters n t).trans h
  unfold houseBlock
  generalize afterSound inp s = a at supply ⊢
  generalize readSupply inp.supply1 inp.supply2 a = r at supply ⊢
  have faded := fades r
  generalize overScreens finishFade r = z at faded ⊢
  exact faded.trans supply

end Sys2Proof.Machine

open Sys2Proof Sys2Proof.Machine

/-- Settles O34: an output's run in its parts, the clips of a screen's plan, and the sound of a house block. -/
theorem outputPath : Obligations.OutputPath := by
  unfold Obligations.OutputPath
  refine ⟨fun _ => rfl, fun _ => rfl, sat24_eq, saturates_iff, fun _ _ => rfl, fun _ => rfl, fun _ _ _ => rfl,
    fun _ _ => rfl, ?_, fun _ => rfl, ?_, fun line xs => ⟨runDelay_append line xs, runDelay_length line xs⟩,
    fun sel late comp level applied pilot x => ?_, fun u handed n feed unfolded hfeed hunfolded => ⟨?_, ?_, ?_⟩, fun inp s => ?_⟩
  · rintro c hist x xs e rest rfl rfl
    rw [← toNat_eq_ite]
    rfl
  · rintro p ps xs one rest rfl rfl
    rfl
  · obtain ⟨used, r, hr, run⟩ := runOutput_parts sel late comp level applied pilot x
    obtain ⟨inverted, -⟩ := clearedFor_kept sel x
    obtain ⟨taps, gain⟩ := runGain_eq used
      (runDelay (clearedFor sel x).line
        (runSections (clearedFor sel x).path ((sel.samples ++ late).map (polarity x.inverted))).1).1
    rw [← inverted] at taps gain
    subst hr
    rw [run]
    refine ⟨clearedFor sel x, _, _, _, _, _, rfl, if_congr (clearsPath_iff _) rfl rfl, by rw [← inverted]; rfl, rfl, rfl,
      _, _, ?_, ?_, rfl, rfl, rfl, rfl⟩
    · exact taps
    · exact congrArg (_ + ·) gain
  · rintro ⟨state, evac, granted, delivers, o, screen, serves⟩
    obtain ⟨r, place⟩ := Output.screen_eq_some.1 screen
    have role : ∀ x : Role, (Tab.ofFn fun i => u.roleFigures n (Role.ofIx i)).get x.ix = u.roleFigures n x := fun x => by
      rw [Tab.get_ofFn, Role.ofIx_ix]
    rw [State.plan_program (State.playsProgram_iff.2 ⟨state, evac, granted, delivers⟩)
      (roleFigures_works.2 ⟨o, place, serves⟩), makeFeeds_clips (fun x => by rw [hfeed, role]) hunfolded]
    simp only [role]
  · intro silent
    refine congrArg Feeds.clips (State.plan_silent fun ⟨plays, works⟩ => silent ?_)
    obtain ⟨state, evac, granted, delivers⟩ := State.playsProgram_iff.1 plays
    exact ⟨state, evac, granted, delivers, anyRole_works.1 works⟩
  · rintro roles step hroles rfl
    exact State.plan_pagingClips hroles
  · refine ⟨_, exec_houseBlock inp s, ?_⟩
    rintro u v a plan tone rfl rfl rfl hplan rfl
    have plans : plan = soundPlan (atHouseBlock inp s) (beforeSound inp s) :=
      Tab.ext_get fun n => (hplan n).trans (soundPlan_get n).symm
    refine ⟨soundRan inp.periods (flagsRead inp s) (atHouseBlock inp s) (beforeSound inp s), fun o =>
      lateSamples (lateTone inp.periods (beforeSound inp s)) (beforeSound inp s).lateDraws o
        (soundSelected (flagsRead inp s) (atHouseBlock inp s) (beforeSound inp s) o).kind, fun o => ?_, fun o => ?_, fun n => ?_⟩
    · obtain ⟨_, _, _, _, run⟩ :=
        soundRan_runs inp.periods (flagsRead inp s) (atHouseBlock inp s) (beforeSound inp s) o
      rw [houseBlock_figures, run, runOutput_figures]
      refine ⟨(lateSamples_length _ _ _ _).trans (lateTone_length _ _), lateSamples_sample (lateTone_sample _ _) _ _ _,
        fun silent => ?_, fun sounds => ?_⟩
      · intro y hy
        dsimp only at silent hy
        rw [silent] at hy
        obtain ⟨_, -, e⟩ := List.mem_map.1 hy
        exact e.symm
      · dsimp only at sounds ⊢
        rw [sounds]
        exact lateTone_eq inp s
    · have output := houseBlock_output inp s o
      have figures := houseBlock_figures inp s o
      obtain ⟨place, sense, -⟩ := houseBlock_mapped inp s o
      have flag := soundRan_toneFlag inp.periods (flagsRead inp s) (atHouseBlock inp s) (beforeSound inp s) o
      have pilots := pilotAdded_iff (u := atHouseBlock inp s) (x := (beforeSound inp s).outputs.get o)
      have applied := fun n => runSound_applied (periods := inp.periods) (flags := flagsRead inp s)
        (old := atHouseBlock inp s) (s := beforeSound inp s) n
      have unmapped := soundRan_unmapped (periods := inp.periods) (flags := flagsRead inp s) (old := atHouseBlock inp s)
        (s := beforeSound inp s) (o := o)
      have mapped := fun n r => soundRan_mapped (periods := inp.periods) (flags := flagsRead inp s)
        (old := atHouseBlock inp s) (s := beforeSound inp s) (o := o) (n := n) (r := r)
      rw [place, sense, plans, ← soundTone_eq]
      generalize (houseBlock inp s).outputs.get o = y at output figures
      generalize soundRan inp.periods (flagsRead inp s) (atHouseBlock inp s) (beforeSound inp s) o = ran at *
      have kept : { y with toneFlag := ((beforeSound inp s).outputs.get o).toneFlag } = ran.output := by
        rw [output, ← flag]
      rw [kept]
      cases here : ((beforeSound inp s).outputs.get o).place with
      | none =>
        have run := unmapped here
        rw [run, runOutput_figures] at figures
        refine ⟨_, _, _, _, run, rfl, by rw [figures], ?_, nofun⟩
        simp only [Bool.false_eq_true, reduceCtorEq, false_and, exists_false, and_false]
      | some p =>
        obtain ⟨n, r⟩ := p
        have run := mapped n r here
        rw [run, runOutput_figures] at figures
        rw [here] at pilots
        refine ⟨_, _, _, _, run, rfl, by rw [figures], pilots, ?_⟩
        rintro _ _ ⟨⟩
        exact ⟨rfl, by rw [figures], (applied n).symm⟩
    · have screen : ∀ o, ((houseBlock inp s).outputs.get o).screen =
          (soundRan inp.periods (flagsRead inp s) (atHouseBlock inp s) (beforeSound inp s) o).output.screen := fun o => by
        have output := houseBlock_output inp s o
        generalize (houseBlock inp s).outputs.get o = y at output ⊢
        generalize soundRan inp.periods (flagsRead inp s) (atHouseBlock inp s) (beforeSound inp s) o = ran at output ⊢
        rw [output]
        rfl
      rw [houseBlock_meters, afterSound, runSound_meters, plans, soundClips, ranOn_clips]
      simp only [screen]
end

section
/-! PROOF. The parts of a house block in their order: the fades, the lines, the noise and the self-test, the close and the
count (01 R19, 04 R88, 09 R165, R166, 10 R170). -/

namespace Sys2Proof.Machine

/-! ### The self-test -/

section
variable {s : State} (a b : Bool)

theorem SelfTest.ends_iff {t : SelfTest} : t.ends = true ↔ t.running = true ∧ 2048 ≤ t.blocks + 1 := by
  rw [SelfTest.ends, Bool.and_eq_true_iff, decide_eq_true_iff]
  rfl

theorem tickSelftest_idle (h : s.selftest.running = false) : tickSelftest a b s = s := by
  have goes : s.selftest.ends = false := by rw [SelfTest.ends, h, Bool.false_and]
  simp only [tickSelftest, goes, h, Bool.false_eq_true, if_false]

theorem tickSelftest_goes (h : s.selftest.running = true) (early : s.selftest.blocks + 1 < 2048) :
    tickSelftest a b s = { s with selftest := s.selftest.test a b } := by
  have goes : ¬s.selftest.ends = true := fun e => Nat.not_le.2 early (SelfTest.ends_iff.1 e).2
  rw [tickSelftest, if_neg goes, if_pos h]

theorem tickSelftest_ends (h : s.selftest.running = true) (last : 2048 ≤ s.selftest.blocks + 1) :
    tickSelftest a b s = completeSelftest a b s :=
  if_pos (SelfTest.ends_iff.2 ⟨h, last⟩)

end

/-! ### Up to the close -/

theorem Screen.houseFade_eq (c : Screen) : c.houseFade =
    if c.fadeTaken = true then { c with fadeTaken := false }
    else if c.state = .ending then
      (if c.rateInEffect.getD c.config.fadeRate ≤ c.fadeCount + 1 then
        { c with fadeCount := 0, fadeAtt := c.fadeAtt + 1 }
      else { c with fadeCount := c.fadeCount + 1 })
    else c := rfl

theorem beforeSelftest_eq (inp : BlockInputs) (s : State) : beforeSelftest inp s =
    { s with
      screens := s.screens.map Screen.houseFade, booth := (tickLines s).booth
      noise := (passReset inp.sinceReset s).noise } := by
  obtain ⟨z, reset⟩ := passReset_frame inp.sinceReset s
  rw [beforeSelftest, reset]
  rfl

theorem passReset_noise (k : Nat) (s : State) : (passReset k s).noise =
    if s.blockPeriods = 0 then (noiseSamples k s.noise).2 else s.noise := by
  unfold passReset
  split <;> rfl

/-- The state before the close of a house block. -/
def beforeClose (inp : BlockInputs) (s : State) : State := tickSelftest inp.fault0 inp.fault1 (beforeSelftest inp s)

theorem atHouseBlock_closes (inp : BlockInputs) (s : State) : atHouseBlock inp s = ensureClosed (beforeClose inp s) := rfl

/-- What the close of a block keeps, of what a house block has done before it. -/
theorem ensureClosed_before (s : State) : (ensureClosed s).screens = s.screens ∧ (ensureClosed s).booth = s.booth ∧
    (ensureClosed s).noise = s.noise ∧ (ensureClosed s).selftest = s.selftest ∧ (ensureClosed s).badPages = s.badPages := by
  obtain ⟨_, _, _, _, _, _, closed⟩ := ensureClosed_frame s
  rw [closed]
  exact ⟨rfl, rfl, rfl, rfl, rfl⟩

theorem ensureClosed_freePages (s : State) : (ensureClosed s).freePages = s.freePages := by
  have bad := (ensureClosed_before s).2.2.2.2
  have used : (ensureClosed s).usedPages = s.usedPages := by
    rw [State.usedPages, State.usedPages, Tab.items_eq, Tab.items_eq, List.map_map, List.map_map]
    refine congrArg List.flatten (List.map_congr_left fun o _ => ?_)
    have kept := (ensureClosed_keeps s).2 o
    rw [Function.comp_apply, kept]
    rfl
  simp only [State.freePages, State.pagesIn, State.pageState, used, bad]

/-- A house block's self-test: idle, going on, or at its end. -/
theorem tickSelftest_cases (a b : Bool) (s : State) :
    (s.selftest.running = false → (tickSelftest a b s).selftest = s.selftest ∧ (tickSelftest a b s).badPages = s.badPages ∧
      (tickSelftest a b s).ports = s.ports) ∧
    (s.selftest.running = true → s.selftest.blocks + 1 < 2048 →
      (tickSelftest a b s).badPages = s.badPages ∧ (tickSelftest a b s).ports = s.ports) ∧
    (s.selftest.running = true → 2048 ≤ s.selftest.blocks + 1 →
      (tickSelftest a b s).badPages = (tickSelftest a b s).selftest.faults ∧ (tickSelftest a b s).ports =
        tell [.selftest (tickSelftest a b s).freePages.length (tickSelftest a b s).badPages.length] s.ports) ∧
    (s.selftest.running = true → (tickSelftest a b s).selftest.blocks = s.selftest.blocks + 1 ∧
      ((tickSelftest a b s).selftest.running = true ↔ s.selftest.blocks + 1 < 2048) ∧
      (tickSelftest a b s).selftest.faults = s.selftest.faults ++ (if a then [2 * s.selftest.blocks] else []) ++
        (if b then [2 * s.selftest.blocks + 1] else [])) := by
  refine ⟨fun idle => ?_, fun runs early => ?_, fun runs last => ?_, fun runs => ?_⟩
  · rw [tickSelftest_idle _ _ idle]
    exact ⟨rfl, rfl, rfl⟩
  · rw [tickSelftest_goes _ _ runs early]
    exact ⟨rfl, rfl⟩
  · rw [tickSelftest_ends _ _ runs last]
    exact ⟨rfl, rfl⟩
  · rcases Nat.lt_or_ge (s.selftest.blocks + 1) 2048 with early | last
    · rw [tickSelftest_goes _ _ runs early]
      exact ⟨rfl, iff_of_true runs early, rfl⟩
    · rw [tickSelftest_ends _ _ runs last]
      exact ⟨rfl, iff_of_false Bool.false_ne_true (Nat.not_lt.2 last), rfl⟩

theorem beforeSelftest_kept (inp : BlockInputs) (s : State) : (beforeSelftest inp s).selftest = s.selftest ∧
    (beforeSelftest inp s).badPages = s.badPages ∧ (beforeSelftest inp s).ports = s.ports := by
  rw [beforeSelftest_eq]
  exact ⟨rfl, rfl, rfl⟩

theorem beforeClose_eq (inp : BlockInputs) (s : State) : ∃ x, beforeClose inp s = x ∧
    x = { s with
      screens := x.screens, booth := x.booth, noise := x.noise, selftest := x.selftest, badPages := x.badPages
      ports := x.ports } ∧
    (∀ n, x.screens.get n = (s.screens.get n).houseFade) ∧
    (∀ n l, x.line n l = { (s.line n l).tick with output := (s.line n l).tick.shown s.evac }) ∧
    (s.blockPeriods = 0 → x.noise = (noiseSamples inp.sinceReset s.noise).2) ∧
    (s.blockPeriods ≠ 0 → x.noise = s.noise) := by
  obtain ⟨x, before, frame, screens, noise, booth⟩ := beforeClose_frame inp s
  refine ⟨x, before, frame, fun n => ?_, fun n l => ?_, fun first => ?_, fun later => ?_⟩
  · rw [screens]
    exact Tab.get_map ..
  · have line := tickLines_line n l s
    unfold State.line at line ⊢
    rw [booth]
    exact line
  · rw [noise, passReset_noise, if_pos first]
  · rw [noise, passReset_noise, if_neg later]

/-! ### The count -/

theorem beforeSound_counts (inp : BlockInputs) (s : State) :
    (s.intervalTaken = true → beforeSound inp s = atHouseBlock inp s) ∧
    (s.intervalTaken = false → s.blockCount + 1 ≠ 1024 →
      beforeSound inp s = { atHouseBlock inp s with blockCount := s.blockCount + 1 }) ∧
    (s.intervalTaken = false → s.blockCount + 1 = 1024 →
      exec .intervalEvent (atHouseBlock inp s) = .next (beforeSound inp s)) := by
  obtain ⟨-, count, taken, -⟩ := atHouseBlock_keeps inp s
  have due := due_iff (atHouseBlock inp s)
  rw [count, taken] at due
  unfold beforeSound countBlock
  generalize atHouseBlock inp s = u at count taken due
  refine ⟨fun early => if_pos (taken.trans early), fun open_ few => ?_, fun open_ last => ?_⟩
  · rw [if_neg (by rw [taken, open_]; exact Bool.false_ne_true), if_neg fun h => few (due.1 h).1, count]
  · rw [if_neg (by rw [taken, open_]; exact Bool.false_ne_true), if_pos (due.2 ⟨last, open_⟩),
      exec_intervalEvent_due (count.symm ▸ last) (taken.trans open_)]

end Sys2Proof.Machine
end

section
/-! PROOF. A house block as a whole: its sound, its return side words, and what follows them (02 R36, R42, R43, 03 R67,
04 R81 to R84, 08 R140, R147). -/

namespace Sys2Proof.Machine

/-! ### The return side words and the noise -/

theorem ReturnWord.bytes_layout (w : ReturnWord) : ∃ (fields : List Byte) (hi lo : Byte), w.bytes = fields ++ [hi, lo] ∧
    (crc fields).toNat = 256 * hi.toNat + lo.toNat ∧ fields = w.spelled := by
  obtain ⟨hi, lo, check, value⟩ := checkBytes_toNat w.spelled
  exact ⟨w.spelled, hi, lo, by rw [w.bytes_spelled, check], value, rfl⟩

/-- A return block: silent slots, and its word in the auxiliary bits of its frames. -/
theorem ReturnWord.block_shape (w : ReturnWord) : w.block.frames = List.replicate 48 (List.replicate 16 0) ∧
    w.block.aux.length = 48 ∧ w.block.side = w.bytes ∧ goodBlock w.block.side = true := by
  refine ⟨rfl, ?_, w.block_side, by rw [w.block_side, w.bytes_good]⟩
  obtain ⟨hi, lo, check, -⟩ := checkBytes_toNat w.spelled
  rw [show w.block.aux = auxOfBytes w.bytes from rfl, auxOfBytes_length, w.bytes_spelled, check]
  rfl

/-! ### The sound -/

section
variable (periods : Nat) (flags : Tab Bool 192) (old s : State)

/-- The part of the base target that set it. -/
theorem baseTarget_eq {n : Fin 12} {shed loud : Nat} (hshed : shed = if (s.grants.get n).status = .shed then (s.screens.get n).config.shedAtt else 0)
    (hloud : loud = (s.alarms.get n).loudTrim) : s.baseTarget n =
      (max shed loud, if shed = 0 ∧ loud = 0 then .none else if loud ≤ shed then .shed else .loud) := by
  subst hshed hloud
  exact Prod.ext rfl (if_congr Nat.max_eq_zero_iff rfl rfl)

theorem raiseBases_baseTarget (n : Fin 12) : (overScreens raiseBase s).baseTarget n = s.baseTarget n := by
  obtain ⟨a, h⟩ := raiseBases_frame s
  rw [h]
  rfl

theorem runSound_current (n : Fin 12) : ((runSound periods flags old s).attenuations.get n).current =
    max (s.attenuations.get n).current (s.baseTarget n).1 := by
  rw [runSound_eq]
  dsimp only
  rw [Tab.get_update]
  exact congrArg Attenuation.current (raiseBases_get s n)

/-- The muted outputs of a screen, by the figures they leave. -/
theorem ranOn_muted (f : Fin 192 → Ran) (n : Fin 12) (h : ∀ o, (f o).muted = decide ((f o).output.figures.step = none)) :
    ((ranOn (.ofFn f) n).filter Ran.muted).length =
      ((List.finRange 192).filter fun o =>
        decide ((f o).output.screen = some n ∧ (f o).output.figures.step = none)).length := by
  have items : (Tab.ofFn f).items = (List.finRange 192).map f := by
    rw [Tab.items_eq]
    exact List.map_congr_left fun o _ => Tab.get_ofFn ..
  rw [ranOn, items, List.filter_map, List.filter_map, List.length_map, List.filter_filter]
  refine congrArg List.length (List.filter_congr fun o _ => ?_)
  rw [Function.comp_apply, Function.comp_apply, h, Bool.and_comm, ← Bool.decide_and]

theorem soundRan_muted (o : Fin 192) : (soundRan periods flags old s o).muted =
    decide ((soundRan periods flags old s o).output.figures.step = none) := by
  obtain ⟨comp, level, applied, pilot, run⟩ := soundRan_runs periods flags old s o
  obtain ⟨used, r, -, parts⟩ := runOutput_parts (soundSelected flags old s o)
    (lateSamples (lateTone periods s) s.lateDraws o (soundSelected flags old s o).kind) comp level applied pilot
    (s.outputs.get o)
  rw [run, parts]
  dsimp only
  cases used <;> rfl

theorem runSound_attenuation (n : Fin 12) : ∃ g, g = ((runSound periods flags old s).attenuations.get n).figures ∧
    (runSound periods flags old s).attenuations.get n =
      { current := max (s.attenuations.get n).current (s.baseTarget n).1, figures := g } ∧
    g =
      { target := (s.baseTarget n).1, part := (s.baseTarget n).2
        current := ((runSound periods flags old s).attenuations.get n).current
        fade := (s.screens.get n).fadeAtt
        applied := ((runSound periods flags old s).attenuations.get n).current + (s.screens.get n).fadeAtt
        level := (old.screens.get n).level
        muted := ((List.finRange 192).filter fun o =>
          decide (((runSound periods flags old s).outputs.get o).screen = some n ∧
            ((runSound periods flags old s).outputs.get o).figures.step = none)).length } := by
  have current := runSound_current periods flags old s n
  have outputs := fun o => runSound_outputs (periods := periods) (flags := flags) (old := old) (s := s) o
  have muted := ranOn_muted _ n (soundRan_muted periods flags old s)
  simp only [← outputs] at muted
  have whole : (runSound periods flags old s).attenuations.get n =
      { (overScreens raiseBase s).attenuations.get n with
        figures := (overScreens raiseBase s).gainFigures (old.screens.get n).level
          ((ranOn (.ofFn (soundRan periods flags old s)) n).filter Ran.muted).length n } := by
    rw [runSound_eq]
    exact Tab.get_update ..
  obtain ⟨-, -, screens⟩ := raiseBases_kept (s := s)
  refine ⟨_, rfl, ?_, ?_⟩
  · rw [← current]
  · rw [congrArg Attenuation.figures whole, State.gainFigures, muted, State.applied, raiseBases_get, raiseBases_baseTarget,
      screens, current]

theorem runSound_route (n : Fin 12) : (runSound periods flags old s).routes.get n =
    { s.routes.get n with figures := old.routeFigures n } := by
  rw [runSound_eq]
  dsimp only
  rw [Tab.get_update, soundPlan_get, State.plan_figures]

theorem runSound_returnWord (n : Fin 12) : (runSound periods flags old s).returnWords.get n =
    old.returnWord ((runSound periods flags old s).applied n) n := by
  rw [runSound_applied, runSound_eq]
  exact Tab.get_ofFn ..

end

/-- What a house block reads of a lane's store. -/
theorem Lane.read_keeps (l : Lane) : l.read.2.sync = l.sync ∧ l.read.2.accepted = l.accepted ∧ l.read.2.skew = l.skew ∧
    l.read.2.mask = l.mask ∧ l.read.2.store = (if l.delivering = true then l.store.drop 1 else l.store) ∧
    l.read.2.slips = (if l.delivering = true ∧ l.store = [] then l.slips + 1 else l.slips) := by
  cases delivers : l.delivering with
  | false =>
    rw [Lane.read_idle delivers]
    exact ⟨rfl, rfl, rfl, rfl, rfl, rfl⟩
  | true =>
    cases store : l.store with
    | nil =>
      rw [Lane.read_nil delivers store]
      exact ⟨rfl, rfl, rfl, rfl, store, rfl⟩
    | cons b rest =>
      rw [Lane.read_cons delivers store]
      exact ⟨rfl, rfl, rfl, rfl, rfl, rfl⟩

/-! ### After the sound -/

theorem supplyOf_eq (a b : Bool) : supplyOf a b =
    if a = true then (if b = true then Supply.batteryLow else .generator) else if b = true then .battery else .mains := by
  cases a <;> cases b <;> rfl

theorem readSupply_budget (a b : Bool) (s : State) :
    (readSupply a b s).budget = { s.budget with supply1 := a, supply2 := b, supply := supplyOf a b } := by
  unfold readSupply
  dsimp only
  split
  · rfl
  · obtain ⟨_, _, _, _, h⟩ := recompute_frame .supply
      { s with budget := { s.budget with supply1 := a, supply2 := b, supply := supplyOf a b } }
    rw [h]
    rfl

theorem readSupply_cases (a b : Bool) (s : State) :
    (supplyOf a b = s.budget.supply → readSupply a b s = { s with budget := (readSupply a b s).budget }) ∧
    (supplyOf a b ≠ s.budget.supply → readSupply a b s =
      (recompute .supply { s with budget := (readSupply a b s).budget }).notify
        (.site (.supply (supplyOf a b) s.budget.supply (readSupply a b s).budget.available))) := by
  rw [readSupply_budget]
  unfold readSupply
  exact ⟨fun same => if_pos same, fun other => if_neg other⟩

theorem readSupply_figures (a b : Bool) (s : State) : (readSupply a b s).attenuations = s.attenuations := by
  unfold readSupply
  dsimp only
  split
  · rfl
  · obtain ⟨_, _, _, _, h⟩ := recompute_frame .supply
      { s with budget := { s.budget with supply1 := a, supply2 := b, supply := supplyOf a b } }
    rw [h]
    rfl

theorem finishFade_keeps (n : Fin 12) (s : State) : (finishFade n s).budget = s.budget ∧
    ∀ m, ((finishFade n s).attenuations.get m).figures = (s.attenuations.get m).figures := by
  unfold finishFade
  split
  · obtain ⟨t, after, frame, -, -, attenuations, -⟩ := completeFade_leaves n s
    rw [after]
    have budget := congrArg State.budget frame
    refine ⟨budget, fun m => ?_⟩
    rw [attenuations, Tab.get_modify]
    split
    · next here => rw [here]
    · rfl
  · exact ⟨rfl, fun _ => rfl⟩

theorem fades_keep (s : State) : (overScreens finishFade s).budget = s.budget ∧
    ∀ m, ((overScreens finishFade s).attenuations.get m).figures = (s.attenuations.get m).figures :=
  overScreens_induct (P := fun t => t.budget = s.budget ∧ ∀ m, (t.attenuations.get m).figures = (s.attenuations.get m).figures)
    ⟨rfl, fun _ => rfl⟩ fun n t ⟨budget, figures⟩ =>
      ⟨(finishFade_keeps n t).1.trans budget, fun m => ((finishFade_keeps n t).2 m).trans (figures m)⟩

theorem houseBlock_eq (inp : BlockInputs) (s : State) : houseBlock inp s =
    { overScreens finishFade (readSupply inp.supply1 inp.supply2 (afterSound inp s)) with
      blockClosed := false, intervalTaken := false, measureStepped := false } := rfl

/-- What the supply lines and the fades leave of the sound. -/
theorem houseBlock_after (inp : BlockInputs) (s : State) : ∃ t, houseBlock inp s = t ∧
    t = { afterSound inp s with
      budget := t.budget, screens := t.screens, meters := t.meters, outputs := t.outputs, attenuations := t.attenuations
      alarms := t.alarms, grants := t.grants, pool := t.pool, cues := t.cues, booth := t.booth, context := t.context
      ports := t.ports, blockClosed := false, intervalTaken := false, measureStepped := false } := by
  obtain ⟨_, _, _, _, _, _, _, _, _, _, _, _, after⟩ := fadesAndSupply_afterSoundFrame inp (afterSound inp s)
  refine ⟨_, rfl, ?_⟩
  rw [houseBlock_eq, after]

theorem houseBlock_budget (inp : BlockInputs) (s : State) : (houseBlock inp s).budget =
    (readSupply inp.supply1 inp.supply2 (afterSound inp s)).budget := by
  rw [houseBlock_eq]
  generalize readSupply inp.supply1 inp.supply2 (afterSound inp s) = r
  obtain ⟨budget, -⟩ := fades_keep r
  generalize overScreens finishFade r = z at budget ⊢
  exact budget

theorem houseBlock_gainFigures (inp : BlockInputs) (s : State) (n : Fin 12) :
    ((houseBlock inp s).attenuations.get n).figures = ((afterSound inp s).attenuations.get n).figures := by
  have supply := readSupply_figures inp.supply1 inp.supply2 (afterSound inp s)
  rw [houseBlock_eq, ← supply]
  generalize readSupply inp.supply1 inp.supply2 (afterSound inp s) = r
  obtain ⟨-, figures⟩ := fades_keep r
  generalize overScreens finishFade r = z at figures ⊢
  exact figures n

/-- The sound of a house block in its frame, by the state before it. -/
theorem afterSound_frame (inp : BlockInputs) (s : State) : ∃ a, afterSound inp s = a ∧
    a = { beforeSound inp s with
      attenuations := a.attenuations, lanes := a.lanes
      noise := (noiseSamples (inp.periods - 48) (noiseSamples 48 (atHouseBlock inp s).noise).2).2
      blockPeriods := max 48 inp.periods, lateDraws := s.lateDraws + 1
      outputs := a.outputs
      micRunning := (beforeSound inp s).micRunning + blockEnergy (slot ((beforeSound inp s).lanes.get 13).handed 1)
      meters := a.meters, routes := a.routes, returnWords := a.returnWords } := by
  obtain ⟨u, close, frame⟩ := atHouseBlock_frame inp s
  obtain ⟨v, count, counted⟩ := countBlock_frame u
  have draws : (beforeSound inp s).lateDraws = s.lateDraws := by
    unfold beforeSound
    rw [close, count, counted, frame]
  have noise := (beforeSound_tones inp s).1
  refine ⟨_, rfl, ?_⟩
  unfold afterSound
  rw [runSound_eq, Tab.get_map, noise, draws]
  rfl

end Sys2Proof.Machine
end

section
/-! PROOF. A house block in its order, what each leaves of the state. -/

namespace Sys2Proof.Machine

section
variable (inp : BlockInputs) (s : State)

/-- What the parts before the close leave, as the closed block holds it. -/
theorem atHouseBlock_parts : (beforeClose inp s).screens = (atHouseBlock inp s).screens ∧
    (∀ n, (atHouseBlock inp s).screens.get n = (s.screens.get n).houseFade) ∧
    (∀ n l, (atHouseBlock inp s).line n l = { (s.line n l).tick with output := (s.line n l).tick.shown s.evac }) ∧
    (s.blockPeriods = 0 → (atHouseBlock inp s).noise = (noiseSamples inp.sinceReset s.noise).2) ∧
    (s.blockPeriods ≠ 0 → (atHouseBlock inp s).noise = s.noise) := by
  obtain ⟨x, before, -, screens, lines, first, later⟩ := beforeClose_eq inp s
  obtain ⟨sameScreens, sameBooth, sameNoise, -⟩ := ensureClosed_before x
  rw [atHouseBlock_closes, before, sameScreens, sameNoise]
  refine ⟨rfl, screens, fun n l => ?_, first, later⟩
  rw [State.line, sameBooth]
  exact lines n l

theorem atHouseBlock_selftest :
    (s.selftest.running = false → (atHouseBlock inp s).selftest = s.selftest ∧ (atHouseBlock inp s).badPages = s.badPages ∧
      (beforeClose inp s).ports = s.ports) ∧
    (s.selftest.running = true → s.selftest.blocks + 1 < 2048 →
      (atHouseBlock inp s).badPages = s.badPages ∧ (beforeClose inp s).ports = s.ports) ∧
    (s.selftest.running = true → 2048 ≤ s.selftest.blocks + 1 →
      (atHouseBlock inp s).badPages = (atHouseBlock inp s).selftest.faults ∧ (beforeClose inp s).ports =
        tell [.selftest (atHouseBlock inp s).freePages.length (atHouseBlock inp s).badPages.length] s.ports) ∧
    (s.selftest.running = true → (atHouseBlock inp s).selftest.blocks = s.selftest.blocks + 1 ∧
      ((atHouseBlock inp s).selftest.running = true ↔ s.selftest.blocks + 1 < 2048) ∧
      (atHouseBlock inp s).selftest.faults = s.selftest.faults ++ (if inp.fault0 then [2 * s.selftest.blocks] else []) ++
        (if inp.fault1 then [2 * s.selftest.blocks + 1] else [])) := by
  obtain ⟨selftest, badPages, ports⟩ := beforeSelftest_kept inp s
  have cases_ := tickSelftest_cases inp.fault0 inp.fault1 (beforeSelftest inp s)
  rw [selftest, badPages, ports, ← beforeClose] at cases_
  obtain ⟨-, -, -, sameTest, sameBad⟩ := ensureClosed_before (beforeClose inp s)
  rw [atHouseBlock_closes, sameTest, sameBad, ensureClosed_freePages]
  exact cases_

theorem atHouseBlock_close : (∃ x, beforeClose inp s = x ∧ x = { s with
      screens := x.screens, booth := x.booth, noise := x.noise, selftest := x.selftest, badPages := x.badPages
      ports := x.ports }) ∧
    atHouseBlock inp s = (if s.blockClosed = true then beforeClose inp s else { closeBlock (beforeClose inp s) with blockClosed := true }) := by
  obtain ⟨x, before, frame, -⟩ := beforeClose_eq inp s
  have closed := congrArg State.blockClosed frame
  rw [atHouseBlock_closes, before]
  refine ⟨⟨x, rfl, frame⟩, ?_⟩
  rw [ensureClosed, closed]

theorem afterSound_lanes (l : Fin 14) : (afterSound inp s).lanes.get l = ((beforeSound inp s).lanes.get l).read.2 :=
  (runSound_keeps inp.periods (flagsRead inp s) (atHouseBlock inp s) (beforeSound inp s)).1 l

theorem afterSound_toneFlag (o : Fin 192) :
    ((afterSound inp s).outputs.get o).toneFlag = ((beforeSound inp s).outputs.get o).toneFlag := by
  rw [afterSound, runSound_outputs, soundRan_toneFlag]

/-- The gain figures of a screen, formed in the sound. -/
theorem afterSound_attenuation (n : Fin 12) (shed loud : Nat) (g : GainFigures)
    (hshed : shed = if ((beforeSound inp s).grants.get n).status = .shed then ((beforeSound inp s).screens.get n).config.shedAtt else 0)
    (hloud : loud = ((beforeSound inp s).alarms.get n).loudTrim) (hg : g = ((afterSound inp s).attenuations.get n).figures) :
    (afterSound inp s).attenuations.get n =
      { current := max ((beforeSound inp s).attenuations.get n).current (max shed loud), figures := g } ∧
    g =
      { target := max shed loud
        part := if shed = 0 ∧ loud = 0 then .none else if loud ≤ shed then .shed else .loud
        current := ((afterSound inp s).attenuations.get n).current
        fade := ((beforeSound inp s).screens.get n).fadeAtt
        applied := ((afterSound inp s).attenuations.get n).current + ((beforeSound inp s).screens.get n).fadeAtt
        level := ((atHouseBlock inp s).screens.get n).level
        muted := ((List.finRange 192).filter fun o =>
          decide (((afterSound inp s).outputs.get o).screen = some n ∧
            ((afterSound inp s).outputs.get o).figures.step = none)).length } := by
  obtain ⟨_, rfl, whole, figures⟩ :=
    runSound_attenuation inp.periods (flagsRead inp s) (atHouseBlock inp s) (beforeSound inp s) n
  rw [baseTarget_eq _ hshed hloud] at whole figures
  subst hg
  exact ⟨whole, figures⟩

/-- The figures ROUTE QUERY answers, formed in the sound. -/
theorem State.routeFigures_eq (u : State) (n : Fin 12) (f : RouteFigures) (hf : f = u.routeFigures n) :
    f.layout = u.layoutInUse n ∧ f.source = (u.routes.get n).source ∧ f.held = (u.routes.get n).held ∧
    (f.noLayout = true ↔ u.layoutRecord f.layout = none) ∧
    (∀ r : Role, f.roles.get r.ix = u.roleFigures n r ∧ (u.roleFigures n r).outputs = u.outputsIn n r ∧
      (u.roleFigures n r).comp =
        if 0 < (u.roleFigures n r).inService ∧ (u.roleFigures n r).inService < (u.roleFigures n r).mapped then
          compStep (u.roleFigures n r).mapped (u.roleFigures n r).inService
        else 0) ∧
    (f.onRoute = true ↔ u.evac = true ∧ (u.screens.get n).state ≠ .offline) ∧
    f.pagingRoles =
      if u.evac = true ∧ (u.screens.get n).state ≠ .offline then
        (if 0 < (u.roleFigures n .c).inService then [.c]
        else [Role.l, .r].filter fun r => decide (0 < (u.roleFigures n r).inService))
      else [] := by
  have role : ∀ r : Role, (u.routeFigures n).roles.get r.ix = u.roleFigures n r := State.plan_role u (.fill 14 []) n
  subst hf
  refine ⟨rfl, rfl, rfl, Option.isNone_iff_eq_none, fun r => ⟨role r, rfl, if_congr ?_ rfl rfl⟩, State.onRoute_iff, ?_⟩
  · rw [Bool.and_eq_true_iff, decide_eq_true_iff, decide_eq_true_iff]
    rfl
  · refine (if_congr State.onRoute_iff ?_ rfl : (u.routeFigures n).pagingRoles = _)
    rw [pagingRoles, show (Tab.ofFn fun i => u.roleFigures n (Role.ofIx i)) = (u.routeFigures n).roles from rfl]
    simp only [role]

theorem afterSound_route (n : Fin 12) (f : RouteFigures) (hf : f = ((afterSound inp s).routes.get n).figures) :
    (afterSound inp s).routes.get n = { (beforeSound inp s).routes.get n with figures := f } ∧
    f = (atHouseBlock inp s).routeFigures n := by
  have route := runSound_route inp.periods (flagsRead inp s) (atHouseBlock inp s) (beforeSound inp s) n
  have figures := congrArg Route.figures route
  subst hf
  exact ⟨by rw [afterSound, figures]; exact route, figures⟩

/-- The attenuation applied to a screen is at least its loud trim, and its shed attenuation while it is shed. -/
theorem afterSound_applied (n : Fin 12) :
    ((afterSound inp s).alarms.get n).loudTrim ≤
      ((afterSound inp s).attenuations.get n).current + ((afterSound inp s).screens.get n).fadeAtt ∧
    (((afterSound inp s).grants.get n).status = .shed → ((afterSound inp s).screens.get n).config.shedAtt ≤
      ((afterSound inp s).attenuations.get n).current + ((afterSound inp s).screens.get n).fadeAtt) := by
  obtain ⟨a, after, frame⟩ := afterSound_frame inp s
  have current := runSound_current inp.periods (flagsRead inp s) (atHouseBlock inp s) (beforeSound inp s) n
  rw [← afterSound, baseTarget_eq _ rfl rfl, after] at current
  have alarms := congrArg State.alarms frame
  have grants := congrArg State.grants frame
  have screens := congrArg State.screens frame
  dsimp only at alarms grants screens current
  rw [after, current, alarms, grants, screens]
  refine ⟨by omega, fun shed => ?_⟩
  rw [if_pos shed]
  omega

theorem afterSound_returnWord (n : Fin 12) : (afterSound inp s).returnWords.get n =
    { state := ((atHouseBlock inp s).screens.get n).state, attention := ((atHouseBlock inp s).alarms.get n).attention
      status := ((atHouseBlock inp s).grants.get n).status, level := ((atHouseBlock inp s).screens.get n).level
      lastFired := ((atHouseBlock inp s).cues.get n).lastFired
      applied := ((afterSound inp s).attenuations.get n).current + ((afterSound inp s).screens.get n).fadeAtt
      outOfService :=
        ((List.finRange 192).filter fun o =>
          decide (((atHouseBlock inp s).outputs.get o).screen = some n) &&
            !((atHouseBlock inp s).outputs.get o).sense.health.inService).length } := by
  have word := runSound_returnWord inp.periods (flagsRead inp s) (atHouseBlock inp s) (beforeSound inp s) n
  rw [← afterSound, State.returnWord, State.outputsOf, List.filter_filter] at word
  rw [word]
  simp only [Bool.and_comm, State.applied, Output.inService]

/-- What a house block, up to its sound, leaves of the state before it. -/
theorem afterSound_leaves : ∃ a, afterSound inp s = a ∧
    a = { s with
      ports := a.ports, screens := a.screens, lanes := a.lanes, blockCount := (beforeSound inp s).blockCount
      returnWords := a.returnWords, outputs := a.outputs, routes := a.routes, attenuations := a.attenuations
      badPages := (atHouseBlock inp s).badPages, selftest := (atHouseBlock inp s).selftest, meters := a.meters
      micRunning := a.micRunning, micEnergy := a.micEnergy, alarms := a.alarms, pool := a.pool, cues := a.cues
      booth := a.booth, noise := a.noise, blockPeriods := max 48 inp.periods, lateDraws := s.lateDraws + 1
      context := a.context, blockClosed := a.blockClosed, intervalTaken := a.intervalTaken } := by
  obtain ⟨a, after, frame⟩ := afterSound_frame inp s
  obtain ⟨u, close, closed⟩ := atHouseBlock_frame inp s
  obtain ⟨v, count, counted⟩ := countBlock_frame u
  have before : beforeSound inp s = v := (congrArg countBlock close).trans count
  refine ⟨a, after, ?_⟩
  rw [before] at frame ⊢
  rw [close]
  clear after before close count
  rw [frame]
  dsimp only
  rw [counted]
  dsimp only
  rw [closed]

theorem beforeSound_blockCount :
    (s.intervalTaken = false → (beforeSound inp s).blockCount = if s.blockCount + 1 = 1024 then 0 else s.blockCount + 1) ∧
    (s.intervalTaken = true → (beforeSound inp s).blockCount = s.blockCount) := by
  obtain ⟨early, few, last⟩ := beforeSound_counts inp s
  obtain ⟨-, count, taken, -⟩ := atHouseBlock_keeps inp s
  refine ⟨fun open_ => ?_, fun h => by rw [early h, count]⟩
  split
  · next due =>
    have event := last open_ due
    rw [exec_intervalEvent_due (count.symm ▸ due) (taken.trans open_)] at event
    obtain ⟨t, interval, frame⟩ := takeInterval_frame (atHouseBlock inp s)
    rw [interval] at event
    rw [← Host.Outcome.next.inj event]
    exact congrArg State.blockCount frame
  · next more => rw [few open_ more]

/-- The supply lines, read after the sound. -/
theorem houseBlock_supply (new : Supply) (hnew : new = if inp.supply1 = true then (if inp.supply2 = true then Supply.batteryLow else .generator)
        else if inp.supply2 = true then .battery else .mains) :
    (houseBlock inp s).budget = { s.budget with supply1 := inp.supply1, supply2 := inp.supply2, supply := new } ∧
    (new = s.budget.supply → readSupply inp.supply1 inp.supply2 (afterSound inp s) =
      { afterSound inp s with budget := (houseBlock inp s).budget }) ∧
    (new ≠ s.budget.supply → readSupply inp.supply1 inp.supply2 (afterSound inp s) =
      (recompute .supply { afterSound inp s with budget := (houseBlock inp s).budget }).notify
        (.site (.supply new s.budget.supply (houseBlock inp s).budget.available))) := by
  obtain ⟨a, after, frame⟩ := afterSound_leaves inp s
  have budget := congrArg State.budget frame
  have read := readSupply_budget inp.supply1 inp.supply2 a
  have parts := readSupply_cases inp.supply1 inp.supply2 a
  rw [← supplyOf_eq] at hnew
  subst hnew
  rw [houseBlock_budget, after]
  rw [budget] at read parts
  exact ⟨read, parts⟩

/-- What a house block leaves of a lane. -/
theorem houseBlock_lane (l : Fin 14) : ((houseBlock inp s).lanes.get l).sync = (s.lanes.get l).sync ∧
    ((houseBlock inp s).lanes.get l).accepted = (s.lanes.get l).accepted ∧
    ((houseBlock inp s).lanes.get l).skew = (s.lanes.get l).skew ∧ ((houseBlock inp s).lanes.get l).mask = (s.lanes.get l).mask ∧
    ((houseBlock inp s).lanes.get l).store =
      (if (s.lanes.get l).delivering = true then (s.lanes.get l).store.drop 1 else (s.lanes.get l).store) ∧
    ((houseBlock inp s).lanes.get l).slips =
      (if (s.lanes.get l).delivering = true ∧ (s.lanes.get l).store = [] then (s.lanes.get l).slips + 1
      else (s.lanes.get l).slips) := by
  have before := (beforeSound_keeps inp s).1 l
  rw [(houseBlock_keeps inp s).2, afterSound_lanes, before]
  split
  · exact Lane.read_keeps { s.lanes.get l with intervalSlips := 0 }
  · exact Lane.read_keeps (s.lanes.get l)

/-- What a house block leaves of an output. -/
theorem houseBlock_leaves (o : Fin 192) {old y : Output} (hold : old = s.outputs.get o) (hy : y = (houseBlock inp s).outputs.get o) :
    y = { old with
      path := y.path, line := y.line, running := y.running, energy := y.energy, blockScreen := y.blockScreen
      drive := y.drive, late := y.late, figures := y.figures, toneFlag := y.toneFlag, sensitivity := y.sensitivity } ∧
    y.path.map PathSection.coef = old.path.map PathSection.coef ∧ y.line.length = old.line.length ∧
    (s.intervalTaken = true ∨ s.blockCount + 1 ≠ 1024 → y.sensitivity = old.sensitivity) := by
  have tone := (houseBlock_keeps inp s).1 o
  obtain ⟨counted, sensitivity⟩ := (beforeSound_keeps inp s).2 o _ _ hold rfl
  obtain ⟨ran, path, line⟩ := (runSound_keeps inp.periods (flagsRead inp s) (atHouseBlock inp s) (beforeSound inp s)).2 o _ _ rfl rfl
  rw [← hy] at tone
  rw [← afterSound] at ran path line
  generalize (afterSound inp s).outputs.get o = z at tone ran path line
  generalize (beforeSound inp s).outputs.get o = x at counted sensitivity ran path line
  have kept : x.path = old.path ∧ x.line = old.line := by
    rw [counted]
    exact ⟨rfl, rfl⟩
  have coef : y.path = z.path ∧ y.line = z.line ∧ y.sensitivity = x.sensitivity := by
    rw [tone, ran]
    exact ⟨rfl, rfl, rfl⟩
  obtain ⟨samePath, sameLine, sameSensitivity⟩ := coef
  refine ⟨?_, by rw [samePath, path, kept.1], by rw [sameLine, line, kept.2],
    fun early => sameSensitivity.trans (sensitivity early)⟩
  rw [tone, ran, counted]

/-- An output's block belongs to the screen it is mapped to, and each sample period beyond the 48th has its drive sample. -/
theorem houseBlock_block (o : Fin 192) :
    ((houseBlock inp s).outputs.get o).blockScreen = ((houseBlock inp s).outputs.get o).screen ∧
    ((houseBlock inp s).outputs.get o).late.length = inp.periods - 48 := by
  obtain ⟨comp, level, applied, pilot, run⟩ :=
    soundRan_runs inp.periods (flagsRead inp s) (atHouseBlock inp s) (beforeSound inp s) o
  have output := houseBlock_output inp s o
  rw [run] at output
  generalize (houseBlock inp s).outputs.get o = y at output ⊢
  generalize soundSelected (flagsRead inp s) (atHouseBlock inp s) (beforeSound inp s) o = sel at output
  obtain ⟨-, late⟩ := runOutput_lengths sel (lateSamples (lateTone inp.periods (beforeSound inp s)) (beforeSound inp s).lateDraws o
    sel.kind) comp level applied pilot ((beforeSound inp s).outputs.get o)
  obtain ⟨_, _, _, _, _, _, frame⟩ := runOutput_frame sel (lateSamples (lateTone inp.periods (beforeSound inp s))
    (beforeSound inp s).lateDraws o sel.kind) comp level applied pilot ((beforeSound inp s).outputs.get o)
  refine ⟨?_, ?_⟩
  · rw [output, frame]
    rfl
  · rw [lateSamples_length, lateTone_length] at late
    rw [output]
    exact late

/-- The parts of the state that a house block leaves, or steps on, as a whole. -/
theorem houseBlock_whole : ∃ t, houseBlock inp s = t ∧ t.blockCount = (beforeSound inp s).blockCount ∧
    t.returnWords = (afterSound inp s).returnWords ∧ t.routes = (afterSound inp s).routes ∧
    t.lateDraws = s.lateDraws + 1 ∧ t.selftest = (atHouseBlock inp s).selftest ∧ t.badPages = (atHouseBlock inp s).badPages ∧
    t.noise = (afterSound inp s).noise ∧ t.blockPeriods = max 48 inp.periods ∧ t.evac = s.evac ∧ t.clock = s.clock ∧
    t.mark = s.mark ∧ t.layouts = s.layouts ∧ t.pagingStep = s.pagingStep ∧ t.toneGain = s.toneGain ∧
    t.micOffset = s.micOffset ∧ t.returnLanes = s.returnLanes := by
  obtain ⟨a, sound, frame⟩ := afterSound_leaves inp s
  obtain ⟨t, after, rest⟩ := houseBlock_after inp s
  refine ⟨t, after, ?_⟩
  rw [sound] at rest ⊢
  rw [rest]
  dsimp only
  clear rest after sound
  rw [frame]
  exact ⟨rfl, rfl, rfl, rfl, rfl, rfl, rfl, rfl, rfl, rfl, rfl, rfl, rfl, rfl, rfl, rfl⟩

end

end Sys2Proof.Machine
end

section
/-! PROOF. A house block in its order (O28). -/

open Sys2Proof Sys2Proof.Machine

/-- Settles O28: the parts of a house block, each by its lemma. -/
theorem houseBlockTaken : Obligations.HouseBlockTaken := by
  unfold Obligations.HouseBlockTaken
  refine ⟨ReturnWord.bytes_layout, rfl, rfl, fun _ => rfl, fun _ _ => rfl, fun _ _ _ => rfl, ?_, fun _ => rfl, fun _ _ => rfl,
    fun inp s => ⟨beforeClose inp s, atHouseBlock inp s, beforeSound inp s, afterSound inp s,
      readSupply inp.supply1 inp.supply2 (afterSound inp s), houseBlock inp s, exec_houseBlock inp s, ?_⟩⟩
  · rintro r v rfl
    rfl
  · obtain ⟨screens, fades, lines, first, later⟩ := atHouseBlock_parts inp s
    obtain ⟨idle, goes, ends, tests⟩ := atHouseBlock_selftest inp s
    obtain ⟨⟨x, before, frame⟩, close⟩ := atHouseBlock_close inp s
    obtain ⟨early, few, last⟩ := beforeSound_counts inp s
    obtain ⟨a, sound, soundFrame⟩ := afterSound_frame inp s
    obtain ⟨t, after, count, words, routes, rest⟩ := houseBlock_whole inp s
    obtain ⟨open_, taken⟩ := beforeSound_blockCount inp s
    refine ⟨screens, ?_, lines, first, later, idle, goes, ends, tests, ?_, close, rfl, early, few, last, rfl,
      (beforeSound_keeps inp s).1, rfl, ?_, afterSound_lanes inp s, afterSound_toneFlag inp s, ?_, afterSound_attenuation inp s,
      ?_, afterSound_applied inp s, afterSound_returnWord inp s, houseBlock_supply inp s, fun _ _ => rfl, houseBlock_eq inp s,
      ?_, ?_, (houseBlock_keeps inp s).2, houseBlock_lane inp s, ?_, ?_, ?_, fun o _ _ => houseBlock_leaves inp s o, ?_,
      fun o => (houseBlock_block inp s o).2, ?_⟩
    · rintro n c rfl
      rw [fades, Screen.houseFade_eq]
    · rw [before]
      exact frame
    · rw [sound]
      exact soundFrame
    · rintro n base rfl
      have current := runSound_current inp.periods (flagsRead inp s) (atHouseBlock inp s) (beforeSound inp s) n
      rw [baseTarget_eq _ rfl rfl] at current
      exact current
    · intro n f hf
      obtain ⟨route, figures⟩ := afterSound_route inp s n f hf
      exact ⟨route, State.routeFigures_eq _ n f figures⟩
    · exact fun h => (by rw [after, count] : (houseBlock inp s).blockCount = _).trans (open_ h)
    · exact fun h => (by rw [after, count] : (houseBlock inp s).blockCount = _).trans (taken h)
    · rw [after]
      exact fun n => ⟨by rw [words], ReturnWord.block_shape _⟩
    · intro o
      obtain ⟨place, sense, -⟩ := houseBlock_mapped inp s o
      obtain ⟨closedPlace, closedSense⟩ := beforeSound_output inp s o
      obtain ⟨-, -, -, kept⟩ := atHouseBlock_keeps inp s
      rw [kept o] at closedPlace closedSense
      exact ⟨(houseBlock_block inp s o).1, place.trans closedPlace, sense.trans closedSense⟩
    · exact (houseBlock_keeps inp s).1
    · exact fun n => ⟨by rw [after, routes], houseBlock_gainFigures inp s n⟩
    · rw [after]
      exact rest
end

section
/-! PROOF. The bodies of requests: what reads each, that it takes the whole of its bytes, and that a wrong presence byte or
count leaves no body that fits (11 R180, R183). -/

namespace Sys2Proof.Machine

/-! ### A reader and the parts it reads -/

variable {α β : Type}

/-- The reader takes the value from the bytes of the parts, whatever is behind them; a wrong presence byte among them
stops it; and with a wrong count it does not end where they end. -/
structure Coded (r : Reader α) (parts : List Part) (a : α) : Prop where
  reads : Reads r (bodyOf parts) a
  presence : ∀ front there back (b : Byte), parts = front ++ .presence there :: back → 1 < b.toNat →
    ∀ rest, r (bodyOf front ++ b :: (bodyOf back ++ rest)) = none
  count : ∀ front k back (b : Byte), parts = front ++ .count k :: back → b.toNat ≠ k →
    ∀ x, r (bodyOf front ++ b :: bodyOf back) ≠ some (x, [])

/-- Parts without a list. -/
def Unlisted (parts : List Part) : Prop := ∀ k, Part.count k ∉ parts

theorem Unlisted.append {p q : List Part} (hp : Unlisted p) (hq : Unlisted q) : Unlisted (p ++ q) := fun k h =>
  (List.mem_append.1 h).elim (hp k) (hq k)

theorem unlisted_fixed (n : Nat) (v : Int) : Unlisted (fixed n v) := fun k h => by
  cases List.mem_singleton.1 h

theorem unlisted_plain (l : List Byte) : Unlisted [.plain l] := fun k h => by
  cases List.mem_singleton.1 h

theorem unlisted_omittable (n : Nat) (v : Option Int) : Unlisted (omittable n v) := fun k h => by
  cases v <;> simp [omittable] at h

/-- One part of two runs of parts stands in the one or in the other. -/
theorem append_eq_cons_split {p q front back : List Part} {x : Part} (h : p ++ q = front ++ x :: back) :
    (∃ rest, p = front ++ x :: rest ∧ back = rest ++ q) ∨ ∃ before, front = p ++ before ∧ q = before ++ x :: back := by
  rcases List.append_eq_append_iff.1 h with ⟨before, hf, hq⟩ | ⟨within, hp, hq⟩
  · exact .inr ⟨before, hf, hq⟩
  · cases within with
    | nil => exact .inr ⟨[], by rw [List.append_nil, hp, List.append_nil], by rw [← List.nil_append q, ← hq, List.nil_append]⟩
    | cons y rest =>
      obtain ⟨rfl, hb⟩ := List.cons.inj hq
      exact .inl ⟨rest, hp, hb⟩

theorem mem_of_split {p front back : List Part} {x : Part} (h : p = front ++ x :: back) : x ∈ p := by
  rw [h]
  exact List.mem_append_right front List.mem_cons_self

/-- What stops the first reader stops the two. -/
theorem bind_none {r : Reader α} {f : α → Reader β} {b : List Byte} (h : r b = none) : (r >>= f) b = none := by
  rw [reader_bind, h]
  rfl

theorem bind_reads {r : Reader α} {f : α → Reader β} {b : List Byte} {a : α} (h : Reads r b a) (rest : List Byte) :
    (r >>= f) (b ++ rest) = f a rest := by
  rw [reader_bind, h]
  rfl

/-- Two readers, the first of a field that is no list. -/
theorem Coded.bind {r : Reader α} {f : α → Reader β} {p q : List Part} {a : α} {y : β} (h : Coded r p a) (flat : Unlisted p)
    (k : Coded (f a) q y) : Coded (r >>= f) (p ++ q) y where
  reads := by
    rw [bodyOf_append]
    exact h.reads.bind k.reads
  presence := by
    intro front there back b e wrong rest
    rcases append_eq_cons_split e with ⟨more, hp, rfl⟩ | ⟨before, rfl, hq⟩
    · refine bind_none ?_
      rw [bodyOf_append, List.append_assoc]
      exact h.presence front there more b hp wrong _
    · rw [bodyOf_append, List.append_assoc, bind_reads h.reads]
      exact k.presence before there back b hq wrong rest
  count := by
    intro front n back b e wrong x
    rcases append_eq_cons_split e with ⟨more, hp, -⟩ | ⟨before, rfl, hq⟩
    · exact absurd (mem_of_split hp) (flat n)
    · rw [bodyOf_append, List.append_assoc, bind_reads h.reads]
      exact k.count before n back b hq wrong x

/-- The last reader, and what is made of its value. -/
theorem Coded.last {r : Reader α} {p : List Part} {a : α} (g : α → β) (h : Coded r p a) :
    Coded (r >>= fun x => Pure.pure (g x)) p (g a) where
  reads := h.reads.last g
  presence := fun front there back b e wrong rest => bind_none (h.presence front there back b e wrong rest)
  count := by
    intro front n back b e wrong x he
    rw [reader_bind] at he
    cases hr : r (bodyOf front ++ b :: bodyOf back) with
    | none => rw [hr] at he; cases he
    | some v =>
      rw [hr] at he
      have ended : v.2 = [] := (Prod.mk.inj (Option.some.inj he)).2
      exact h.count front n back b e wrong v.1 (by rw [hr, ← ended])

/-- A field of plain bytes. -/
theorem Coded.plain {r : Reader α} {l : List Byte} {a : α} (h : Reads r l a) : Coded r [.plain l] a where
  reads := by
    rw [show bodyOf [.plain l] = l from List.append_nil l]
    exact h
  presence := fun front there back b e => by
    cases List.mem_singleton.1 (mem_of_split e)
  count := fun front k back b e => by
    cases List.mem_singleton.1 (mem_of_split e)

/-- A reader that begins with a presence byte, over parts that begin with it and have no other part of the kind. -/
theorem Coded.present {r : Reader α} {there : Bool} {rest : List Part} {a : α} (h : Reads r (bodyOf (.presence there :: rest)) a)
    (flat : ∀ x ∈ rest, ∃ l, x = .plain l)
    (stops : ∀ (b : Byte) l, 1 < b.toNat → r (b :: l) = none) : Coded r (.presence there :: rest) a where
  reads := h
  presence := by
    intro front _ back b e wrong more
    cases front with
    | nil => exact stops b _ wrong
    | cons y front =>
      obtain ⟨-, inside⟩ := List.cons.inj e
      obtain ⟨l, impossible⟩ := flat _ (mem_of_split inside)
      cases impossible
  count := by
    intro front k back b e
    cases front with
    | nil => cases (List.cons.inj e).1
    | cons y front =>
      obtain ⟨-, inside⟩ := List.cons.inj e
      obtain ⟨l, impossible⟩ := flat _ (mem_of_split inside)
      cases impossible

/-! ### The fields of requests -/

theorem codedNat {n v : Nat} (h : fitsBytes n v = true) : Coded (readNat n) (fixed n v) v :=
  .plain (readNat_reads h)

theorem codedInt {n : Nat} {v : Int} (h : fitsSigned n v = true) : Coded (readInt n) (fixed n v) v :=
  .plain (readInt_reads h)

theorem codedFlags (m : BitVec 16) : Coded readFlags (fixed 2 m.toNat) m := .plain (readFlags_reads m)

theorem readOpt_stops (r : Reader α) (b : Byte) (l : List Byte) (h : 1 < b.toNat) : readOpt r (b :: l) = none :=
  bind_none (readPresence_above h l)

theorem readMark_stops (r : Reader α) (b : Byte) (l : List Byte) (h : 1 < b.toNat) : readMark r (b :: l) = none :=
  bind_none (readPresence_above h l)

theorem codedOptNat {n : Nat} {v : Option Nat} (h : optFits n v = true) : Coded (readOpt (readNat n)) (omittableNat n v) v := by
  have reads := readOptNat_reads h
  cases v with
  | none => exact .present reads (fun _ h => by cases h) (readOpt_stops _)
  | some k =>
    exact .present reads (fun _ h => ⟨_, List.mem_singleton.1 h⟩) (readOpt_stops _)

theorem codedOptInt {n : Nat} {v : Option Int} (h : optFitsSigned n v = true) :
    Coded (readOpt (readInt n)) (omittable n v) v := by
  have reads := readOptInt_reads h
  cases v with
  | none => exact .present reads (fun _ h => by cases h) (readOpt_stops _)
  | some k =>
    exact .present reads (fun _ h => ⟨_, List.mem_singleton.1 h⟩) (readOpt_stops _)

/-- A target: an output, or the mark and a zero byte. -/
theorem codedTarget {target : Option Nat} (h : optFits 1 target = true) :
    Coded (readMark (readNat 1)) (targetParts target) target := by
  cases target with
  | none =>
    exact .present (readMark_none (readNat_reads (n := 1) (v := 0) rfl)) (fun _ h => ⟨_, List.mem_singleton.1 h⟩)
      (readMark_stops _)
  | some o =>
    refine .present ?_ (fun _ h => ⟨_, List.mem_singleton.1 h⟩) (readMark_stops _)
    have reads := readMark_some (readNat_reads (show fitsBytes 1 o = true from h))
    rw [← bodyOf_fixed] at reads
    exact reads

theorem unlisted_target (target : Option Nat) : Unlisted (targetParts target) := fun k h => by
  cases target <;> simp [targetParts, fixed] at h

/-- The place of an OUTPUT MAP, or the mark and two zero bytes. -/
def assignParts : Option (Nat × Nat) → List Part
  | some (n, r) => .presence true :: (fixed 1 n ++ fixed 1 r)
  | none => [.presence false, .plain [0#8, 0#8]]

/-- The reader of a place. -/
def readAssignPair : Reader (Nat × Nat) := do return (← readNat 1, ← readNat 1)

theorem readAssignPair_extends : Extends readAssignPair := (readNat_extends 1).bind fun _ => (readNat_extends 1).bind fun _ => .pure _

theorem readAssignPair_reads {n r : Nat} (hn : fitsBytes 1 n = true) (hr : fitsBytes 1 r = true) :
    Reads readAssignPair (beBytes 1 n ++ beBytes 1 r) (n, r) :=
  (readNat_reads hn).bind ((readNat_reads hr).last _)

theorem codedAssign {assign : Option (Nat × Nat)} (hn : optFits 1 (assign.map Prod.fst) = true)
    (hr : optFits 1 (assign.map Prod.snd) = true) : Coded (readMark readAssignPair) (assignParts assign) assign := by
  cases assign with
  | none =>
    exact .present (readMark_none (readAssignPair_reads (n := 0) (r := 0) rfl rfl))
      (fun _ h => ⟨_, List.mem_singleton.1 h⟩) (readMark_stops _)
  | some p =>
    obtain ⟨n, r⟩ := p
    refine .present ?_ (fun x h => ?_) (readMark_stops _)
    · have reads := readMark_some (readAssignPair_reads (n := n) (r := r) hn hr)
      rw [← bodyOf_fixed, ← bodyOf_fixed, ← bodyOf_append] at reads
      exact reads
    · rcases List.mem_append.1 h with h | h <;> exact ⟨_, List.mem_singleton.1 h⟩

/-! ### Lists -/

theorem readNat_one (b : Byte) (rest : List Byte) : readNat 1 (b :: rest) = some (b.toNat, rest) := by
  simp [readNat, readBytes, reader_bind, reader_pure, beNat]

theorem readList_cons (r : Reader α) (b : Byte) (rest : List Byte) : readList r (b :: rest) = readMany r b.toNat rest := by
  rw [readList, reader_bind, readNat_one]
  rfl

/-- More items than the bytes hold. -/
theorem readMany_short {r : Reader α} {item : α → List Byte} (ends : r [] = none) (m : Nat) {l : List α}
    (h : ∀ a ∈ l, Reads r (item a) a) : readMany r (l.length + (m + 1)) (l.map item).flatten = none := by
  induction l with
  | nil => exact bind_none (by rw [List.map_nil, List.flatten_nil, ends])
  | cons a l ih =>
    rw [List.length_cons, Nat.add_right_comm, List.map_cons, List.flatten_cons, readMany, bind_reads (h a List.mem_cons_self)]
    exact bind_none (ih fun b hb => h b (List.mem_cons_of_mem a hb))

/-- A list's count is the only part of its parts that is not plain, and comes first. -/
theorem counted_split {item : α → List Byte} {l : List α} {more front back : List Part} {x : Part}
    (flat : ∀ y ∈ more, ∃ b, y = .plain b) (e : counted item l ++ more = front ++ x :: back) :
    (x = .count l.length ∧ front = [] ∧ back = .plain (l.map item).flatten :: more) ∨ ∃ b, x = .plain b := by
  cases front with
  | nil =>
    obtain ⟨first, rest⟩ := List.cons.inj e
    exact .inl ⟨first.symm, rfl, rest.symm⟩
  | cons y front =>
    obtain ⟨-, inside⟩ := List.cons.inj e
    refine .inr ?_
    rcases List.mem_cons.1 (mem_of_split (p := .plain (l.map item).flatten :: more) inside) with rfl | member
    · exact ⟨_, rfl⟩
    · exact flat _ member

/-- A list at the end of a body. -/
theorem codedList {r : Reader α} {item : α → List Byte} {l : List α} (short : l.length < 256) (h : ∀ a ∈ l, Reads r (item a) a)
    (ends : r [] = none) (some_ : ∀ a ∈ l, item a ≠ []) : Coded (readList r) (counted item l) l where
  reads := by
    rw [bodyOf_counted]
    exact readList_reads short h
  presence := by
    intro front there back b e
    rcases counted_split (more := []) (fun _ h => by cases h) ((List.append_nil _).trans e) with ⟨impossible, -⟩ | ⟨_, impossible⟩ <;>
      cases impossible
  count := by
    intro front k back b e wrong x
    rcases counted_split (more := []) (fun _ h => by cases h) ((List.append_nil _).trans e) with ⟨same, rfl, rfl⟩ | ⟨_, impossible⟩
    · cases same
      have body : bodyOf [.plain (l.map item).flatten] = (l.map item).flatten := List.append_nil _
      rw [bodyOf_nil, List.nil_append, readList_cons, body]
      rcases Nat.lt_or_gt_of_ne wrong with few | many
      · have taken : Reads (readMany r (l.take b.toNat).length) ((l.take b.toNat).map item).flatten (l.take b.toNat) :=
          readMany_reads _ fun a ha => h a (List.mem_of_mem_take ha)
        have split : (l.map item).flatten = ((l.take b.toNat).map item).flatten ++ ((l.drop b.toNat).map item).flatten := by
          rw [← List.flatten_append, ← List.map_append, List.take_append_drop]
        rw [List.length_take_of_le few.le] at taken
        rw [split, taken]
        intro e
        have none_left : ((l.drop b.toNat).map item).flatten = [] := (Prod.mk.inj (Option.some.inj e)).2
        have first := List.getElem_mem few
        have dropped : l[b.toNat] ∈ l.drop b.toNat := by
          rw [List.drop_eq_getElem_cons few]
          exact List.mem_cons_self
        exact some_ _ first (List.flatten_eq_nil_iff.1 none_left _ (List.mem_map_of_mem dropped))
      · obtain ⟨m, hm⟩ := Nat.exists_eq_add_of_lt many
        rw [hm, Nat.add_assoc, readMany_short ends m h]
        exact nofun
    · cases impossible

/-- The reader takes w bytes, whatever they are. -/
def Takes (r : Reader α) (w : Nat) : Prop := ∀ b a x, r b = some (a, x) → b.length = w + x.length

theorem Takes.pure (a : α) : Takes (pure a) 0 := by
  intro b x y h
  cases h
  exact (Nat.zero_add _).symm

theorem Takes.bind {r : Reader α} {f : α → Reader β} {v w : Nat} (h : Takes r v) (k : ∀ a, Takes (f a) w) :
    Takes (r >>= f) (v + w) := by
  intro b a x e
  rw [reader_bind] at e
  cases hr : r b with
  | none => rw [hr] at e; cases e
  | some p =>
    rw [hr] at e
    rw [h b p.1 p.2 hr, k p.1 p.2 a x e, Nat.add_assoc]

theorem readBytes_takes (n : Nat) : Takes (readBytes n) n := by
  intro b a x h
  unfold readBytes at h
  split at h
  · next long =>
    cases h
    rw [List.length_drop]
    omega
  · cases h

theorem readNat_takes (n : Nat) : Takes (readNat n) n := (readBytes_takes n).bind fun _ => .pure _
theorem readInt_takes (n : Nat) : Takes (readInt n) n := (readBytes_takes n).bind fun _ => .pure _

theorem readMany_takes {r : Reader α} {w : Nat} (h : Takes r w) (n : Nat) : Takes (readMany r n) (n * w) := by
  induction n with
  | zero =>
    rw [Nat.zero_mul]
    exact .pure _
  | succ n ih =>
    have both : Takes (readMany r (n + 1)) (w + (n * w + 0)) := h.bind fun _ => ih.bind fun _ => .pure _
    rw [Nat.succ_mul, Nat.add_comm (n * w) w]
    exact both

theorem readSection_takes : Takes readSection 15 :=
  (readInt_takes 3).bind fun _ => (readInt_takes 3).bind fun _ => (readInt_takes 3).bind fun _ =>
    (readInt_takes 3).bind fun _ => (readInt_takes 3).bind fun _ => .pure _

theorem Section.body_length (c : Section) : c.body.length = 15 := by
  simp only [Section.body, List.length_append, beBytes_length]

theorem sections_length (l : List Section) : (l.map Section.body).flatten.length = l.length * 15 := by
  rw [List.length_flatten, List.map_map, show List.length ∘ Section.body = fun _ => 15 from funext Section.body_length,
    List.map_const', List.sum_replicate, smul_eq_mul]

/-- The sections of a TUNE LOAD with the delay behind them, which all sections' bytes being as many tells from them. -/
theorem codedSections {l : List Section} {d : Nat} (short : l.length < 256) (h : ∀ c ∈ l, c.wellFormed = true)
    (hd : fitsBytes 2 d = true) (g : List Section → Nat → β) :
    Coded (readList readSection >>= fun cs => readNat 2 >>= fun v => Pure.pure (g cs v)) (counted Section.body l ++ fixed 2 d)
      (g l d) where
  reads := by
    rw [bodyOf_append, bodyOf_counted, bodyOf_fixed]
    exact (readList_reads short fun c hc => readSection_reads (h c hc)).bind ((readNat_reads hd).last _)
  presence := by
    intro front there back b e
    rcases counted_split (fun _ h => ⟨_, List.mem_singleton.1 h⟩) e with ⟨impossible, -⟩ | ⟨_, impossible⟩ <;> cases impossible
  count := by
    intro front k back b e wrong x
    rcases counted_split (fun _ h => ⟨_, List.mem_singleton.1 h⟩) e with ⟨same, rfl, rfl⟩ | ⟨_, impossible⟩
    · cases same
      intro taken
      have bytes : bodyOf [.plain (l.map Section.body).flatten, .plain (beBytes 2 d)] =
          (l.map Section.body).flatten ++ beBytes 2 d := by
        rw [bodyOf_cons, show bodyOf [.plain (beBytes 2 d)] = beBytes 2 d from List.append_nil _]
        rfl
      rw [bodyOf_nil, List.nil_append, reader_bind, readList_cons, bytes] at taken
      have whole : (readMany readSection b.toNat >>= fun cs => readNat 2 >>= fun v => Pure.pure (g cs v))
          ((l.map Section.body).flatten ++ beBytes 2 d) = some (x, []) := taken
      have length := ((readMany_takes readSection_takes b.toNat).bind fun _ => (readNat_takes 2).bind fun _ => .pure _) _ _ _ whole
      rw [List.length_append, sections_length, beBytes_length, List.length_nil] at length
      omega
    · cases impossible

end Sys2Proof.Machine
end

section
/-! PROOF. Every request from its body, and no request from a body that ends early, goes on, or has a wrong presence byte or
count (11 R180, R183). -/

namespace Sys2Proof.Machine

/-! ### The groups of fields -/

theorem readOptNat_extends (n : Nat) : Extends (readOpt (readNat n)) := readOpt_extends (readNat_extends n)
theorem readOptInt_extends (n : Nat) : Extends (readOpt (readInt n)) := readOpt_extends (readInt_extends n)

theorem readScreenSel_extends : Extends readScreenSel :=
  (readOptNat_extends 1).bind fun _ => (readOptNat_extends 2).bind fun _ => (readOptNat_extends 2).bind fun _ =>
    (readOptNat_extends 1).bind fun _ => (readOptNat_extends 1).bind fun _ => (readOptNat_extends 2).bind fun _ =>
      (readOptNat_extends 1).bind fun _ => (readOptNat_extends 1).bind fun _ => (readOptNat_extends 1).bind fun _ => .pure _

theorem readAlarmSel_extends : Extends readAlarmSel :=
  (readOptNat_extends 1).bind fun _ => (readOptNat_extends 1).bind fun _ => (readOptNat_extends 1).bind fun _ =>
    (readOptNat_extends 1).bind fun _ => (readOptNat_extends 2).bind fun _ => (readOptNat_extends 1).bind fun _ =>
      (readOptNat_extends 1).bind fun _ => (readOptNat_extends 1).bind fun _ => (readOptNat_extends 1).bind fun _ => .pure _

theorem readSenseSel_extends : Extends readSenseSel :=
  (readOptNat_extends 2).bind fun _ => (readOptNat_extends 2).bind fun _ => (readOptNat_extends 2).bind fun _ =>
    (readOptNat_extends 2).bind fun _ => .pure _

theorem readBudgetSel_extends : Extends readBudgetSel :=
  (readOptNat_extends 2).bind fun _ => (readOptNat_extends 2).bind fun _ => (readOptNat_extends 2).bind fun _ =>
    (readOptNat_extends 2).bind fun _ => (readOptNat_extends 2).bind fun _ => .pure _

theorem unlisted_omittableNat (n : Nat) (v : Option Nat) : Unlisted (omittableNat n v) := unlisted_omittable n _

theorem codedScreenSel {c : ScreenSel} (h : c.wellFormed = true) : Coded readScreenSel
    (omittableNat 1 c.priority ++ (omittableNat 2 c.fullDraw ++ (omittableNat 2 c.reducedDraw ++ (omittableNat 1 c.shedAtt ++
      (omittableNat 1 c.fadeRate ++ (omittableNat 2 c.lipSync ++ (omittableNat 1 c.permit ++ (omittableNat 1 c.laneLevel ++
        omittableNat 1 c.defaultLayout)))))))) c := by
  simp only [ScreenSel.wellFormed, Bool.and_eq_true] at h
  obtain ⟨⟨⟨⟨⟨⟨⟨⟨priority, full⟩, reduced⟩, shed⟩, rate⟩, sync⟩, permit⟩, level⟩, layout⟩ := h
  exact (codedOptNat priority).bind (unlisted_omittableNat _ _) <| (codedOptNat full).bind (unlisted_omittableNat _ _) <|
    (codedOptNat reduced).bind (unlisted_omittableNat _ _) <| (codedOptNat shed).bind (unlisted_omittableNat _ _) <|
    (codedOptNat rate).bind (unlisted_omittableNat _ _) <| (codedOptNat sync).bind (unlisted_omittableNat _ _) <|
    (codedOptNat permit).bind (unlisted_omittableNat _ _) <| (codedOptNat level).bind (unlisted_omittableNat _ _) <|
    (codedOptNat layout).last _

theorem codedAlarmSel {c : AlarmSel} (h : c.wellFormed = true) : Coded readAlarmSel
    (omittableNat 1 c.peakLimit ++ (omittableNat 1 c.loudLimit ++ (omittableNat 1 c.silenceFloor ++
      (omittableNat 1 c.silenceRun ++ (omittableNat 2 c.clipLimit ++ (omittableNat 1 c.raiseHold ++
        (omittableNat 1 c.clearHold ++ (omittableNat 1 c.autoTrim ++ omittableNat 1 c.trimMax)))))))) c := by
  simp only [AlarmSel.wellFormed, Bool.and_eq_true] at h
  obtain ⟨⟨⟨⟨⟨⟨⟨⟨peak, loud⟩, floor⟩, run⟩, clip⟩, raise⟩, clear_⟩, trim⟩, most⟩ := h
  exact (codedOptNat peak).bind (unlisted_omittableNat _ _) <| (codedOptNat loud).bind (unlisted_omittableNat _ _) <|
    (codedOptNat floor).bind (unlisted_omittableNat _ _) <| (codedOptNat run).bind (unlisted_omittableNat _ _) <|
    (codedOptNat clip).bind (unlisted_omittableNat _ _) <| (codedOptNat raise).bind (unlisted_omittableNat _ _) <|
    (codedOptNat clear_).bind (unlisted_omittableNat _ _) <| (codedOptNat trim).bind (unlisted_omittableNat _ _) <|
    (codedOptNat most).last _

theorem codedSenseSel {c : SenseSel} (h : c.wellFormed = true) : Coded readSenseSel
    (omittableNat 2 c.shortMax ++ (omittableNat 2 c.lowDrift ++ (omittableNat 2 c.highDrift ++ omittableNat 2 c.openMin))) c := by
  simp only [SenseSel.wellFormed, Bool.and_eq_true] at h
  obtain ⟨⟨⟨short, low⟩, high⟩, open_⟩ := h
  exact (codedOptNat short).bind (unlisted_omittableNat _ _) <| (codedOptNat low).bind (unlisted_omittableNat _ _) <|
    (codedOptNat high).bind (unlisted_omittableNat _ _) <| (codedOptNat open_).last _

theorem codedBudgetSel {c : BudgetSel} (h : c.wellFormed = true) : Coded readBudgetSel
    (omittableNat 2 c.mains ++ (omittableNat 2 c.generator ++ (omittableNat 2 c.battery ++ (omittableNat 2 c.batteryLow ++
      omittableNat 2 c.reserve)))) c := by
  simp only [BudgetSel.wellFormed, Bool.and_eq_true] at h
  obtain ⟨⟨⟨⟨mains, generator⟩, battery⟩, low⟩, reserve⟩ := h
  exact (codedOptNat mains).bind (unlisted_omittableNat _ _) <| (codedOptNat generator).bind (unlisted_omittableNat _ _) <|
    (codedOptNat battery).bind (unlisted_omittableNat _ _) <| (codedOptNat low).bind (unlisted_omittableNat _ _) <|
    (codedOptNat reserve).last _

theorem readRoleSource_extends : Extends readRoleSource := by
  refine (readNat_extends 1).bind fun _ => (readNat_extends 1).bind fun form => ?_
  split
  · exact .pure _
  · exact (readNat_extends 1).bind fun _ => (readInt_extends 1).bind fun _ => .pure _
  · exact (readNat_extends 1).bind fun _ => (readInt_extends 1).bind fun _ => (readNat_extends 1).bind fun _ =>
      (readInt_extends 1).bind fun _ => .pure _
  · exact .fail

theorem RoleSource.body_ne_nil (r : RoleSource) : r.body ≠ [] := by
  rw [RoleSource.body, beBytes_succ]
  exact List.cons_ne_nil _ _

theorem readTrigger_extends : Extends readTrigger := by
  refine (readNat_extends 1).bind fun form => ?_
  split
  · exact (readNat_extends 3).bind fun _ => .pure _
  · exact (readNat_extends 1).bind fun _ => .pure _
  · exact (readNat_extends 1).bind fun _ => .pure _
  · exact (readNat_extends 1).bind fun _ => .pure _
  · exact .fail

theorem readAction_extends : Extends readAction := by
  refine (readNat_extends 1).bind fun form => ?_
  split
  · exact (readNat_extends 1).bind fun _ => .pure _
  · exact (readNat_extends 1).bind fun _ => .pure _
  · exact (readNat_extends 1).bind fun _ => (readNat_extends 2).bind fun _ => .pure _
  · exact (readNat_extends 1).bind fun _ => .pure _
  · exact .pure _
  · exact .fail

theorem readLineCommand_extends : Extends readLineCommand := by
  refine (readNat_extends 1).bind fun form => ?_
  split
  · exact .pure _
  · exact .pure _
  · exact (readNat_extends 2).bind fun _ => .pure _
  · exact .fail

/-- The form byte of a value, and the reader it picks. -/
theorem readForm_reads {β : Type} {f : Nat → Reader β} {b : Byte} {c : List Byte} {y : β} (k : Reads (f b.toNat) c y) :
    Reads (readNat 1 >>= f) (b :: c) y := fun rest => by
  rw [List.cons_append, reader_bind, readNat_one]
  exact k rest

theorem readTrigger_reads {t : RawTrigger} (h : t.wellFormed = true) : Reads readTrigger t.body t := by
  cases t with
  | time t => exact readForm_reads (b := 0#8) ((readNat_reads h).last _)
  | state c => exact readForm_reads (b := 1#8) ((readNat_reads h).last _)
  | alarm c => exact readForm_reads (b := 2#8) ((readNat_reads h).last _)
  | call n => exact readForm_reads (b := 3#8) ((readNat_reads h).last _)

theorem readAction_reads {a : RawAction} (h : a.wellFormed = true) : Reads readAction a.body a := by
  cases a with
  | lineOn l => exact readForm_reads (b := 0#8) ((readNat_reads h).last _)
  | lineOff l => exact readForm_reads (b := 1#8) ((readNat_reads h).last _)
  | linePulse l n =>
    obtain ⟨line, length⟩ := Bool.and_eq_true_iff.1 h
    exact readForm_reads (b := 2#8) ((readNat_reads line).bind ((readNat_reads length).last _))
  | houseLevel v => exact readForm_reads (b := 3#8) ((readNat_reads h).last _)
  | noticeOnly => exact readForm_reads (b := 4#8) (.pure _)

theorem readLineCommand_reads {c : LineCommand} (h : c.wellFormed = true) : Reads readLineCommand c.body c := by
  cases c with
  | on => exact readForm_reads (b := 0#8) (.pure _)
  | off => exact readForm_reads (b := 1#8) (.pure _)
  | pulse n => exact readForm_reads (b := 2#8) ((readNat_reads h).last _)

/-- The bytes of a label, one by one. -/
def readLabelByte : Reader Byte := do return BitVec.ofNat 8 (← readNat 1)

theorem readLabelByte_extends : Extends readLabelByte := (readNat_extends 1).bind fun _ => .pure _

theorem readLabelByte_reads (b : Byte) : Reads readLabelByte [b] b := fun rest => by
  rw [readLabelByte, List.cons_append, reader_bind, readNat_one, List.nil_append]
  exact congrArg (fun x => some (x, rest)) (BitVec.ofNat_toNat 8 b)

/-! ### The requests -/

/-- The request is what a reader makes of its parts; of a body that does not fit it makes one of the same kind. -/
def RequestCoded (i : Instr) (h : Header) (kind : Nat) : Prop :=
  ∃ (α : Type) (r : Reader α) (a zero : α) (mk : Header → α → Instr) (parts : List Part), i.parts = parts ∧ Coded r parts a ∧
    Extends r ∧ (∀ body, readRequest h kind body = fit h body r zero mk) ∧ mk h a = i ∧
    requestOf (mk { h with fits := false } zero) = some ({ h with fits := false }, kind)

section
variable {h : Header} {kind k : Nat}

/-- A request of one number. -/
theorem RequestCoded.number {mk : Header → Nat → Instr} {n : Nat} (wf : fitsBytes k n = true) (parts : (mk h n).parts = fixed k n)
    (read : ∀ body, readRequest h kind body = fit h body (readNat k) 0 mk) (named : ∀ g, requestOf (mk g 0) = some (g, kind)) :
    RequestCoded (mk h n) h kind :=
  ⟨_, _, n, 0, mk, _, parts, codedNat wf, readNat_extends k, read, rfl, named _⟩

/-- A request of a number and something more. -/
theorem RequestCoded.numbered {α : Type} {mk : Header → Nat → α → Instr} {n : Nat} {r : Reader α} {a zero : α} {more : List Part}
    (wf : fitsBytes 1 n = true) (coded : Coded r more a) (behind : Extends r) (parts : (mk h n a).parts = fixed 1 n ++ more)
    (read : ∀ body, readRequest h kind body =
      fit h body (readNat 1 >>= fun n => r >>= fun a => pure (n, a)) (0, zero) fun g f => mk g f.1 f.2)
    (named : ∀ g, requestOf (mk g 0 zero) = some (g, kind)) : RequestCoded (mk h n a) h kind :=
  ⟨_, _, (n, a), (0, zero), fun g f => mk g f.1 f.2, _, parts, (codedNat wf).bind (unlisted_fixed 1 n) (coded.last _),
    (readNat_extends 1).bind fun _ => behind.bind fun _ => .pure _, read, rfl, named _⟩

/-- A request without fields. -/
theorem RequestCoded.empty {mk : Header → Instr} (fits : h.fits = true) (parts : (mk h).parts = [.plain [0#8]])
    (read : ∀ body, readRequest h kind body = fitEmpty h body mk) (named : ∀ g, requestOf (mk g) = some (g, kind)) :
    RequestCoded (mk h) h kind := by
  refine ⟨_, readBytes 1, [0#8], [], fun g _ => mk g, _, parts, .plain (readBytes_reads 1 _ rfl), readBytes_extends 1, fun body => ?_,
    rfl, named _⟩
  have same : h = { h with fits := true } := by rw [← fits]
  rw [read, fitEmpty, fit, readBytes]
  cases body with
  | nil => rfl
  | cons b rest =>
    cases rest with
    | nil => exact congrArg mk same.symm
    | cons c rest => rfl

end

theorem requestCoded {i : Instr} {h : Header} {kind : Nat} (e : requestOf i = some (h, kind)) (fits : h.fits = true)
    (wf : i.wellFormed = true) : RequestCoded i h kind := by
  cases i with
  | enable g n | disable g n | hold g n | calibrate g n | free g n | start g n | pause g n | resume g n | screenQuery g n
  | laneQuery g n | outputQuery g n | layoutQuery g n | routeQuery g n | gainQuery g n | storeQuery g n | alarmQuery g n
  | exclude g n | includeOutput g n | healthQuery g n | cueClear g n | lineQuery g n | abort g n | markSet g n =>
    cases e
    exact .number wf rfl (fun _ => rfl) fun _ => rfl
  | powerQuery g | portStatus g | markQuery g | restart g =>
    cases e
    exact .empty fits rfl (fun _ => rfl) fun _ => rfl
  | level g n v | tuneQuery g n v | cueRemove g n v | cueQuery g n v =>
    cases e
    obtain ⟨hn, hv⟩ := Bool.and_eq_true_iff.1 wf
    exact .numbered hn (codedNat hv) (readNat_extends _) rfl (fun _ => rfl) fun _ => rfl
  | trim g o v =>
    cases e
    obtain ⟨ho, hv⟩ := Bool.and_eq_true_iff.1 wf
    exact .numbered ho (codedInt hv) (readInt_extends 1) rfl (fun _ => rfl) fun _ => rfl
  | endShow g n v | levelQuery g n v =>
    cases e
    obtain ⟨hn, hv⟩ := Bool.and_eq_true_iff.1 wf
    exact .numbered hn (codedOptNat hv) (readOptNat_extends 1) rfl (fun _ => rfl) fun _ => rfl
  | offsetSet g n v =>
    cases e
    obtain ⟨hn, hv⟩ := Bool.and_eq_true_iff.1 wf
    exact .numbered hn (codedOptInt hv) (readOptInt_extends 1) rfl (fun _ => rfl) fun _ => rfl
  | screenSet g n c =>
    cases e
    obtain ⟨hn, hc⟩ := Bool.and_eq_true_iff.1 wf
    refine .numbered hn (codedScreenSel hc) readScreenSel_extends ?_ (fun _ => rfl) fun _ => rfl
    simp only [Instr.parts, List.append_assoc]
  | alarmSet g n c =>
    cases e
    obtain ⟨hn, hc⟩ := Bool.and_eq_true_iff.1 wf
    refine .numbered hn (codedAlarmSel hc) readAlarmSel_extends ?_ (fun _ => rfl) fun _ => rfl
    simp only [Instr.parts, List.append_assoc]
  | senseSet g o c =>
    cases e
    obtain ⟨ho, hc⟩ := Bool.and_eq_true_iff.1 wf
    refine .numbered ho (codedSenseSel hc) readSenseSel_extends ?_ (fun _ => rfl) fun _ => rfl
    simp only [Instr.parts, List.append_assoc]
  | budgetSet g c =>
    cases e
    refine ⟨_, _, c, BudgetSel.zero, .budgetSet, _, ?_, codedBudgetSel wf, readBudgetSel_extends, fun _ => rfl, rfl, rfl⟩
    simp only [Instr.parts, List.append_assoc]
  | laneSet g l mask =>
    cases e
    exact .numbered wf (codedFlags mask) readFlags_extends rfl (fun _ => rfl) fun _ => rfl
  | outputMap g o assign =>
    cases e
    obtain ⟨both, hr⟩ := Bool.and_eq_true_iff.1 wf
    obtain ⟨ho, hn⟩ := Bool.and_eq_true_iff.1 both
    refine .numbered ho (codedAssign hn hr) (readMark_extends readAssignPair_extends) ?_ (fun _ => rfl) fun _ => rfl
    cases assign <;> rfl
  | layoutSet g c sources =>
    cases e
    obtain ⟨both, each⟩ := Bool.and_eq_true_iff.1 wf
    obtain ⟨hc, short⟩ := Bool.and_eq_true_iff.1 both
    refine .numbered hc (codedList (of_decide_eq_true short) (fun r hr => ?_) rfl
      fun r _ => RoleSource.body_ne_nil r) (readList_extends readRoleSource_extends) rfl (fun _ => rfl) fun _ => rfl
    obtain ⟨role, source⟩ := Bool.and_eq_true_iff.1 (List.all_eq_true.1 each r hr)
    exact readRoleSource_reads role source
  | pagingSet g v | micSet g v =>
    cases e
    exact ⟨_, _, v, none, _, _, rfl, codedOptInt wf, readOptInt_extends 1, fun _ => rfl, rfl, rfl⟩
  | calibrationQuery g n =>
    cases e
    exact ⟨_, _, n, none, _, _, rfl, codedOptNat wf, readOptNat_extends 1, fun _ => rfl, rfl, rfl⟩
  | measure g n target =>
    cases e
    obtain ⟨hn, ht⟩ := Bool.and_eq_true_iff.1 wf
    exact .numbered hn (codedTarget ht) (readMark_extends (readNat_extends 1)) rfl (fun _ => rfl) fun _ => rfl
  | subscribe g kinds screens =>
    cases e
    exact ⟨_, _, (kinds, screens), (0, 0), fun g f => .subscribe g f.1 f.2, _, rfl,
      (codedFlags kinds).bind (unlisted_fixed _ _) ((codedFlags screens).last _),
      readFlags_extends.bind fun _ => readFlags_extends.bind fun _ => .pure _, fun _ => rfl, rfl, rfl⟩
  | lineSet g n l command =>
    cases e
    obtain ⟨both, hc⟩ := Bool.and_eq_true_iff.1 wf
    obtain ⟨hn, hl⟩ := Bool.and_eq_true_iff.1 both
    refine ⟨_, _, (n, l, command), (0, 0, .off), fun g f => .lineSet g f.1 f.2.1 f.2.2, _, ?_,
      (codedNat hn).bind (unlisted_fixed _ _) ((codedNat hl).bind (unlisted_fixed _ _) ((Coded.plain (readLineCommand_reads hc)).last _)),
      (readNat_extends 1).bind fun _ => (readNat_extends 1).bind fun _ => readLineCommand_extends.bind fun _ => .pure _,
      fun _ => rfl, rfl, rfl⟩
    simp only [Instr.parts, List.append_assoc]
  | lineEvacSet g n l setting =>
    cases e
    obtain ⟨both, hs⟩ := Bool.and_eq_true_iff.1 wf
    obtain ⟨hn, hl⟩ := Bool.and_eq_true_iff.1 both
    refine ⟨_, _, (n, l, setting), (0, 0, 0), fun g f => .lineEvacSet g f.1 f.2.1 f.2.2, _, ?_,
      (codedNat hn).bind (unlisted_fixed _ _) ((codedNat hl).bind (unlisted_fixed _ _) ((codedNat hs).last _)),
      (readNat_extends 1).bind fun _ => (readNat_extends 1).bind fun _ => (readNat_extends 1).bind fun _ => .pure _,
      fun _ => rfl, rfl, rfl⟩
    simp only [Instr.parts, List.append_assoc]
  | tone g n target action gain =>
    cases e
    obtain ⟨three, hg⟩ := Bool.and_eq_true_iff.1 wf
    obtain ⟨both, ha⟩ := Bool.and_eq_true_iff.1 three
    obtain ⟨hn, ht⟩ := Bool.and_eq_true_iff.1 both
    refine ⟨_, _, (n, target, action, gain), (0, none, 0, none), fun g f => .tone g f.1 f.2.1 f.2.2.1 f.2.2.2, _, ?_,
      (codedNat hn).bind (unlisted_fixed _ _) ((codedTarget ht).bind (unlisted_target _)
        ((codedNat ha).bind (unlisted_fixed _ _) ((codedOptInt hg).last _))),
      (readNat_extends 1).bind fun _ => (readMark_extends (readNat_extends 1)).bind fun _ => (readNat_extends 1).bind fun _ =>
        (readOptInt_extends 1).bind fun _ => .pure _,
      fun _ => rfl, rfl, rfl⟩
    simp only [Instr.parts, List.append_assoc]
  | tuneLoad g o gain p sections delay =>
    cases e
    obtain ⟨five, hd⟩ := Bool.and_eq_true_iff.1 wf
    obtain ⟨four, each⟩ := Bool.and_eq_true_iff.1 five
    obtain ⟨three, short⟩ := Bool.and_eq_true_iff.1 four
    obtain ⟨both, hp⟩ := Bool.and_eq_true_iff.1 three
    obtain ⟨ho, hg⟩ := Bool.and_eq_true_iff.1 both
    refine ⟨_, _, (o, gain, p, sections, delay), (0, 0, 0, [], 0),
      fun g f => .tuneLoad g f.1 f.2.1 f.2.2.1 f.2.2.2.1 f.2.2.2.2, _, ?_,
      (codedNat ho).bind (unlisted_fixed _ _) ((codedInt hg).bind (unlisted_fixed _ _) ((codedNat hp).bind (unlisted_fixed _ _)
        (codedSections (of_decide_eq_true short) (List.all_eq_true.1 each) hd fun cs d => (o, gain, p, cs, d)))),
      (readNat_extends 1).bind fun _ => (readInt_extends 1).bind fun _ => (readNat_extends 1).bind fun _ =>
        (readList_extends readSection_extends).bind fun _ => (readNat_extends 2).bind fun _ => .pure _,
      fun _ => rfl, rfl, rfl⟩
    simp only [Instr.parts, List.append_assoc]
  | cueAdd g n trigger action chase label =>
    cases e
    obtain ⟨four, short⟩ := Bool.and_eq_true_iff.1 wf
    obtain ⟨three, hc⟩ := Bool.and_eq_true_iff.1 four
    obtain ⟨both, ha⟩ := Bool.and_eq_true_iff.1 three
    obtain ⟨hn, ht⟩ := Bool.and_eq_true_iff.1 both
    refine ⟨_, _, (n, trigger, action, chase, label), (0, .time 0, .noticeOnly, 0, []),
      fun g f => .cueAdd g f.1 f.2.1 f.2.2.1 f.2.2.2.1 f.2.2.2.2, _, ?_,
      (codedNat hn).bind (unlisted_fixed _ _) ((Coded.plain (readTrigger_reads ht)).bind (unlisted_plain _)
        ((Coded.plain (readAction_reads ha)).bind (unlisted_plain _) ((codedNat hc).bind (unlisted_fixed _ _)
          ((codedList (item := fun b => [b]) (of_decide_eq_true short) (fun b _ => readLabelByte_reads b) rfl
            fun _ _ => List.cons_ne_nil _ _).last _)))),
      (readNat_extends 1).bind fun _ => readTrigger_extends.bind fun _ => readAction_extends.bind fun _ =>
        (readNat_extends 1).bind fun _ => (readList_extends readLabelByte_extends).bind fun _ => .pure _,
      fun _ => rfl, rfl, rfl⟩
    simp only [Instr.parts, List.append_assoc, List.cons_append, List.nil_append]
  | _ => cases e

end Sys2Proof.Machine
end

section
/-! PROOF. Frames on the line, the requests they carry, the receiver and the transmitter (11 R179 to R186, R188). -/

namespace Sys2Proof.Machine

/-! ### Requests from their bodies -/

section
variable {i : Instr} {h : Header} {kind : Nat}

theorem readRequest_body (e : requestOf i = some (h, kind)) (fits : h.fits = true) (wf : i.wellFormed = true) :
    readRequest h kind i.body = i := by
  obtain ⟨_, r, a, zero, mk, parts, hp, coded, -, read, made, -⟩ := requestCoded e fits wf
  rw [read, Instr.body, hp, fit_reads zero mk coded.reads, made]

theorem readRequest_misfit (e : requestOf i = some (h, kind)) (fits : h.fits = true) (wf : i.wellFormed = true)
    {front back : List Byte} (hb : back ≠ []) (hf : i.body = front ++ back ∨ front = i.body ++ back) :
    requestOf (readRequest h kind front) = some ({ h with fits := false }, kind) := by
  obtain ⟨_, r, a, zero, mk, parts, hp, coded, behind, read, -, named⟩ := requestCoded e fits wf
  rw [Instr.body, hp] at hf
  rw [read, fit_misfit zero mk coded.reads behind hb hf, named]

/-- A body that no reader takes whole. -/
theorem fit_none {α : Type} {r : Reader α} {b : List Byte} {zero : α} {mk : Header → α → Instr} (hr : ∀ x, r b ≠ some (x, [])) :
    fit h b r zero mk = mk { h with fits := false } zero := by
  unfold fit
  split
  · next a e => exact absurd e (hr a)
  · rfl

theorem readRequest_spoiled (e : requestOf i = some (h, kind)) (fits : h.fits = true) (wf : i.wellFormed = true)
    {front back : List Part} {part : Part} {b : Byte} (hp : i.parts = front ++ part :: back)
    (wrong : (∃ there, part = .presence there) ∧ 1 < b.toNat ∨ (∃ k, part = .count k ∧ b.toNat ≠ k)) :
    requestOf (readRequest h kind ((front.map Part.bytes).flatten ++ b :: (back.map Part.bytes).flatten)) =
      some ({ h with fits := false }, kind) := by
  obtain ⟨_, r, a, zero, mk, parts, rfl, coded, -, read, -, named⟩ := requestCoded e fits wf
  refine (congrArg requestOf ((read _).trans (fit_none fun x => ?_))).trans named
  rcases wrong with ⟨⟨there, rfl⟩, above⟩ | ⟨k, rfl, other⟩
  · have stopped := coded.presence front there back b hp above []
    rw [List.append_nil] at stopped
    exact fun e => by cases stopped.symm.trans e
  · exact coded.count front k back b hp other x

theorem readRequest_unknown {body : List Byte} (hk : kind = 0 ∨ 52 < kind) :
    readRequest h kind body = .unknownRequest h kind := by
  rcases hk with rfl | above
  · rfl
  · obtain ⟨k, rfl⟩ := Nat.exists_eq_add_of_le above
    rw [Nat.add_comm]
    rfl

end

/-! ### Bytes and frames -/

theorem LineByte.val_bit (x : LineByte) {k : Nat} (hk : k < 8) : x.val.getLsbD k = x.bits.getLsbD (k + 1) := by
  rw [LineByte.val, BitVec.getLsbD_extractLsb', Nat.add_comm, decide_eq_true hk, Bool.true_and]

theorem sentByte_spells (b : Byte) : (sentByte b).bits.getLsbD 0 = false ∧ (sentByte b).val = b ∧ (sentByte b).stop = true := by
  obtain ⟨i⟩ := b
  revert i
  decide +kernel

theorem frameReceived_wellFormed (port : Fin 4) (bytes : List LineByte) : (Instr.frameReceived port bytes).wellFormed = true ↔
    bytes ≠ [] ∧ ∀ x ∈ bytes, x.bits.getLsbD 0 = false := by
  unfold Instr.wellFormed
  rw [Bool.and_eq_true_iff, Bool.not_eq_true', List.isEmpty_eq_false_iff, List.all_eq_true]
  simp only [Bool.not_eq_true']

/-- A frame in its bytes: the start mark, the length, the bytes it is given, and the check over what is between. -/
theorem frame_bytes (second tag : Byte) (kind : Nat) (body : List Byte) : ∃ length hi lo : Byte,
    frame second tag kind body = 0x7E#8 :: (length :: second :: tag :: BitVec.ofNat 8 kind :: body) ++ [hi, lo] ∧
    (body.length ≤ 247 → length.toNat = body.length + 3) ∧
    (crc (length :: second :: tag :: BitVec.ofNat 8 kind :: body)).toNat = 256 * hi.toNat + lo.toNat := by
  obtain ⟨hi, lo, check, value⟩ := checkBytes_toNat ((if body.length ≤ 247 then BitVec.ofNat 8 (body.length + 3)
    else Config.oversizeLength body.length) :: second :: tag :: BitVec.ofNat 8 kind :: body)
  refine ⟨_, hi, lo, by rw [← check]; rfl, fun short => ?_, value⟩
  rw [if_pos short, BitVec.toNat_ofNat]
  exact Nat.mod_eq_of_lt (by omega)

theorem flagByte (b : Bool) : BitVec.ofNat 8 b.toNat = if b = true then 1#8 else 0#8 := by cases b <;> rfl

theorem beBytes_zero_value (n : Nat) : beBytes n 0 = List.replicate n 0#8 := by
  induction n with
  | zero => rfl
  | succ n ih =>
    rw [beBytes_succ, ih, Int.zero_ediv]
    rfl

theorem flags_bytes (m : BitVec 16) : (Field.flags m).bytes = [m.extractLsb' 8 8, m.extractLsb' 0 8] := by
  have high : BitVec.ofInt 8 ((m.toNat : Int) / 256 ^ 1) = m.extractLsb' 8 8 := by
    refine BitVec.eq_of_toNat_eq ?_
    rw [BitVec.toNat_ofInt, BitVec.extractLsb'_toNat, Nat.shiftRight_eq_div_pow]
    omega
  have low : BitVec.ofInt 8 ((m.toNat : Int) / 256 ^ 0) = m.extractLsb' 0 8 := by
    refine BitVec.eq_of_toNat_eq ?_
    rw [BitVec.toNat_ofInt, BitVec.extractLsb'_toNat, Nat.shiftRight_eq_div_pow]
    omega
  rw [← high, ← low]
  rfl

/-- The last two of some bytes check those before them. -/
theorem checkHolds_append {body : List Byte} {hi lo : Byte} :
    checkHolds (body ++ [hi, lo]) = true ↔ (crc body).toNat = 256 * hi.toNat + lo.toNat := by
  have front : (body ++ [hi, lo]).take ((body ++ [hi, lo]).length - 2) = body := List.take_left' (by simp)
  have back : (body ++ [hi, lo]).drop ((body ++ [hi, lo]).length - 2) = [hi, lo] := List.drop_left' (by simp)
  rw [← checkBytes_eq_iff, checkHolds, front, back, Bool.and_eq_true_iff, beq_iff_eq, decide_eq_true_iff]
  exact ⟨fun ⟨_, e⟩ => e.symm, fun e => ⟨by simp, e.symm⟩⟩

theorem frameHolds_iff {start hi lo : Byte} {body : List Byte} {f : List LineByte}
    (hf : f.map LineByte.val = start :: body ++ [hi, lo]) :
    frameHolds f = true ↔ (∀ x ∈ f, x.stop = true) ∧ (crc body).toNat = 256 * hi.toNat + lo.toNat := by
  have inside : (f.drop 1).map LineByte.val = body ++ [hi, lo] := by
    rw [List.map_drop, hf]
    rfl
  rw [frameHolds, inside, Bool.and_eq_true_iff, List.all_eq_true, checkHolds_append]

theorem frameRequest_eq {port : Fin 4} {station : Fin 16} {start length second tag kind hi lo : Byte} {body : List Byte}
    {f : List LineByte} (hf : f.map LineByte.val = start :: length :: second :: tag :: kind :: body ++ [hi, lo])
    (hs : second.toNat = station.val) :
    frameRequest port f = readRequest { port, station, tag, fits := true } kind.toNat body := by
  have whole : (((start :: length :: second :: tag :: kind :: body) ++ [hi, lo]).drop 5).take
      (((start :: length :: second :: tag :: kind :: body) ++ [hi, lo]).length - 7) = body := by
    refine List.take_left' ?_
    rw [List.length_append, List.length_cons, List.length_cons, List.length_cons, List.length_cons, List.length_cons]
    rfl
  have named : Fin.ofNat 16 second.toNat = station := by
    rw [hs]
    exact Fin.ofNat_val_eq_self station
  unfold frameRequest
  dsimp only
  rw [hf, whole]
  simp only [byteAt, List.cons_append, List.getElem?_cons_succ, List.getElem?_cons_zero, Option.getD_some, named,
    BitVec.ofNat_toNat, BitVec.setWidth_eq]

/-! ### The receiver -/

section
variable {port : Fin 4} {s : State}

theorem exec_frameReceived (port : Fin 4) (bytes : List LineByte) (s : State) :
    exec (.frameReceived port bytes) s = .next (s.modPort port (Port.arrive port bytes)) := rfl

/-- What a port does of some bytes, when it is what it does of others after a step of its own. -/
theorem exec_frameReceived_congr {bytes rest : List LineByte} {f : Port → Port}
    (h : (s.ports.get port).arrive port bytes = (f (s.ports.get port)).arrive port rest) :
    exec (.frameReceived port bytes) s = exec (.frameReceived port rest) (s.modPort port f) := by
  rw [exec_frameReceived, exec_frameReceived]
  exact congrArg Host.Outcome.next (modPort_modPort h.symm).symm

theorem modPort_congr {f g : Port → Port} (h : f (s.ports.get port) = g (s.ports.get port)) :
    s.modPort port f = s.modPort port g :=
  congrArg (fun x => ({ s with ports := x } : State)) (Tab.modify_congr s.ports port h)

theorem exec_frameReceived_leaves {bytes : List LineByte} {f : Port → Port}
    (h : (s.ports.get port).arrive port bytes = f (s.ports.get port)) :
    exec (.frameReceived port bytes) s = .next (s.modPort port f) := by
  rw [exec_frameReceived, modPort_congr h]

theorem arrive_nil {p : Port} (h : p.gathered = []) : p.arrive port [] = p := by
  rw [arrive_hunting port [] p 1 h Nat.zero_lt_one]
  show { p with gathered := [] } = p
  rw [← h]

theorem receive_withGathered (i : Instr) (p : Port) (g : List LineByte) :
    ({ p with gathered := g } : Port).receive i = { p.receive i with gathered := g } := by
  unfold Port.receive
  dsimp only
  split <;> rfl

theorem scan_one (port : Fin 4) (fuel : Nat) (b : LineByte) (p : Port) : scan port (fuel + 1) [b] p =
    if b.val ≠ 0x7E#8 then scan port fuel [] p else { p with gathered := [b] } := rfl

/-- A scan does not go by what was gathered before it. -/
theorem scan_withGathered (port : Fin 4) (fuel : Nat) (g : List LineByte) : ∀ (buf : List LineByte) (p : Port),
    scan port fuel buf { p with gathered := g } = scan port fuel buf p := by
  induction fuel with
  | zero => exact fun _ _ => rfl
  | succ fuel ih =>
    intro buf p
    cases buf with
    | nil => rfl
    | cons b rest =>
      cases rest with
      | nil =>
        rw [scan_one, scan_one, ih]
      | cons len tail =>
        rw [scan_pair port fuel b len tail _ _ rfl, scan_pair port fuel b len tail _ _ rfl, receive_withGathered,
          show ({ p with gathered := g } : Port).countBad = { p.countBad with gathered := g } from rfl, ih, ih, ih]

/-- The bytes gathered come first. -/
theorem arrive_gathered (port : Fin 4) (p : Port) (bytes : List LineByte) :
    p.arrive port bytes = ({ p with gathered := [] } : Port).arrive port (p.gathered ++ bytes) :=
  (scan_withGathered port _ [] _ p).symm

theorem arrive_passes {b : LineByte} {rest : List LineByte} {p : Port} (h : p.gathered = []) (hb : b.val ≠ 0x7E#8) :
    p.arrive port (b :: rest) = p.arrive port rest := by
  rw [arrive_hunting port (b :: rest) p (rest.length + 2) h (Nat.lt_succ_self _),
    arrive_hunting port rest p (rest.length + 1) h (Nat.lt_succ_self _)]
  exact if_pos hb

theorem arrive_start {start : LineByte} {p : Port} (h : p.gathered = []) (hs : start.val = 0x7E#8) :
    p.arrive port [start] = { p with gathered := [start] } := by
  rw [arrive_hunting port [start] p 2 h (Nat.lt_succ_self _)]
  exact if_neg fun away => away hs

/-- A bad length is counted, and the hunt goes on at it. -/
theorem arrive_badLength {start len : LineByte} {rest : List LineByte} {p : Port} (h : p.gathered = []) (hs : start.val = 0x7E#8)
    (bad : len.val.toNat < 4 ∨ 250 < len.val.toNat) :
    p.arrive port (start :: len :: rest) = p.countBad.arrive port (len :: rest) := by
  rw [arrive_hunting port (start :: len :: rest) p (rest.length + 3) h (Nat.lt_succ_self _), scan_pair _ _ _ _ _ _ _ rfl,
    if_neg fun away => away hs, if_pos bad,
    arrive_hunting port (len :: rest) p.countBad (rest.length + 2) h (Nat.lt_succ_self _)]

/-- A frame that is not yet whole is gathered. -/
theorem arrive_partial {bytes : List LineByte} {p : Port} (h : p.gathered = []) (lo : 4 ≤ byteAt (bytes.map LineByte.val) 1)
    (hi : byteAt (bytes.map LineByte.val) 1 ≤ 250) (two : 2 ≤ bytes.length)
    (early : bytes.length < byteAt (bytes.map LineByte.val) 1 + 4) (hs : byteAt (bytes.map LineByte.val) 0 = 0x7E) :
    p.arrive port bytes = { p with gathered := bytes } := by
  match bytes, two with
  | start :: len :: tail, _ =>
    have mark : start.val = 0x7E#8 := BitVec.eq_of_toNat_eq hs
    have length : byteAt ((start :: len :: tail).map LineByte.val) 1 = len.val.toNat := rfl
    rw [length] at lo hi early
    rw [arrive_hunting port (start :: len :: tail) p (tail.length + 3) h (Nat.lt_succ_self _), scan_pair _ _ _ _ _ _ _ rfl,
      if_neg fun away => away mark, if_neg (by omega), if_pos (Nat.lt_of_succ_lt_succ early)]

/-! ### The transmitter -/

theorem sendFrame_notice {port : Fin 4} {n : Notice} {g : Bool} {s : State} (h : (s.ports.get port).tx = some (.notice n g))
    (a b : Bool) : sendFrame port a b s = s.modPort port fun p => { p with tx := none }.pump := by
  have sent : (s.ports.get port).sent = ({ s.ports.get port with tx := none } : Port).pump := by
    unfold Port.sent
    rw [h]
  unfold sendFrame
  rw [h]
  exact modPort_congr (g := fun p => { p with tx := none }.pump) sent

theorem sendFrame_answer {port : Fin 4} {x : Answer} {s : State} (h : (s.ports.get port).tx = some (.answer x))
    (other : ¬(x.kind = 52 ∧ x.outcome = .done)) (a b : Bool) :
    sendFrame port a b s = s.modPort port fun p => { p with tx := none, queue := p.queue.drop 1 }.pump := by
  have sent : (s.ports.get port).sent =
      ({ s.ports.get port with tx := none, queue := (s.ports.get port).queue.drop 1 } : Port).pump := by
    unfold Port.sent
    rw [h]
  have stays : (TxFrame.answer x).restarts = false := by
    rw [show (TxFrame.answer x).restarts = (decide (x.kind = 52) && decide (x.outcome = .done)) from rfl, ← Bool.decide_and]
    exact decide_eq_false other
  unfold sendFrame
  rw [h]
  dsimp only
  rw [stays]
  exact modPort_congr (g := fun p => { p with tx := none, queue := p.queue.drop 1 }.pump) sent

theorem Port.admits_iff {p : Port} {n : Notice} : p.admits n = true ↔
    p.kinds.getLsbD (n.kind - 1) = true ∧ ∀ k, n.screen = some k → p.screens.getLsbD k.val = true := by
  unfold Port.admits
  rw [Bool.and_eq_true_iff]
  refine and_congr_right' ?_
  cases n.screen with
  | none => exact iff_of_true rfl nofun
  | some k => exact ⟨fun h _ e => Option.some.inj e ▸ h, fun h => h k rfl⟩

theorem Port.offer_admitted {p : Port} {n : Notice} (h : p.admits n = true) :
    (p.notices.length < 32 → p.offer n = { p with notices := p.notices ++ [n] }.pump) ∧
    (32 ≤ p.notices.length →
      p.offer n = { p with notices := p.notices.drop 1 ++ [n], discarded := p.discarded + 1, gap := true }.pump) := by
  unfold Port.offer Port.push
  rw [if_pos h]
  exact ⟨fun room => by rw [if_neg (show ¬Config.noticeLimit ≤ p.notices.length from Nat.not_le.2 room)],
    fun full => by rw [if_pos (show Config.noticeLimit ≤ p.notices.length from full)]⟩

section
variable {p : Port}

theorem Port.pump_busy (h : p.tx ≠ none) : p.pump = p := by
  obtain ⟨f, hf⟩ := Option.ne_none_iff_exists'.1 h
  simp only [Port.pump, hf]

theorem Port.pump_answer {a : Answer} (h : p.tx = none) (ha : p.answer = some a) :
    p.pump = { p with answer := none, tx := some (.answer a) } := by
  simp only [Port.pump, h, ha]

theorem Port.pump_awaits (h : p.tx = none) (ha : p.answer = none) (hq : ∃ q rest, p.queue = q :: rest ∧ q.answered = false) :
    p.pump = p := by
  obtain ⟨q, rest, queue, open_⟩ := hq
  have waits : p.awaiting = true := by simp only [Port.awaiting, queue, open_, Bool.not_false]
  simp only [Port.pump, h, ha, waits, if_true]

theorem Port.pump_notice (h : p.tx = none) (ha : p.answer = none) (hq : ∀ q rest, p.queue = q :: rest → q.answered = true) :
    (p.notices = [] → p.pump = p) ∧
    (∀ n rest, p.notices = n :: rest →
      p.pump = { p with notices := rest, tx := some (.notice n p.gap), gap := false }) := by
  have waits : p.awaiting = false := by
    unfold Port.awaiting
    cases queue : p.queue with
    | nil => rfl
    | cons q rest => simp only [hq q rest queue, Bool.not_true]
  exact ⟨fun none_ => by simp only [Port.pump, h, ha, waits, none_, Bool.false_eq_true, if_false],
    fun n rest some_ => by simp only [Port.pump, h, ha, waits, some_, Bool.false_eq_true, if_false]⟩

end

end

end Sys2Proof.Machine
end

section
/-! PROOF. FRAME_RECEIVED and FRAME_SENT (O6). -/

open Sys2Proof Sys2Proof.Machine

/-- Settles O6: bytes, frames, requests, the receiver and the transmitter, each by its lemma. -/
theorem framesReceivedAndSent : Obligations.FramesReceivedAndSent := by
  unfold Obligations.FramesReceivedAndSent
  refine ⟨fun x k => LineByte.val_bit x, fun _ => rfl, sentByte_spells, frameReceived_wellFormed, fun _ => rfl, ?_, rfl,
    fun n => by cases n <;> rfl, ?_, flags_bytes, fun start body hi lo f => frameHolds_iff,
    fun port station start length second tag kind hi lo body f => frameRequest_eq, fun h kind body => readRequest_unknown, ?_,
    fun _ => rfl, fun i h kind front back part b e fits wf hp wrong => readRequest_spoiled e fits wf hp wrong, fun _ => rfl,
    rfl, rfl, fun _ => rfl, fun _ => rfl, beBytes_succ, fun _ _ => rfl, ?_, ?_, ?_, ?_, ?_, ?_, ?_, ?_, ?_, ?_, ?_, ?_, ?_, ?_, ?_⟩
  · intro f second tag kind body answers notices
    cases f with
    | answer a =>
      obtain ⟨station, rfl, rfl, rfl⟩ := answers a rfl
      have named : second = BitVec.ofNat 8 (16 + a.station.val) := by
        rw [← station, BitVec.ofNat_toNat, BitVec.setWidth_eq]
      rw [named, ← flagByte]
      exact frame_bytes _ _ _ _
    | notice n gap =>
      obtain ⟨rfl, rfl, rfl, rfl⟩ := notices n gap rfl
      rw [← flagByte]
      exact frame_bytes _ _ _ _
  · exact fun k v => ⟨rfl, rfl, congrArg (0#8 :: ·) (beBytes_zero_value k), rfl, rfl⟩
  · exact fun i h kind e fits wf => ⟨readRequest_body e fits wf, fun front back hb hf =>
      ⟨_, readRequest_misfit e fits wf hb hf, rfl⟩⟩
  · intro port s hunting
    rw [exec_frameReceived_leaves (f := id) (arrive_nil hunting), modPort_self rfl]
  · intro port bytes s hunting lo hi whole start
    have arrives := fun behind => arrive_frame port bytes behind (s.ports.get port) hunting lo hi whole start
    refine ⟨fun good request => ⟨exec_frameReceived_leaves ?_, fun behind => exec_frameReceived_congr ?_⟩,
      fun bad behind => exec_frameReceived_congr (f := Port.countBad) ?_⟩
    · have hunts : ((s.ports.get port).receive (frameRequest port bytes)).gathered = [] :=
        (receive_gathered _ _).trans hunting
      have alone := arrives []
      rw [List.append_nil, if_pos ⟨good, request⟩, arrive_nil hunts] at alone
      rw [alone, ← hunts]
    · rw [arrives, if_pos ⟨good, request⟩]
    · rw [arrives, if_neg]
      rintro ⟨holds, small⟩
      exact bad.elim (fun e => Bool.false_ne_true (e.symm.trans holds)) fun e => Nat.not_lt.2 e small
  · exact fun port bytes s => exec_frameReceived_congr (f := fun p => { p with gathered := [] }) (arrive_gathered port _ bytes)
  · intro port b rest s hunting away
    have passes := exec_frameReceived_congr (s := s) (port := port) (f := id) (arrive_passes (rest := rest) hunting away)
    rwa [modPort_self (f := id) rfl] at passes
  · exact fun port bytes s hunting lo hi two early start =>
      exec_frameReceived_leaves (arrive_partial hunting lo hi two early start)
  · exact fun port start s hunting mark => exec_frameReceived_leaves (arrive_start hunting mark)
  · exact fun port start len rest s hunting mark bad =>
      exec_frameReceived_congr (f := Port.countBad) (arrive_badLength hunting mark bad)
  · intro port start len s hunting mark away bad
    refine exec_frameReceived_leaves ?_
    have counted : (s.ports.get port).countBad.gathered = [] := hunting
    rw [arrive_badLength hunting mark bad, arrive_passes counted away, arrive_nil counted]
    rw [← hunting]
    rfl
  · intro port a b s idle
    rw [exec_frameSent, sendFrame, idle]
  · exact fun port a b n g s sending => congrArg Host.Outcome.next (sendFrame_notice sending a b)
  · exact fun port a b x s sending other => congrArg Host.Outcome.next (sendFrame_answer sending other a b)
  · exact fun port a b x s sending kind done => congrArg Host.Outcome.next (sendFrame_restarts sending kind done a b)
  · exact fun n s port => ⟨rfl, Tab.get_map ..⟩
  · exact fun n p => ⟨Port.admits_iff, fun refused => if_neg (Bool.eq_false_iff.1 refused),
      fun admitted => (Port.offer_admitted admitted).1, fun admitted => (Port.offer_admitted admitted).2⟩
  · exact fun p => ⟨Port.pump_busy, fun a idle answer => Port.pump_answer idle answer, Port.pump_awaits, Port.pump_notice⟩
end
